-- ==== Sys2Proof/Word.lean ====
section
/-! DEFINITION. The K460's words: the bytes of its lines, the 16-bit numbers it compares modulo 65536, and its 16-byte keys. -/

namespace Sys2Proof

/-- One byte on a line. -/
abbrev Byte := BitVec 8

/-- A 16-bit sequence or bulletin number, compared modulo 65536 (00 Conventions, Sequence arithmetic). -/
abbrev Seq := BitVec 16

/-- A key of 16 bytes (R66, R83). -/
abbrev Key := BitVec 128

/-- Text returned to the host, by its characters' codes. -/
abbrev Text := List Byte

/-- A PIN by its digits, each one ASCII byte (Table 11.7-8). -/
abbrev Pin := List Byte

end Sys2Proof
end

