-- ==== Sys2Proof/Machine/Types.lean ====
section
/-! DEFINITION. The plain data that commands carry and state holds: carriers, channel entries, outputs, the readings of the
headend's tables, and the fields of each request, each with the names of spec/. -/

namespace Sys2Proof

/-- Symbol class of a carrier (R1). -/
inductive SymbolClass where
  | a | b | c
  deriving DecidableEq, Repr

/-- A carrier by its identity: frequency in kHz and symbol class (R1). -/
structure Carrier where
  freq : Nat
  sym : SymbolClass
  deriving DecidableEq, Repr

/-- An entry of the carrier list (R1). -/
structure CarrierEntry where
  number : Nat
  carrier : Carrier
  deriving DecidableEq, Repr

/-- Which access verdict rule applies to a channel (Table 1.2-1). -/
inductive ChannelKind where
  | free | subscribed | eventPaid
  deriving DecidableEq, Repr

/-- A channel entry (Table 1.2-1). -/
structure ChannelEntry where
  lcn : Nat
  carrierNo : Nat
  service : Nat
  kind : ChannelKind
  packages : List Nat
  baseRating : Nat
  hidden : Bool
  name : Text
  deriving DecidableEq, Repr

/-- The four outputs (00 section 1.4). -/
inductive Output where
  | roomA | roomB | record1 | record2
  deriving DecidableEq, Repr

/-- The two viewing rooms. -/
inductive Room where
  | a | b
  deriving DecidableEq, Repr

/-- A service's lanes: media lanes and key lane, 0 for an unscrambled service (R40). -/
structure LaneEntry where
  service : Nat
  lanes : List Nat
  keyLane : Nat
  version : Nat
  deriving DecidableEq, Repr

/-- Key selector of a cell (Table 11.7-4). -/
inductive Parity where
  | clear | even | odd | reserved
  deriving DecidableEq, Repr

/-- One of the two enciphered parities. -/
inductive KeyParity where
  | even | odd
  deriving DecidableEq, Repr

/-- A record as a guide table gives it: the fields of Table 6.1-1 without source and block version. -/
structure OfferedRecord where
  lcn : Nat
  event : Nat
  start : Nat
  duration : Nat
  rating : Nat
  title : Text
  price : Option Nat
  deriving DecidableEq, Repr

/-- A channel entry of a present/next segment (section 6.5). -/
structure PresentNextEntry where
  lcn : Nat
  present : Option OfferedRecord
  next : Option OfferedRecord
  deriving DecidableEq, Repr

/-- Criterion of a key bulletin (Table 4.3-1). -/
inductive Criterion where
  | packages (ids : List Nat)
  | event (id : Nat)
  deriving DecidableEq, Repr

/-- A key bulletin's fields (Table 4.3-1); keys enciphered under the system key. -/
structure KeyBulletin where
  lane : Nat
  criterion : Criterion
  period : Nat
  even : Option Key
  odd : Option Key
  deriving DecidableEq, Repr

/-- Whom a grant bulletin addresses (Table 5.3-1). -/
inductive GrantAddress where
  | unit (address : Nat)
  | group (number : Nat)
  deriving DecidableEq, Repr

/-- An operation of a grant bulletin (Table 5.3-2); `unknown` is an operation of a kind not in the table (R90). -/
inductive GrantOp where
  | addPackage (id first last : Nat)
  | dropPackage (id : Nat)
  | addEvent (lcn event expiry : Nat)
  | creditLimit (amount : Nat)
  | creditTopUp (amount : Nat)
  | purchaseAck (s : Seq)
  | cut
  | restore
  | unknown
  deriving DecidableEq, Repr

/-- A grant bulletin's fields (Table 5.3-1). -/
structure GrantBulletin where
  address : GrantAddress
  number : Seq
  ops : List GrantOp
  deriving DecidableEq, Repr

/-- What a consumer reads from a segment's body. The spec lists the fields and gives no byte layout for them, so the reading
comes with the cell that completes the segment (log 3). -/
inductive TableBody where
  | directory (guide : Option Nat) (carriers : List CarrierEntry) (channels : List ChannelEntry)
  | time (time : Nat) (offset : Option Int)
  | grants (b : GrantBulletin)
  | laneMap (entries : List LaneEntry)
  | presentNext (entries : List PresentNextEntry)
  | schedule (records : List OfferedRecord)
  | keys (b : KeyBulletin)
  deriving DecidableEq, Repr

/-- Mark of a key report (R220). -/
inductive KeyMark where
  | press | repeated | other
  deriving DecidableEq, Repr

/-- Link rate in baud (section 11.1). -/
inductive Rate where
  | baud115200 | baud921600
  deriving DecidableEq, Repr, Inhabited

/-- What a reset meets outside the state: the strap pin's level (R221), and whether the write or erase in progress had come
whole into the memory before the reset (R180, R188; log 11). -/
structure ResetInput where
  strap : Bool
  landed : Bool
  deriving DecidableEq, Repr

/-! ## Fields of the requests, in the order their rules list them; ranges are checked by the meanings. -/

structure ListChannelsReq where
  start : Nat
  hidden : Bool
  deriving DecidableEq, Repr

/-- A frequency and a symbol class as sent (R15). -/
structure CarrierReq where
  freq : Nat
  sym : Nat
  deriving DecidableEq, Repr

structure SelectReq where
  output : Nat
  lcn : Nat
  deriving DecidableEq, Repr

structure IssueReq where
  address : Nat
  groups : List Nat
  key : List Byte
  deriving DecidableEq, Repr

structure AccessReq where
  selector : Nat
  position : Nat
  deriving DecidableEq, Repr

structure GuideReq where
  lcn : Nat
  fromTime : Nat
  deriving DecidableEq, Repr

structure RoomPinReq where
  room : Nat
  pin : Option Pin
  deriving DecidableEq, Repr

structure ProfilePinReq where
  room : Nat
  profile : Nat
  pin : Option Pin
  deriving DecidableEq, Repr

/-- A viewing window [start minute, end minute) (R124). -/
structure Window where
  start : Nat
  stop : Nat
  deriving DecidableEq, Repr

/-- The fields of a SET action (R142). -/
structure ProfileFields where
  ceiling : Nat
  allowance : Nat
  windows : List Window
  purchaseCeiling : Nat
  deriving DecidableEq, Repr

/-- SET PROFILE; `fields` is present for the action SET and absent for REMOVE (R142). -/
structure SetProfileReq where
  profile : Nat
  fields : Option ProfileFields
  pin : Option Pin
  deriving DecidableEq, Repr

structure SetPinReq where
  old : Option Pin
  new : Option Pin
  deriving DecidableEq, Repr

structure LcnPinReq where
  lcn : Nat
  pin : Option Pin
  deriving DecidableEq, Repr

/-- Target of a PURCHASE: PRESENT, or an LCN with an event id (R151). -/
inductive PurchaseTarget where
  | present
  | event (lcn event : Nat)
  deriving DecidableEq, Repr

structure PurchaseReq where
  room : Nat
  target : PurchaseTarget
  pin : Option Pin
  deriving DecidableEq, Repr

structure UplinkReq where
  mode : Nat
  interval : Nat
  deriving DecidableEq, Repr

/-- ADD BOOKING (R199): a kind by its number, either an event id or both times, a lead for a reminder, an output number and a
takes-room flag for a recording. -/
structure AddBookingReq where
  kind : Nat
  lcn : Nat
  event : Option Nat
  start : Option Nat
  finish : Option Nat
  lead : Nat
  output : Nat
  takesRoom : Bool
  deriving DecidableEq, Repr

structure WakeAtReq where
  alarm : Option Nat
  lead : Option Nat
  deriving DecidableEq, Repr

structure AttentionReq where
  mode : Nat
  gap : Nat
  deriving DecidableEq, Repr

end Sys2Proof
end

