-- ==== Sys2Proof/Syntax.lean ====
section
/-! DEFINITION. The commands: one constructor for each row of spec/opcode_table.json, in the table's order. A request's first
operand is the tag of its frame and its second its fields, `none` for a body whose length or presence bytes do not fit
(R214, section 11.7). -/

namespace Sys2Proof

/-- The 90 commands of the K460. -/
inductive Instr where
  /-- Bytes from the host, the last of them the last check byte of a frame (R214). -/
  | frameReceived (bytes : List Byte)
  /-- 100 ms have passed since the open frame's SYNC byte (R214). -/
  | frameReceiveLimit
  | listChannels (tag : Byte) (a : Option ListChannelsReq)
  | channelInfo (tag : Byte) (a : Option Nat)
  | setHomeCarrier (tag : Byte) (a : Option (Option CarrierReq))
  | setTuning (tag : Byte) (a : Option Nat)
  | tunerStatus (tag : Byte) (a : Option Unit)
  | selectChannel (tag : Byte) (a : Option SelectReq)
  | stopOutput (tag : Byte) (a : Option Nat)
  | sessionStatus (tag : Byte) (a : Option (Option Nat))
  | keyStatus (tag : Byte) (a : Option (Option Nat))
  | issue (tag : Byte) (a : Option IssueReq)
  /-- The issue area's write ends; `ok`: its verify succeeds (R84). -/
  | issueWriteDone (ok : Bool)
  | lockIssue (tag : Byte) (a : Option Unit)
  | lockIssueWriteDone (ok : Bool)
  | accessStatus (tag : Byte) (a : Option AccessReq)
  | issueStatus (tag : Byte) (a : Option Unit)
  | guideQuery (tag : Byte) (a : Option GuideReq)
  | nowNext (tag : Byte) (a : Option Nat)
  | refreshGuide (tag : Byte) (a : Option (Option Nat))
  | unlockRoom (tag : Byte) (a : Option RoomPinReq)
  | relockRoom (tag : Byte) (a : Option Nat)
  | relockAll (tag : Byte) (a : Option Unit)
  | switchProfile (tag : Byte) (a : Option ProfilePinReq)
  | returnProfile (tag : Byte) (a : Option Nat)
  | setRoomDefault (tag : Byte) (a : Option ProfilePinReq)
  | setProfile (tag : Byte) (a : Option SetProfileReq)
  | setPin (tag : Byte) (a : Option SetPinReq)
  | lockChannel (tag : Byte) (a : Option LcnPinReq)
  | unlockChannel (tag : Byte) (a : Option LcnPinReq)
  | limitStatus (tag : Byte) (a : Option Unit)
  | purchase (tag : Byte) (a : Option PurchaseReq)
  | uplinkNow (tag : Byte) (a : Option Unit)
  | uplinkRelease (tag : Byte) (a : Option Unit)
  | setUplink (tag : Byte) (a : Option UplinkReq)
  | purchaseLog (tag : Byte) (a : Option Nat)
  | creditStatus (tag : Byte) (a : Option Unit)
  | wipeAccount (tag : Byte) (a : Option (Option Pin))
  | storeStatus (tag : Byte) (a : Option Unit)
  | addBooking (tag : Byte) (a : Option AddBookingReq)
  | dropBooking (tag : Byte) (a : Option Nat)
  | listBookings (tag : Byte) (a : Option Nat)
  | standby (tag : Byte) (a : Option Unit)
  | resume (tag : Byte) (a : Option Unit)
  | wakeAt (tag : Byte) (a : Option WakeAtReq)
  | setZone (tag : Byte) (a : Option (Option Int))
  | clockStatus (tag : Byte) (a : Option Unit)
  | takeNotices (tag : Byte) (a : Option Unit)
  | ping (tag : Byte) (a : Option Unit)
  | setAttention (tag : Byte) (a : Option AttentionReq)
  | setKeys (tag : Byte) (a : Option Nat)
  | resetUnit (tag : Byte) (a : Option Unit)
  | requestReset (r : ResetInput)
  | powerOn (r : ResetInput)
  | resetLine (r : ResetInput)
  /-- A LOCK report: the tuner and the echoed command count (R17). -/
  | lockReport (tuner : Fin 4) (count : BitVec 4)
  | lossReport (tuner : Fin 4) (count : BitVec 4)
  | acquisitionLimit (tuner : Fin 4)
  | lossTimer (tuner : Fin 4)
  | standbyWatchHold
  /-- A cell: its input, header, 156-byte payload, and what the consumer reads from the body of a segment that this cell
  completes (log 3). -/
  | cellArrival (input : Fin 4) (header : BitVec 32) (payload : List Byte) (reading : TableBody)
  | bufferHandOver (slot : Fin 16)
  | keptBulletinRetest
  | keyLife (slot : Fin 4)
  | sweepTimer
  | sweepLimit
  | laneMapWait (output : Output)
  | keyWait (output : Output)
  | lockoutTimer
  | allowanceMinute
  | reportTimer
  | sendBegin
  /-- The modem's two bytes: the echoed attempt number and the answer (section 11.7). -/
  | modemAnswer (attempt : Byte) (answer : Byte)
  | answerWait
  | retryTimer
  | ackWait
  | backoffTimer
  | quietTimer
  | owedCommitOffer
  /-- The store turns to the head item; `lengths` are the body lengths of its records in bytes (log 4). -/
  | itemWriteBegin (lengths : List Nat)
  | itemWriteDone (ok : Bool)
  | markWriteDone (ok : Bool)
  | copyWriteDone (ok : Bool)
  | pageEraseDone (blank : Bool)
  | bankEraseDone (blank : Bool)
  /-- The scan ends; `notBlank` are the RETIRING pages its erases did not leave blank (R188, R189). -/
  | startUpScanDone (notBlank : List (Fin 128))
  | clockSecond
  | keyReport (code : Byte) (mark : KeyMark)
  | gapTimer
  /-- The opening bytes of a frame whose body length byte is above 240 (R214). -/
  | bodyLengthExceeded (kind tag length : Byte)
  deriving DecidableEq, Repr

end Sys2Proof
end

