-- ==== Sys2Proof/Config.lean ====
section
/-! DEFINITION. What one part fixes and what the spec leaves open: constants with no body, so that nothing can rest on a value
of them. -/

namespace Sys2Proof

/-- The silicon revision number PING returns (R222); the spec gives no value (log 7). -/
opaque Config.siliconRevision : Byte

/-- The rate each level of the strap pin selects (section 11.1); the spec does not say which (log 6). -/
opaque Config.strapRate : Bool → Rate

/-- Deciphers a key of a key bulletin under the system key (R75); the cipher is not given (00 Scope, log 5). -/
opaque Config.decipherKey : Key → Key → Key

/-- Deciphers a cell's payload with a key (R78); the cipher is not given (log 5). -/
opaque Config.decipherPayload : Key → List Byte → List Byte

/-- Remaining time of a page erase in ms, at most 60 (R184), for each draw of the free counter (log 9). -/
opaque Config.eraseTime : Nat → Fin 61

/-- What the last correction becomes at the first setting of the clock, when there is no time to differ from (R192, log 23). -/
opaque Config.firstCorrection : Nat → Option Int

end Sys2Proof
end

