-- ==== Sys2Proof/Machine/State.lean ====
section
/-! DEFINITION. The K460's state as plain data, block by block in the order of spec/, the state after reset, and the reasons a
step can stop. -/

namespace Sys2Proof.Machine

open Sys2Proof

/-! ## Timers -/

/-- A duty timer: reload, remaining time in ms, running flag (R196). -/
structure Timer where
  reload : Nat
  left : Nat
  running : Bool
  deriving DecidableEq, Repr

/-- A timer after a reset that no rule has started: a start sets its reload and its remaining time (R196, log 68). -/
def Timer.stopped : Timer := { reload := 0, left := 0, running := false }

/-! ## Channel Directory (chapter 1) -/

/-- Entries of one segment of the directory, kept with its number (section 1.3). -/
structure AreaPart where
  number : Nat
  guide : Option Nat
  carriers : List CarrierEntry
  channels : List ChannelEntry
  deriving DecidableEq, Repr

structure Directory where
  map : List ChannelEntry
  carriers : List CarrierEntry
  guideCarrier : Option Nat
  version : Option Nat
  home : Option Carrier
  asmVersion : Option Nat
  asmLast : Nat
  /-- The seen-set is the set of its numbers. -/
  asmArea : List AreaPart
  /-- Owed indices in offering order: parts ascending, then the header 0 (R11). -/
  owed : List Nat
  deriving DecidableEq, Repr

/-! ## Tuner Arbiter (chapter 2) -/

inductive TunerState where
  | off | acquiring | locked | lost
  deriving DecidableEq, Repr

/-- The six claimants. -/
inductive Claimant where
  | out (o : Output)
  | sweep
  | watch
  deriving DecidableEq, Repr

/-- A set of claimants. -/
structure Holders where
  roomA : Bool
  roomB : Bool
  record1 : Bool
  record2 : Bool
  sweep : Bool
  watch : Bool
  deriving DecidableEq, Repr

def Holders.none : Holders := ⟨false, false, false, false, false, false⟩

structure Tuner where
  state : TunerState
  carrier : Option Carrier
  number : Option Nat
  holders : Holders
  acq : Timer
  loss : Timer
  count : BitVec 4
  deriving DecidableEq, Repr

/-- A command on the tuner control line: a tune command with its carrier, or an off command without (R17). -/
structure TunerCommand where
  tuner : Fin 4
  count : BitVec 4
  carrier : Option Carrier
  deriving DecidableEq, Repr

structure Arbiter where
  tuners : Vector Tuner 4
  acqLimit : Nat
  line : List TunerCommand
  deriving DecidableEq, Repr

/-! ## Segment Collector (chapter 2) -/

/-- What a filter's consumer takes; one for each table kind of Table 11.7-5. -/
inductive Consumer where
  | directory | time | grants | laneMap | presentNext | schedule | keys
  deriving DecidableEq, Repr

inductive BufferState where
  | free | filling | waiting | handed
  deriving DecidableEq, Repr

/-- A segment buffer: `waiting` and `handed` are the two FULL conditions (R31). `reading` is the body as read (log 3). -/
structure Buffer where
  state : BufferState
  bytes : List Byte
  stamp : Nat
  reading : Option TableBody
  deriving DecidableEq, Repr

def Buffer.free : Buffer := { state := .free, bytes := [], stamp := 0, reading := none }

inductive Assembly where
  | idle
  | collecting (needed : Nat) (next : BitVec 4)
  | skipping
  deriving DecidableEq, Repr

/-- Where an OPEN slot filters (R31). -/
structure Filter where
  tuner : Fin 4
  lane : Nat
  consumer : Consumer
  deriving DecidableEq, Repr

/-- A filter slot; CLOSED while `filter` is absent. -/
structure Slot where
  filter : Option Filter
  a : Buffer
  b : Buffer
  asm : Assembly
  deriving DecidableEq, Repr

def Slot.closed : Slot := { filter := none, a := .free, b := .free, asm := .idle }

/-! ## Room Controller (chapter 3) -/

inductive SessionState where
  | idle | tuning | opening | checking | presenting | held | dark
  deriving DecidableEq, Repr

/-- The hold reasons (R39). -/
structure Reasons where
  noGrant : Bool
  noKey : Bool
  rating : Bool
  channelLocked : Bool
  window : Bool
  allowance : Bool
  tunerTaken : Bool
  noService : Bool
  deriving DecidableEq, Repr

def Reasons.none : Reasons := ⟨false, false, false, false, false, false, false, false⟩

inductive Origin where
  | host
  | booking (id : Nat)
  deriving DecidableEq, Repr

/-- The change tag: no change in flight, a change with no host tag, or the host's tag (Table 3.1-1). -/
inductive ChangeTag where
  | absent
  | untagged
  | tag (t : Byte)
  deriving DecidableEq, Repr

structure Session where
  state : SessionState
  lcn : Option Nat
  carrier : Option Carrier
  tuner : Option (Fin 4)
  service : Option LaneEntry
  slot : Option (Fin 4)
  change : ChangeTag
  origin : Origin
  reasons : Reasons
  event : Option Nat
  ret : Option SessionState
  laneWait : Timer
  keyWait : Timer
  deriving DecidableEq, Repr

def Session.idle : Session :=
  { state := .idle, lcn := none, carrier := none, tuner := none, service := none, slot := none, change := .absent,
    origin := .host, reasons := .none, event := none, ret := none, laneWait := .stopped, keyWait := .stopped }

structure LaneMap where
  entries : List LaneEntry
  complete : Option Nat
  working : Option Nat
  seen : List Nat
  deriving DecidableEq, Repr

def LaneMap.empty : LaneMap := { entries := [], complete := none, working := none, seen := [] }

/-- An unlock grant: an LCN with an event id or with no event (Table 3.9-1). -/
structure UnlockGrant where
  lcn : Nat
  event : Option Nat
  deriving DecidableEq, Repr

structure SavedContext where
  profile : Nat
  grant : Option UnlockGrant
  deriving DecidableEq, Repr

structure RoomContext where
  default : Nat
  active : Nat
  saved : Option SavedContext
  grant : Option UnlockGrant
  deriving DecidableEq, Repr

/-- A cleared media cell on an output; its parity is CLEAR (R63). -/
structure OutCell where
  lane : Nat
  unitStart : Bool
  continuity : BitVec 4
  payload : List Byte
  deriving DecidableEq, Repr

structure Rooms where
  sessions : Vector Session 4
  laneMaps : Vector LaneMap 4
  contexts : Vector RoomContext 2
  cells : Vector (List OutCell) 4
  deriving DecidableEq, Repr

/-! ## Key Table (chapter 4) -/

inductive KeyState where
  | empty | waiting | ready | missing | stale | denied
  deriving DecidableEq, Repr

structure KeySlot where
  carrier : Option Carrier
  keyLane : Option Nat
  refs : Nat
  state : KeyState
  even : Option Key
  odd : Option Key
  parity : Option KeyParity
  period : Option Nat
  life : Timer
  filter : Option (Fin 4)
  deriving DecidableEq, Repr

def KeySlot.empty : KeySlot :=
  { carrier := none, keyLane := none, refs := 0, state := .empty, even := none, odd := none, parity := none,
    period := none, life := .stopped, filter := none }

/-! ## Grant Table (chapter 5) -/

structure IssueFields where
  address : Nat
  groups : List Nat
  key : Key
  deriving DecidableEq, Repr

/-- The issue record's condition (R83). -/
inductive Issue where
  | blank
  | written (f : IssueFields)
  | locked (f : IssueFields)
  deriving DecidableEq, Repr

/-- The issue-area write in progress (R84, R85). -/
inductive IssueWrite where
  | issue (f : IssueFields)
  | lockFlag
  deriving DecidableEq, Repr

structure PackageGrant where
  id : Nat
  first : Nat
  last : Nat
  deriving DecidableEq, Repr

inductive GrantSource where
  | purchase | bulletin
  deriving DecidableEq, Repr

structure EventGrant where
  lcn : Nat
  event : Nat
  expiry : Nat
  source : GrantSource
  deriving DecidableEq, Repr

structure Access where
  issue : Issue
  issueWrite : Option IssueWrite
  packages : List PackageGrant
  events : List EventGrant
  cut : Bool
  last : Vector (Option Seq) 5
  groupOwed : Bool
  groupOwedCredit : Bool
  deriving DecidableEq, Repr

/-! ## Guide Store (chapter 6) -/

/-- Source of an event record, with the version of a source block (Table 6.1-1). -/
inductive Source where
  | block (k version : Nat)
  | now
  deriving DecidableEq, Repr

structure EventRecord where
  lcn : Nat
  event : Nat
  start : Nat
  duration : Nat
  rating : Nat
  title : Text
  price : Option Nat
  source : Source
  deriving DecidableEq, Repr

/-- A schedule block's state; the expected last segment number is absent while the version is (R110). -/
structure BlockState where
  version : Option Nat
  last : Option Nat
  seen : List Nat
  complete : Bool
  deriving DecidableEq, Repr

structure Marker where
  lcn : Nat
  event : Nat
  carrier : Carrier
  deriving DecidableEq, Repr

inductive SweepState where
  | idle | tuning | collecting
  deriving DecidableEq, Repr

inductive NextStart where
  | fresh | resume
  deriving DecidableEq, Repr

structure Sweep where
  state : SweepState
  timer : Timer
  limit : Timer
  next : NextStart
  tuner : Option (Fin 4)
  deriving DecidableEq, Repr

structure Guide where
  records : List EventRecord
  blocks : Vector BlockState 8
  markers : List Marker
  sweep : Sweep
  interval : Nat
  deriving DecidableEq, Repr

/-! ## Limit Unit (chapter 7) -/

structure Profile where
  ceiling : Nat
  allowance : Nat
  used : Nat
  windows : List Window
  purchaseCeiling : Nat
  deriving DecidableEq, Repr

/-- The master defaults (R124). -/
def Profile.master : Profile := { ceiling := 7, allowance := 1440, used := 0, windows := [], purchaseCeiling := 1000000 }

inductive LimitCommit where
  | pin | usedToday | lockList | settings
  deriving DecidableEq, Repr

structure Limits where
  profiles : Vector (Option Profile) 6
  pin : Option Pin
  count : Nat
  lockout : Timer
  failFlag : Bool
  /-- The commit that the failure-commit flag follows is the item being written; else it waits (R127). -/
  failWriting : Bool
  lockList : List Nat
  minute : Timer
  /-- Owed commits in the order they became owed. -/
  owed : List LimitCommit
  deriving DecidableEq, Repr

/-! ## Purchase Unit and Uplink Controller (chapter 8) -/

structure PurchaseRecord where
  seq : Seq
  lcn : Nat
  event : Nat
  price : Nat
  time : Nat
  profile : Nat
  reported : Bool
  deriving DecidableEq, Repr

structure InFlight where
  seq : Seq
  room : Room
  lcn : Nat
  event : Nat
  price : Nat
  time : Nat
  profile : Nat
  expiry : Nat
  deriving DecidableEq, Repr

structure Purchase where
  balance : Nat
  limit : Nat
  log : List PurchaseRecord
  nextSeq : Seq
  acked : Option Seq
  charged : Option Seq
  inFlight : Option InFlight
  logAckOwed : Bool
  deriving DecidableEq, Repr

inductive UplinkState where
  | idle | sending | waitAck | backoff | silent
  deriving DecidableEq, Repr

/-- The recovery mode (R167). -/
inductive Recovery where
  | auto | hold
  deriving DecidableEq, Repr

/-- The report in flight with its records, fixed for its life (Table 8.7-1, R164). -/
structure Report where
  records : List PurchaseRecord
  parity : Bool
  attempt : Byte
  deriving DecidableEq, Repr

structure Uplink where
  state : UplinkState
  report : Option Report
  attempt : Byte
  slotRetries : Nat
  failures : Nat
  quiet : Nat
  release : Bool
  pendingFlag : Bool
  mode : Recovery
  interval : Nat
  parity : Bool
  answerWait : Timer
  retry : Timer
  ackWait : Timer
  backoff : Timer
  quietTimer : Timer
  reportTimer : Timer
  line : List (List Byte)
  deriving DecidableEq, Repr

/-! ## Clock and Bookings (chapter 10) -/

inductive BookingKind where
  | reminder | recording
  deriving DecidableEq, Repr

inductive BookingState where
  | waiting | due | active | done | missed | conflict
  deriving DecidableEq, Repr

inductive RecordOutput where
  | record1 | record2 | any
  deriving DecidableEq, Repr

structure Booking where
  id : Nat
  kind : BookingKind
  lcn : Nat
  link : Option Nat
  start : Nat
  finish : Nat
  lead : Nat
  output : RecordOutput
  inUse : Option Output
  takesRoom : Bool
  extended : Bool
  state : BookingState
  deriving DecidableEq, Repr

inductive Power where
  | active | standby
  deriving DecidableEq, Repr

/-- The set of wake causes (R210). -/
structure WakeCauses where
  booking : Bool
  alarm : Bool
  powerKey : Bool
  deriving DecidableEq, Repr

structure Clock where
  /-- Network time; the clock is SET exactly while it is present (R191). -/
  time : Option Nat
  broadcast : Int
  zone : Option Int
  lastCorrection : Option Int
  today : Option Int
  wakeLead : Nat
  bookings : List Booking
  lastId : Nat
  /-- Ids of owed BOOKING commits, ascending (R198). -/
  owedBookings : List Nat
  owedDay : Bool
  /-- Ids of the owed BOOKING commits that became owed before the owed LAST_DAY did (R179, log 33). -/
  owedBeforeDay : List Nat
  power : Power
  wake : Bool
  causes : WakeCauses
  alarm : Option Nat
  hold : Timer
  deriving DecidableEq, Repr

/-! ## Account Store (chapter 9) -/

inductive RecordKind where
  | package | eventGrant | bulletinNumbers | credit | purchase | logAck | profile | pin | lockList | usedToday | booking
  | lastDay | settings | directoryPart
  deriving DecidableEq, Repr

structure StoreKey where
  kind : RecordKind
  index : Nat
  deriving DecidableEq, Repr

/-- Attention mode (R219). -/
inductive AttnMode where
  | level | edge
  deriving DecidableEq, Repr

/-- What each record carries (Table 9.1-1). -/
inductive RecordBody where
  | packages (l : List PackageGrant)
  | eventGrants (l : List EventGrant)
  | bulletinNumbers (cut : Bool) (last : Vector (Option Seq) 5)
  | credit (balance limit : Nat) (charged : Option Seq)
  | purchase (r : PurchaseRecord) (g : EventGrant) (balance limit : Nat)
  | logAck (acked : Option Seq) (parity : Bool)
  | profile (p : Option Profile)
  | pin (pin : Option Pin) (count : Nat)
  | lockList (l : List Nat)
  | usedToday (used : Vector Nat 6) (day : Option Int)
  | booking (b : Option Booking)
  | lastDay (day : Int)
  | homeCarrier (c : Option Carrier)
  | acqLimit (ms : Nat)
  | sweepInterval (min : Nat)
  | roomDefaults (a b : Nat)
  | uplink (mode : Recovery) (interval : Nat)
  | clock (zone : Option Int) (lead : Nat)
  | link (mode : AttnMode) (gap : Nat) (powerKey : Byte)
  | directoryHeader (version : Option Nat) (carriers : List CarrierEntry) (guide : Option Nat) (parts : Nat)
  | directoryPart (version : Option Nat) (entries : List ChannelEntry)
  deriving DecidableEq, Repr

/-- One record on a page (R174). -/
structure Record where
  key : StoreKey
  serial : Nat
  body : RecordBody
  length : Nat
  member : Nat
  members : Nat
  voided : Bool
  torn : Bool
  deriving DecidableEq, Repr

/-- An entry of a page: a record, or a wipe mark (R187) and whether it reads back. -/
inductive PageEntry where
  | record (r : Record)
  | wipeMark (serial : Nat) (good : Bool)
  deriving DecidableEq, Repr

inductive PageState where
  | erased | opened | full | retiring
  deriving DecidableEq, Repr

structure Page where
  state : PageState
  serial : Nat
  entries : List PageEntry
  deriving DecidableEq, Repr

def Page.blank : Page := { state := .erased, serial := 0, entries := [] }

abbrev PageNo := Fin 128

inductive StoreState where
  | scanning | idle | writing | compactingCopy | erasing | eraseSuspended | writingInSuspend | wiping | storeFull | fault
  deriving DecidableEq, Repr

/-- An item of the commit queue (R177): its key, its records in member order, its urgency. The poster is the owner of the key's
kind (Table 9.1-1). -/
structure Item where
  key : StoreKey
  records : List (StoreKey × RecordBody)
  urgent : Bool
  deriving DecidableEq, Repr

/-- The item being written: its body lengths, its serial, and how many records have verified (R180). -/
structure Job where
  item : Item
  lengths : List Nat
  serial : Nat
  done : Nat
  deriving DecidableEq, Repr

/-- A mark of a page (R173, R187). -/
inductive PageMark where
  | full (p : PageNo)
  | opening (p : PageNo)
  | retiring (p : PageNo)
  | wipe (p : PageNo)
  deriving DecidableEq, Repr

/-- What an operation needs a mark write for. -/
inductive Need where
  | item (second : Bool)
  | copy (r : Record) (second : Bool)
  | retire
  | wipe
  deriving DecidableEq, Repr

/-- The one write or erase in progress (R176); `second` marks the rewrite after a failed verify (R181). -/
inductive Activity where
  | none
  | item (second : Bool)
  | copy (r : Record) (second : Bool)
  | mark (m : PageMark) (second : Bool) (need : Need)
  | erase (p : PageNo)
  | bankErase (b : Fin 8)
  deriving DecidableEq, Repr

/-- The run fields of compaction while a run is active (R182). -/
structure Run where
  fullAtStart : Nat
  compacted : Nat
  page : Option PageNo
  deriving DecidableEq, Repr

/-- Cause carried by STORE_STATE (R181, R184, R187). -/
inductive StoreCause where
  | write | erase | wiped
  deriving DecidableEq, Repr

structure Store where
  pages : Vector Page 128
  nextPageSerial : Nat
  lastOpened : Option PageNo
  nextSerial : Nat
  state : StoreState
  queue : List Item
  job : Option Job
  activity : Activity
  run : Option Run
  /-- The erase of the run has been suspended (R184). -/
  suspended : Bool
  served : Nat
  /-- Remaining time of a suspended or resumed erase, in ms. -/
  eraseLeft : Option Nat
  faultCause : Option StoreCause
  faultPage : Option PageNo
  wipeFailed : Bool
  /-- Banks a wipe has still to erase, in order. -/
  banks : List (Fin 8)
  /-- Write serials of the groups that were written whole, or that the scan found whole (R174, R180, R188, log 42). -/
  whole : List Nat
  /-- The serial of the wipe mark that the scan found, or 0: records below it are discarded (R188). -/
  floor : Nat
  deriving DecidableEq, Repr

/-! ## Message Link (chapter 11) -/

/-- Table 11.2-1, in the order of its values. -/
inductive Code where
  | ok | accepted | badFrame | unknown | badRequest | busy | noSuch | noTuner | booked | standby | pinWrong | pinLockedOut
  | notIssued | issueLocked | cut | already | tooLate | noCredit | logFull | noRoom | storeFull | storeFault | full
  | conflict | notSwitched | notSilent
  deriving DecidableEq, Repr

inductive ResetCause where
  | powerOn | line | request
  deriving DecidableEq, Repr

/-- Outcomes of a change (Table 3.3-1). -/
inductive ChangeOutcome where
  | presenting | held | noService | noSignal | noTuner | superseded | stopped
  deriving DecidableEq, Repr

/-- Causes of a BOOKING_STATE that reports MISSED (R201, R205). -/
inductive MissedCause where
  | time | noSuch | noTuner | noSignal | stopped | reset
  deriving DecidableEq, Repr

/-- What GRANTS_CHANGED gives as its cause (R96, R99, R102). -/
inductive GrantsCause where
  | bulletin (slot : Fin 5) (number : Seq)
  | expiry
  | wipe
  deriving DecidableEq, Repr

/-- Cause of PIN_LOCKOUT (R128). -/
inductive LockoutCause where
  | failures | reset
  deriving DecidableEq, Repr

/-- Cause of UPLINK_STATE (R167). -/
inductive UplinkCause where
  | failures | recovered
  deriving DecidableEq, Repr

/-- The kinds of notice with their fields in the order of their posting rules (Table 11.7-3). -/
inductive NoticeBody where
  | ready (cause : ResetCause)
  | changeDone (o : Output) (tag : Option Byte) (outcome : ChangeOutcome) (lcn : Option Nat) (reasons : Option Reasons)
  | sessionState (o : Output) (state : SessionState) (reasons : Reasons) (lcn event : Option Nat)
  | channelMoved (o : Output) (lcn : Nat) (old new : Option Carrier)
  | channelsChanged (version carriers channels droppedCarriers droppedChannels : Nat)
  | signalLost (tuner : Fin 4) (number : Option Nat) (carrier : Option Carrier)
  | keyStale (slot : Fin 4) (carrier : Option Carrier) (keyLane period : Option Nat)
  | grantsChanged (cause : GrantsCause) (packages events : Nat) (cut : Bool)
  | eventChanged (o : Output) (lcn : Nat) (old new : Option Nat) (byMarker : Bool)
  | guideReady (records : Nat) (versions : List (Option Nat))
  | pinLockout (cause : LockoutCause) (minutes : Nat)
  | allowanceLow (profile used allowance : Nat)
  | purchaseDone (seq : Seq) (ok : Bool) (room : Room) (lcn event : Nat)
  | purchaseOffer (room : Room) (lcn event price finish : Nat)
  | uplinkState (state : UplinkState) (cause : UplinkCause) (failures : Option Nat) (records : Nat)
  | storeState (state : StoreState) (cause : Option StoreCause) (erased : Nat) (page : Option PageNo) (needed : Option Nat)
  | clockSet (time : Nat) (jump : Option Int) (offset : Int)
  | bookingDue (id lcn : Nat) (link : Option Nat) (start : Nat)
  | bookingState (id : Nat) (kind : BookingKind) (lcn : Nat) (state : BookingState) (inUse : Option Output)
      (extended : Bool) (cause : Option MissedCause)
  | keypress (code : Byte)
  deriving DecidableEq, Repr

/-- A notice: whether its stamp is network time, the stamp, and its kind with its fields (Table 11.7-2). -/
structure Notice where
  network : Bool
  stamp : Nat
  body : NoticeBody
  deriving DecidableEq, Repr

/-! ### Reply bodies: the fields each request's rule gives after the result code -/

/-- An entry of LIST CHANNELS (R13). -/
structure ListedChannel where
  lcn : Nat
  kind : ChannelKind
  name : Text
  hidden : Bool
  baseRating : Nat
  deriving DecidableEq, Repr

structure TunerReport where
  state : TunerState
  carrier : Option Carrier
  number : Option Nat
  holders : Holders
  lossExpired : Bool
  openSlots : Nat
  deriving DecidableEq, Repr

/-- One output of SESSION STATUS (R65). -/
structure SessionReport where
  output : Output
  session : Session
  keyState : Option KeyState
  tunerState : Option TunerState
  profile : Option Nat
  savedPresent : Bool
  grantPresent : Bool
  deriving DecidableEq, Repr

/-- What KEY STATUS gives of a slot in use (R82): `number` none when the list gives the carrier no number, `life` none when it is
stopped, `filter` none when the slot has no key filter. -/
structure KeyFields where
  carrier : Option Carrier
  number : Option Nat
  keyLane : Option Nat
  outputs : List Output
  evenHeld : Bool
  oddHeld : Bool
  parity : Option KeyParity
  period : Option Nat
  life : Option Nat
  filter : Option (Fin 4)
  deriving DecidableEq, Repr

/-- One slot of KEY STATUS (R82). -/
structure KeyReport where
  slot : Fin 4
  state : KeyState
  refs : Nat
  /-- Every other field; absent for an EMPTY slot. -/
  fields : Option KeyFields
  deriving DecidableEq, Repr

/-- Summary of ACCESS STATUS (R103). -/
structure AccessSummary where
  issueLocked : Bool
  cut : Bool
  packages : Nat
  events : Nat
  today : Option Int
  last : Vector (Option Seq) 5
  groupOwed : Bool
  deriving DecidableEq, Repr

/-- A present event: its id, and whether a marker determines it (R119). -/
structure PresentEvent where
  event : Nat
  byMarker : Bool
  deriving DecidableEq, Repr

/-- Summary of GUIDE QUERY (R121): `remaining` of the sweep timer while IDLE, of the limit timer otherwise. -/
structure GuideSummary where
  records : Nat
  state : SweepState
  remaining : Nat
  next : NextStart
  blocks : List (Option Nat × Bool)
  deriving DecidableEq, Repr

/-- Condition of the issue record (R104). -/
inductive IssueCondition where
  | blank | written | locked
  deriving DecidableEq, Repr

/-- What ISSUE STATUS gives of a written or locked record: the address, each group with its slot, and that a key is held (R104). -/
structure IssueReport where
  address : Nat
  groups : List (Nat × Nat)
  keyHeld : Bool
  deriving DecidableEq, Repr

/-- What CREDIT STATUS gives of the purchase in flight (R172). -/
structure FlightReport where
  seq : Seq
  room : Room
  lcn : Nat
  event : Nat
  price : Nat
  profile : Nat
  deriving DecidableEq, Repr

structure RoomLimits where
  context : RoomContext
  verdict : Option Reasons
  deriving DecidableEq, Repr

/-- Reply of LIMIT STATUS (R146). -/
structure LimitReport where
  pinSet : Bool
  count : Nat
  lockout : Option Nat
  failFlag : Bool
  owed : List LimitCommit
  profiles : List (Option Profile)
  lockList : List Nat
  roomA : RoomLimits
  roomB : RoomLimits
  minute : Option Nat
  deriving DecidableEq, Repr

/-- Reply of PURCHASE LOG (R171). -/
structure LogReport where
  records : Nat
  unreported : Nat
  nextSeq : Seq
  acked : Option Seq
  charged : Option Seq
  parity : Bool
  logAckOwed : Bool
  state : UplinkState
  failures : Nat
  quiet : Nat
  release : Bool
  pendingFlag : Bool
  mode : Recovery
  interval : Nat
  report : Option (Report × Nat)
  timers : List (Option Nat)
  page : List PurchaseRecord
  nextPosition : Option Nat
  deriving DecidableEq, Repr

/-- Reply of STORE STATUS (R190). -/
structure StoreReport where
  state : StoreState
  faultCause : Option StoreCause
  faultPage : Option PageNo
  erased : Nat
  opened : Nat
  full : Nat
  retiring : Nat
  openPage : Option PageNo
  bytesFree : Nat
  nextSerial : Nat
  writing : Option StoreKey
  urgent : Nat
  nonUrgent : Nat
  keys : List StoreKey
  run : Option Run
  suspended : Bool
  served : Nat
  eraseLeft : Option Nat
  needed : List (RecordKind × Nat × Nat)
  deriving DecidableEq, Repr

/-- Reply of CLOCK STATUS (R213). -/
structure ClockReport where
  time : Option Nat
  offset : Int
  broadcast : Int
  zone : Option Int
  localTime : Option Int
  localDay : Option Int
  localMinute : Option Nat
  today : Option Int
  dayOwed : Bool
  lastCorrection : Option Int
  wakeLead : Nat
  alarm : Option Nat
  power : Power
  wake : Bool
  causes : WakeCauses
  standbyCondition : Bool
  watchTuner : Option (Fin 4)
  hold : Option Nat
  counts : List (BookingState × Nat)
  nextDue : Option (Nat × Nat)
  deriving DecidableEq, Repr

/-- The fields of a reply, by request. -/
inductive ReplyBody where
  | none
  | channels (version : Option Nat) (entries carriers : Nat) (guide : Option Nat) (home : Option Carrier)
      (assembly : Option (Nat × Nat)) (page : List ListedChannel) (next : Option Nat)
  | channelInfo (e : ChannelEntry) (carrier : Option Carrier) (isGuide isHome : Bool)
  | tuners (l : List TunerReport) (control : Option (Fin 4)) (limit : Nat)
  | sessions (l : List SessionReport)
  | keys (l : List KeyReport)
  | packages (s : AccessSummary) (page : List (PackageGrant × Bool)) (next : Option Nat)
  | events (s : AccessSummary) (page : List EventGrant) (next : Option Nat)
  | issue (condition : IssueCondition) (fields : Option IssueReport)
  | guide (s : GuideSummary) (page : List (EventRecord × Bool)) (next : Option Nat)
  | nowNext (present : Option (PresentEvent × Option EventRecord)) (next : Option EventRecord)
      (marker : Option (Marker × Bool))
  | limits (r : LimitReport)
  | purchaseLog (r : LogReport)
  | credit (balance limit : Nat) (charged : Option Seq) (inFlight : Option FlightReport) (issueLocked cut : Bool)
  | store (r : StoreReport)
  | bookingId (id : Nat)
  | bookings (count : Nat) (page : List (Booking × Bool)) (next : Option Nat)
  | clock (r : ClockReport)
  | ping (part : Nat) (revision : Byte) (scanning : Bool) (rate : Rate)
  deriving DecidableEq, Repr

/-- A frame made for the line (R216): a reply, or a notice batch (R218). -/
inductive Frame where
  | reply (tag : Byte) (code : Code) (body : ReplyBody)
  | batch (tag : Byte) (lost : Bool) (remaining : Nat) (notices : List Notice)
  deriving DecidableEq, Repr

structure Link where
  notices : List Notice
  lost : Bool
  mode : AttnMode
  gap : Nat
  powerKey : Byte
  attn : Bool
  /-- Pulses of 50 us sent in EDGE mode since the reset. -/
  pulses : Nat
  gapTimer : Timer
  refSeconds : Nat
  cause : ResetCause
  deriving DecidableEq, Repr

/-- The link's receiver, intake and sender. -/
structure Front where
  /-- Bytes of the open frame, from its SYNC byte; empty when no frame is open. -/
  rx : List Byte
  intake : List Instr
  sent : List Frame
  /-- RESET UNIT has been answered and its reset is to be taken (R224). -/
  resetPending : Bool
  strap : Bool
  deriving DecidableEq, Repr

/-- Everything behind the link. -/
structure Core where
  dir : Directory
  arb : Arbiter
  slots : Vector Slot 16
  rooms : Rooms
  keys : Vector KeySlot 4
  access : Access
  guide : Guide
  limits : Limits
  purchase : Purchase
  uplink : Uplink
  store : Store
  clock : Clock
  link : Link
  /-- Free values drawn so far: the model's own (log 9). -/
  free : Nat
  deriving DecidableEq, Repr

/-- The whole machine: the commands waiting, the link's front, and the blocks behind it. -/
structure State where
  pending : List Instr
  front : Front
  core : Core
  deriving DecidableEq, Repr

/-- Why a step can fault: the spec names no command that stops the K460. -/
inductive Fault where
  /-- Raised by no command. Safe: no run ends in it. -/
  | unused
  deriving DecidableEq, Repr

/-- Why a step can be refused. -/
inductive Refusal where
  /-- Raised by an arm of exec that has no meaning yet. Safe: nothing is claimed about it. -/
  | notModelled (mnemonic : String)
  deriving DecidableEq, Repr

/-! ## State after reset -/

/-- What a reset leaves of each block until the loads (R221 and each chapter): all but the issue area and the pages, which it
keeps. -/
def Directory.reset : Directory :=
  { map := [], carriers := [], guideCarrier := none, version := none, home := none, asmVersion := none, asmLast := 0,
    asmArea := [], owed := [] }

/-- R16: OFF, and the off command the K460 sends at a reset has raised the count to 1; the stopped timers hold 0 (log 68). -/
def Tuner.reset : Tuner :=
  { state := .off, carrier := none, number := none, holders := .none, acq := .stopped, loss := .stopped, count := 1 }

/-- One off command to each front-end, sent in the order of the tuners (R16, log 67). -/
def Arbiter.reset : Arbiter :=
  { tuners := Vector.replicate 4 .reset, acqLimit := 800,
    line := [⟨0, 1, none⟩, ⟨1, 1, none⟩, ⟨2, 1, none⟩, ⟨3, 1, none⟩] }

def RoomContext.reset : RoomContext := { default := 0, active := 0, saved := none, grant := none }

def Rooms.reset : Rooms :=
  { sessions := Vector.replicate 4 .idle, laneMaps := Vector.replicate 4 .empty, contexts := Vector.replicate 2 .reset,
    cells := Vector.replicate 4 [] }

/-- What a reset leaves of the Grant Table: the issue record as read from its area (R83). -/
def Access.reset (issue : Issue) : Access :=
  { issue := issue, issueWrite := none, packages := [], events := [], cut := false, last := Vector.replicate 5 none,
    groupOwed := false, groupOwedCredit := false }

def BlockState.reset : BlockState := { version := none, last := none, seen := [], complete := false }

/-- R113: IDLE with 60 s on the sweep timer; the stopped limit timer has 0 left (log 68). -/
def Guide.reset : Guide :=
  { records := [], blocks := Vector.replicate 8 .reset, markers := [],
    sweep := { state := .idle, timer := { reload := 14400000, left := 60000, running := true }, limit := { reload := 120000, left := 0, running := false }, next := .fresh,
               tuner := none },
    interval := 240 }

def Limits.reset : Limits :=
  { profiles := #v[some .master, none, none, none, none, none], pin := none, count := 0, lockout := .stopped,
    failFlag := false, failWriting := false, lockList := [], minute := .stopped, owed := [] }

def Purchase.reset : Purchase :=
  { balance := 0, limit := 0, log := [], nextSeq := 1, acked := none, charged := none, inFlight := none,
    logAckOwed := false }

def Uplink.reset : Uplink :=
  { state := .idle, report := none, attempt := 0, slotRetries := 0, failures := 0, quiet := 0, release := false,
    pendingFlag := false, mode := .auto, interval := 360, parity := false, answerWait := .stopped, retry := .stopped,
    ackWait := .stopped, backoff := .stopped, quietTimer := .stopped,
    reportTimer := { reload := 21600000, left := 0, running := false }, line := [] }

def Clock.reset : Clock :=
  { time := none, broadcast := 0, zone := none, lastCorrection := none, today := none, wakeLead := 120, bookings := [],
    lastId := 0, owedBookings := [], owedDay := false, owedBeforeDay := [], power := .active, wake := false,
    causes := ⟨false, false, false⟩, alarm := none, hold := .stopped }

/-- The store while SCANNING, over the pages it keeps (R176, R182, R184). -/
def Store.reset (pages : Vector Page 128) : Store :=
  { pages := pages, nextPageSerial := 1, lastOpened := none, nextSerial := 1, state := .scanning, queue := [], job := none,
    activity := .none, run := none, suspended := false, served := 0, eraseLeft := none, faultCause := none,
    faultPage := none, wipeFailed := false, banks := [], whole := [], floor := 0 }

def Link.reset (cause : ResetCause) : Link :=
  { notices := [], lost := false, mode := .level, gap := 4, powerKey := 0x0C#8, attn := false, pulses := 0,
    gapTimer := .stopped, refSeconds := 0, cause := cause }

def Front.reset (strap : Bool) : Front :=
  { rx := [], intake := [], sent := [], resetPending := false, strap := strap }

/-- The blocks after a reset over what is kept: the issue record and the pages. -/
def Core.reset (issue : Issue) (pages : Vector Page 128) (cause : ResetCause) (free : Nat) : Core :=
  { dir := .reset, arb := .reset, slots := Vector.replicate 16 .closed, rooms := .reset, keys := Vector.replicate 4 .empty,
    access := .reset issue, guide := .reset, limits := .reset, purchase := .reset, uplink := .reset, store := .reset pages,
    clock := .reset, link := .reset cause, free := free }

/-- A new part right after power is applied: the start-up scan runs. The strap level is the model's choice (log 6). -/
def State.reset : State :=
  { pending := [], front := .reset false, core := .reset .blank (Vector.replicate 128 .blank) .powerOn 0 }

end Sys2Proof.Machine
end

