-- ==== Sys2Proof/Machine/Ops.lean ====
section
/-! DEFINITION. The named operations every block uses: reading and writing its numbered records, timers, notices and ATTN,
offering a commit, and handling a request frame. -/

namespace Sys2Proof.Machine

open Sys2Proof

/-! ## Numbered records -/

def Output.idx : Output → Fin 4
  | .roomA => 0
  | .roomB => 1
  | .record1 => 2
  | .record2 => 3

def Room.idx : Room → Fin 2
  | .a => 0
  | .b => 1

def Room.output : Room → Output
  | .a => .roomA
  | .b => .roomB

/-- The room of a room output. -/
def Output.room : Output → Option Room
  | .roomA => some .a
  | .roomB => some .b
  | .record1 | .record2 => none

def allOutputs : List Output := [.roomA, .roomB, .record1, .record2]
def allTuners : List (Fin 4) := [0, 1, 2, 3]
def allRooms : List Room := [.a, .b]
def allSlots : List (Fin 16) := [0, 1, 2, 3, 4, 5, 6, 7, 8, 9, 10, 11, 12, 13, 14, 15]
def allBlocks : List (Fin 8) := [0, 1, 2, 3, 4, 5, 6, 7]
def allPages : List PageNo := List.finRange 128

/-- Replaces entry `i`. -/
def putAt {α : Type} {n : Nat} (v : Vector α n) (i : Fin n) (x : α) : Vector α n := v.set i.val x i.isLt

def session (c : Core) (o : Output) : Session := c.rooms.sessions.get (Output.idx o)
def setSession (o : Output) (x : Session) (c : Core) : Core :=
  { c with rooms := { c.rooms with sessions := putAt c.rooms.sessions (Output.idx o) x } }

def laneMap (c : Core) (t : Fin 4) : LaneMap := c.rooms.laneMaps.get t
def setLaneMap (t : Fin 4) (x : LaneMap) (c : Core) : Core :=
  { c with rooms := { c.rooms with laneMaps := putAt c.rooms.laneMaps t x } }

def context (c : Core) (r : Room) : RoomContext := c.rooms.contexts.get (Room.idx r)
def setContext (r : Room) (x : RoomContext) (c : Core) : Core :=
  { c with rooms := { c.rooms with contexts := putAt c.rooms.contexts (Room.idx r) x } }

def tuner (c : Core) (t : Fin 4) : Tuner := c.arb.tuners.get t
def setTuner (t : Fin 4) (x : Tuner) (c : Core) : Core :=
  { c with arb := { c.arb with tuners := putAt c.arb.tuners t x } }

def slot (c : Core) (i : Fin 16) : Slot := c.slots.get i
def setSlot (i : Fin 16) (x : Slot) (c : Core) : Core := { c with slots := putAt c.slots i x }

def keySlot (c : Core) (k : Fin 4) : KeySlot := c.keys.get k
def setKeySlot (k : Fin 4) (x : KeySlot) (c : Core) : Core := { c with keys := putAt c.keys k x }

def page (st : Store) (p : PageNo) : Page := st.pages.get p
def setPage (p : PageNo) (x : Page) (st : Store) : Store := { st with pages := putAt st.pages p x }

/-- Inserts an entry behind those it does not come before: keeps a list in an order. -/
def insertBy {α : Type} (before : α → α → Bool) (x : α) : List α → List α
  | [] => [x]
  | y :: ys => if before x y then x :: y :: ys else y :: insertBy before x ys

/-! ## Timers (R196) -/

def Timer.start (ms : Nat) : Timer := { reload := ms, left := ms, running := true }
def Timer.stop (t : Timer) : Timer := { t with running := false }
/-- The timer as its expiry leaves it. -/
def Timer.expired (t : Timer) : Timer := { t with left := 0, running := false }
/-- One reference second of a running timer (log 8). -/
def Timer.second (t : Timer) : Timer := if t.running then { t with left := t.left - 1000 } else t
/-- The remaining time of a running timer. -/
def Timer.remaining (t : Timer) : Option Nat := if t.running then some t.left else none

/-! ## Free values -/

/-- Draws the next free value of an erase's remaining time (log 9). -/
def drawErase (c : Core) : Nat × Core := ((Config.eraseTime c.free).val, { c with free := c.free + 1 })

/-! ## Notices and ATTN (R217, R219) -/

/-- A notice joins the queue, or is discarded with the lost flag set (R217); ATTN follows (R219). -/
def Link.join (l : Link) (n : Notice) : Link :=
  if l.notices.length < 32 then
    let l' := { l with notices := l.notices ++ [n] }
    match l.mode with
    | .level => { l' with attn := true }
    | .edge => if l.notices.isEmpty then { l' with pulses := l.pulses + 1 } else l'
  else { l with lost := true }

/-- The clock stamp of a notice posted now (R217). -/
def stamped (c : Core) (b : NoticeBody) : Notice :=
  match c.clock.time with
  | some t => { network := true, stamp := t, body := b }
  | none => { network := false, stamp := c.link.refSeconds, body := b }

def post (b : NoticeBody) (c : Core) : Core := { c with link := c.link.join (stamped c b) }

/-! ## The commit queue (R175, R177, R178) -/

/-- Urgency by kind (Table 9.1-1). -/
def RecordKind.urgent : RecordKind → Bool
  | .credit | .purchase | .logAck | .pin => true
  | _ => false

/-- An item of one record. -/
def Item.single (kind : RecordKind) (index : Nat) (body : RecordBody) : Item :=
  { key := ⟨kind, index⟩, records := [(⟨kind, index⟩, body)], urgent := kind.urgent }

/-- Behind the last urgent item. -/
def insertUrgent (q : List Item) (it : Item) : List Item :=
  q.takeWhile (·.urgent) ++ it :: q.dropWhile (·.urgent)

/-- The queue after an offer, with whether an urgent item joined or a waiting item became urgent; `none` when it is full (R177). -/
def enqueue (q : List Item) (it : Item) : Option (List Item × Bool) :=
  match q.find? (fun x => x.key == it.key) with
  | some old =>
    if it.urgent && !old.urgent then some (insertUrgent (q.filter (fun x => x.key != it.key)) it, true)
    else some (q.map (fun x => if x.key == it.key then { it with urgent := old.urgent } else x), false)
  | none =>
    if q.length < 16 then some (if it.urgent then insertUrgent q it else q ++ [it], it.urgent) else none

/-- The five answers of R178. -/
inductive OfferAnswer where
  | taken | queueFull | duringWipe | storeFull | storeFault
  deriving DecidableEq, Repr

/-- The reply that follows the queue's answer (table of R15). -/
def OfferAnswer.code : OfferAnswer → Code
  | .taken => .ok
  | .queueFull | .duringWipe => .busy
  | .storeFull => .storeFull
  | .storeFault => .storeFault

/-- The commit queue's answer by the store's state, where it takes none (R178). -/
def StoreState.turnsAway : StoreState → Option OfferAnswer
  | .scanning | .wiping => some .duringWipe
  | .storeFull => some .storeFull
  | .fault => some .storeFault
  | _ => none

/-- An erase running unsuspended is suspended with its remaining time kept (R184). -/
def suspendErase (c : Core) : Core :=
  if c.store.state = .erasing ∧ c.store.suspended = false then
    let (d, c) := drawErase c
    { c with store := { c.store with
        state := .eraseSuspended, activity := .none, suspended := true, served := 0,
        eraseLeft := some (match c.store.eraseLeft with | some x => min x d | none => d) } }
  else c

/-- A commit is offered to the store (R178). -/
def offer (it : Item) (c : Core) : OfferAnswer × Core :=
  match c.store.state.turnsAway with
  | some a => (a, c)
  | none =>
    match enqueue c.store.queue it with
    | none => (.queueFull, c)
    | some (q, urgentArrived) =>
      let c := { c with store := { c.store with queue := q } }
      (.taken, if urgentArrived then suspendErase c else c)

/-! ## Requests (R214, R215, R216) -/

/-- What a request's rule answers: a code and, for OK and ACCEPTED, its fields. -/
structure Answer where
  code : Code
  body : ReplyBody
  deriving DecidableEq, Repr

def Answer.bare (code : Code) : Answer := { code := code, body := .none }

/-- A setting whose reply follows the queue's answer: the change is made when the commit is taken (table of R15). -/
def settle (it : Item) (change : Core → Core) (c : Core) : Answer × Core :=
  match offer it c with
  | (.taken, c) => (.bare .ok, change c)
  | (a, c) => (.bare a.code, c)

def send (f : Frame) (s : State) : State := { s with front := { s.front with sent := s.front.sent ++ [f] } }

/-- A request frame is offered to the intake (R215). -/
def offerFrame (i : Instr) (tag : Byte) (s : State) : State :=
  if s.front.intake.length < 4 then { s with front := { s.front with intake := s.front.intake ++ [i] } }
  else send (.reply tag .busy .none) s

/-- Whether a request command is the request to be handled now: the intake is empty, so the frame that arrives is handled at
once, or it is the head and nothing holds the head back (log 2). -/
def isHandledNow (i : Instr) (s : State) : Bool :=
  !s.front.resetPending &&
    (s.front.intake.isEmpty || (s.front.intake.head? == some i && s.core.access.issueWrite.isNone))

/-- The intake as a request is begun: it is the head. -/
def withHead (i : Instr) (s : State) : State :=
  if s.front.intake.isEmpty then { s with front := { s.front with intake := [i] } } else s

/-- The head leaves the intake when its reply has been made. -/
def replyHead (f : Frame) (s : State) : State :=
  send f { s with front := { s.front with intake := s.front.intake.tail } }

/-- A request command: handled now by `h`, or arriving behind others (R215). -/
def request (i : Instr) (tag : Byte) (h : State → State) (s : State) : State :=
  if isHandledNow i s then h (withHead i s) else offerFrame i tag s

/-- During the start-up scan a request other than PING is answered BUSY (R221). -/
def unlessScanning (tag : Byte) (h : State → State) (s : State) : State :=
  if s.core.store.state = .scanning then replyHead (.reply tag .busy .none) s else h s

/-- A request answered in the event in which it is begun. -/
def answered (i : Instr) (tag : Byte) (h : Core → Answer × Core) : State → State :=
  request i tag (unlessScanning tag fun s =>
    let (a, c) := h s.core
    replyHead (.reply tag a.code a.body) { s with core := c })

/-- A request with fields: a body that does not fit them is BAD_REQUEST (R214). -/
def answeredWith {α : Type} (i : Instr) (tag : Byte) (a : Option α) (h : α → Core → Answer × Core) : State → State :=
  answered i tag fun c =>
    match a with
    | none => (.bare .badRequest, c)
    | some x => h x c

/-- A request that reads state and changes nothing. -/
def readOnly (f : Core → Answer) (c : Core) : Answer × Core := (f c, c)

/-- A command that acts on the blocks behind the link only. -/
def onCore (f : Core → Core) (s : State) : State := { s with core := f s.core }

end Sys2Proof.Machine
end

