-- ==== Sys2Proof/Machine/Operands.lean ====
section
/-! DEFINITION. The layouts on the lines (section 11.7): the check, request bodies, cell headers, segment headers, the modem's
answers and uplink reports; and the values of result codes and notice kinds. -/

namespace Sys2Proof.Machine

open Sys2Proof

/-! ## The 16-bit check (R214) -/

def crcShift (c : BitVec 16) : BitVec 16 := if c.msb then (c <<< 1) ^^^ 0x1021#16 else c <<< 1

def crcByte (c : BitVec 16) (b : Byte) : BitVec 16 :=
  let c := c ^^^ (b.setWidth 16 <<< 8)
  crcShift (crcShift (crcShift (crcShift (crcShift (crcShift (crcShift (crcShift c)))))))

/-- Polynomial 1021h from FFFFh, most significant bit first. -/
def crc (bs : List Byte) : BitVec 16 := bs.foldl crcByte 0xFFFF#16

/-- The big-endian number of some bytes. -/
def number (bs : List Byte) : Nat := bs.foldl (fun n b => n * 256 + b.toNat) 0

/-- The `n` bytes of a number, most significant first. -/
def bytesOf : Nat → Nat → List Byte
  | 0, _ => []
  | n + 1, x => BitVec.ofNat 8 (x / 256 ^ n) :: bytesOf n x

/-- Whether the last two of `bs` are the check of the bytes before them. -/
def checkHolds (bs : List Byte) : Bool :=
  number (bs.drop (bs.length - 2)) == (crc (bs.take (bs.length - 2))).toNat

/-! ## Request bodies (Tables 11.7-7 and 11.7-8) -/

/-- Takes a field from the front of a body, or fails where the body is too short or does not encode one. -/
abbrev Reader := StateT (List Byte) Option

def u8 : Reader Nat := fun
  | b :: t => some (b.toNat, t)
  | [] => none

def u16 : Reader Nat := do
  let a ← u8
  let b ← u8
  pure (a * 256 + b)

def u32 : Reader Nat := do
  let a ← u16
  let b ← u16
  pure (a * 65536 + b)

/-- A local offset, in two's complement. -/
def i16 : Reader Int := do
  let x ← u16
  pure (if x < 32768 then (x : Int) else (x : Int) - 65536)

/-- A flag or presence byte: 00h or 01h. -/
def flag : Reader Bool := do
  let x ← u8
  match x with
  | 0 => pure false
  | 1 => pure true
  | _ => failure

/-- A field with a presence byte. -/
def present {α : Type} (p : Reader α) : Reader (Option α) := do
  let f ← flag
  if f then
    let x ← p
    pure (some x)
  else pure none

def repeated {α : Type} (p : Reader α) : Nat → Reader (List α)
  | 0 => pure []
  | n + 1 => do
    let x ← p
    let xs ← repeated p n
    pure (x :: xs)

/-- A list: a count, then the entries. -/
def listOf {α : Type} (p : Reader α) : Reader (List α) := do
  let n ← u8
  repeated p n

def byte : Reader Byte := fun
  | b :: t => some (b, t)
  | [] => none

/-- A PIN: a digit count of 0 to 8, then the digits; a count of 0 carries none. -/
def pinField : Reader (Option Pin) := do
  let n ← u8
  if n = 0 then pure none
  else if n ≤ 8 then do
    let ds ← repeated byte n
    pure (some ds)
  else failure

/-- Every byte that is left. -/
def restOf : Reader (List Byte) := fun l => some (l, [])

/-- The fields of a whole body: `none` when it does not fit them. -/
def whole {α : Type} (p : Reader α) (body : List Byte) : Option α :=
  match p body with
  | some (x, []) => some x
  | _ => none

def noFields : Reader Unit := pure ()

def carrierField : Reader CarrierReq := do
  let f ← u32
  let s ← u8
  pure ⟨f, s⟩

def windowField : Reader Window := do
  let a ← u16
  let b ← u16
  pure ⟨a, b⟩

def profileFields : Reader ProfileFields := do
  let c ← u8
  let a ← u16
  let w ← listOf windowField
  let p ← u32
  pure ⟨c, a, w, p⟩

/-- SET PROFILE: the profile, the action, the fields of a SET, the PIN (log 28). -/
def setProfileFields : Reader SetProfileReq := do
  let p ← u8
  let action ← u8
  match action with
  | 0 => do
    let f ← profileFields
    let pin ← pinField
    pure ⟨p, some f, pin⟩
  | 1 => do
    let pin ← pinField
    pure ⟨p, none, pin⟩
  | _ => failure

def targetField : Reader PurchaseTarget := do
  let f ← flag
  if f then
    let l ← u16
    let e ← u16
    pure (.event l e)
  else pure .present

/-- ADD BOOKING: the event id, start and end each behind a presence byte (log 28). -/
def bookingFields : Reader AddBookingReq := do
  let kind ← u8
  let lcn ← u16
  let event ← present u16
  let start ← present u32
  let finish ← present u32
  match kind with
  | 0 => do
    let lead ← u16
    pure ⟨kind, lcn, event, start, finish, lead, 0, false⟩
  | 1 => do
    let output ← u8
    let takes ← flag
    pure ⟨kind, lcn, event, start, finish, 0, output, takes⟩
  | _ => pure ⟨kind, lcn, event, start, finish, 0, 0, false⟩

def pair {α β : Type} (p : Reader α) (q : Reader β) : Reader (α × β) := do
  let a ← p
  let b ← q
  pure (a, b)

/-- The request command of a request frame, `none` when its number names no request (Table 11.7-7). -/
def requestOf (num : Nat) (t : Byte) (body : List Byte) : Option Instr :=
  match num with
  | 0x0101 => some (.listChannels t (whole (do let a ← u16; let b ← flag; pure ⟨a, b⟩) body))
  | 0x0102 => some (.channelInfo t (whole u16 body))
  | 0x0103 => some (.setHomeCarrier t (whole (present carrierField) body))
  | 0x0201 => some (.setTuning t (whole u16 body))
  | 0x0202 => some (.tunerStatus t (whole noFields body))
  | 0x0301 => some (.selectChannel t (whole (do let a ← u8; let b ← u16; pure ⟨a, b⟩) body))
  | 0x0302 => some (.stopOutput t (whole u8 body))
  | 0x0303 => some (.sessionStatus t (whole (present u8) body))
  | 0x0401 => some (.keyStatus t (whole (present u8) body))
  | 0x0501 => some (.issue t (whole (do let a ← u32; let g ← listOf u16; let k ← restOf; pure ⟨a, g, k⟩) body))
  | 0x0502 => some (.lockIssue t (whole noFields body))
  | 0x0503 => some (.accessStatus t (whole (do let a ← u8; let b ← u16; pure ⟨a, b⟩) body))
  | 0x0504 => some (.issueStatus t (whole noFields body))
  | 0x0601 => some (.guideQuery t (whole (do let a ← u16; let b ← u32; pure ⟨a, b⟩) body))
  | 0x0602 => some (.nowNext t (whole u16 body))
  | 0x0603 => some (.refreshGuide t (whole (present u16) body))
  | 0x0701 => some (.unlockRoom t (whole (do let r ← u8; let p ← pinField; pure ⟨r, p⟩) body))
  | 0x0702 => some (.relockRoom t (whole u8 body))
  | 0x0703 => some (.relockAll t (whole noFields body))
  | 0x0704 => some (.switchProfile t (whole (do let r ← u8; let q ← u8; let p ← pinField; pure ⟨r, q, p⟩) body))
  | 0x0705 => some (.returnProfile t (whole u8 body))
  | 0x0706 => some (.setRoomDefault t (whole (do let r ← u8; let q ← u8; let p ← pinField; pure ⟨r, q, p⟩) body))
  | 0x0707 => some (.setProfile t (whole setProfileFields body))
  | 0x0708 => some (.setPin t (whole (do let a ← pinField; let b ← pinField; pure ⟨a, b⟩) body))
  | 0x0709 => some (.lockChannel t (whole (do let l ← u16; let p ← pinField; pure ⟨l, p⟩) body))
  | 0x070A => some (.unlockChannel t (whole (do let l ← u16; let p ← pinField; pure ⟨l, p⟩) body))
  | 0x070B => some (.limitStatus t (whole noFields body))
  | 0x0801 => some (.purchase t (whole (do let r ← u8; let g ← targetField; let p ← pinField; pure ⟨r, g, p⟩) body))
  | 0x0802 => some (.uplinkNow t (whole noFields body))
  | 0x0803 => some (.uplinkRelease t (whole noFields body))
  | 0x0804 => some (.setUplink t (whole (do let a ← u8; let b ← u16; pure ⟨a, b⟩) body))
  | 0x0805 => some (.purchaseLog t (whole u16 body))
  | 0x0806 => some (.creditStatus t (whole noFields body))
  | 0x0901 => some (.wipeAccount t (whole pinField body))
  | 0x0902 => some (.storeStatus t (whole noFields body))
  | 0x0A01 => some (.addBooking t (whole bookingFields body))
  | 0x0A02 => some (.dropBooking t (whole u8 body))
  | 0x0A03 => some (.listBookings t (whole u16 body))
  | 0x0A04 => some (.standby t (whole noFields body))
  | 0x0A05 => some (.resume t (whole noFields body))
  | 0x0A06 => some (.wakeAt t (whole (do let a ← present u32; let l ← present u16; pure ⟨a, l⟩) body))
  | 0x0A07 => some (.setZone t (whole (present i16) body))
  | 0x0A08 => some (.clockStatus t (whole noFields body))
  | 0x0B01 => some (.takeNotices t (whole noFields body))
  | 0x0B02 => some (.ping t (whole noFields body))
  | 0x0B03 => some (.setAttention t (whole (do let a ← u8; let b ← u8; pure ⟨a, b⟩) body))
  | 0x0B04 => some (.setKeys t (whole u8 body))
  | 0x0B05 => some (.resetUnit t (whole noFields body))
  | _ => none

/-! ## Frames from the host (Table 11.7-1) -/

/-- How a whole frame is judged (R214). -/
inductive Judgement where
  | badFrame
  | unknown (tag : Byte)
  | request (tag : Byte) (i : Instr)
  deriving DecidableEq, Repr

/-- The judgement of a frame whose last check byte has arrived; `bs` are its bytes from the kind on. -/
def judge (bs : List Byte) : Judgement :=
  if checkHolds bs then
    match bs with
    | kind :: tag :: len :: rest =>
      let body := rest.take len.toNat
      if kind != 0x01#8 || tag == 0x00#8 || body.length < 2 then .unknown tag
      else
        match requestOf (number (body.take 2)) tag (body.drop 2) with
        | some i => .request tag i
        | none => .unknown tag
    | _ => .badFrame
  else .badFrame

/-! ## Cells and segments (Tables 11.7-4 and 11.7-5) -/

structure CellHeader where
  lane : Nat
  parity : Parity
  unitStart : Bool
  count : BitVec 4
  deriving DecidableEq, Repr

def parityOf (c : BitVec 2) : Parity :=
  if c = 0 then .clear else if c = 1 then .even else if c = 2 then .odd else .reserved

def cellHeader (h : BitVec 32) : CellHeader :=
  { lane := (h.extractLsb 31 20).toNat, parity := parityOf (h.extractLsb 19 18), unitStart := h.getLsbD 17,
    count := h.extractLsb 15 12 }

structure SegmentHeader where
  kind : Nat
  version : Nat
  length : Nat
  number : Nat
  last : Nat
  block : Nat
  deriving DecidableEq, Repr

/-- The byte at a place, 0 beyond the end. -/
def byteAt (bs : List Byte) (i : Nat) : Byte := bs.getD i 0

def segmentHeader (bs : List Byte) : SegmentHeader :=
  { kind := (byteAt bs 0).toNat, version := ((byteAt bs 1).extractLsb 7 3).toNat,
    length := ((byteAt bs 1).extractLsb 1 0).toNat * 256 + (byteAt bs 2).toNat,
    number := ((byteAt bs 3).extractLsb 5 0).toNat, last := ((byteAt bs 4).extractLsb 5 0).toNat,
    block := (byteAt bs 5).toNat }

/-- The table kind a consumer takes (R33, Table 11.7-5). -/
def Consumer.tableKind : Consumer → Nat
  | .directory => 0x01
  | .time => 0x02
  | .grants => 0x03
  | .laneMap => 0x04
  | .presentNext => 0x05
  | .schedule => 0x10
  | .keys => 0x20

/-! ## The uplink line (Table 11.7-6) -/

/-- The modem's answers (section 11.7). -/
inductive ModemAnswer where
  | sent | noSlot | noCarrier | rejected
  deriving DecidableEq, Repr

def modemAnswerOf (b : Byte) : Option ModemAnswer :=
  if b = 0x01#8 then some .sent
  else if b = 0x02#8 then some .noSlot
  else if b = 0x03#8 then some .noCarrier
  else if b = 0x04#8 then some .rejected
  else none

def reportRecord (r : PurchaseRecord) : List Byte :=
  bytesOf 2 r.seq.toNat ++ bytesOf 2 r.lcn ++ bytesOf 2 r.event ++ bytesOf 4 r.price ++ bytesOf 4 r.time
    ++ bytesOf 1 r.profile

def reportBytes (address : Nat) (parity : Bool) (attempt : Byte) (rs : List PurchaseRecord) : List Byte :=
  let bs := bytesOf 4 address ++ [if parity then 1 else 0, attempt] ++ bytesOf 1 rs.length ++ rs.flatMap reportRecord
  bs ++ bytesOf 2 (crc bs).toNat

/-! ## Values of codes and kinds (Tables 11.2-1 and 11.7-3) -/

def Code.value : Code → Nat
  | .ok => 0x00 | .accepted => 0x01 | .badFrame => 0x02 | .unknown => 0x03 | .badRequest => 0x04 | .busy => 0x05
  | .noSuch => 0x06 | .noTuner => 0x07 | .booked => 0x08 | .standby => 0x09 | .pinWrong => 0x0A | .pinLockedOut => 0x0B
  | .notIssued => 0x0C | .issueLocked => 0x0D | .cut => 0x0E | .already => 0x0F | .tooLate => 0x10 | .noCredit => 0x11
  | .logFull => 0x12 | .noRoom => 0x13 | .storeFull => 0x14 | .storeFault => 0x15 | .full => 0x16 | .conflict => 0x17
  | .notSwitched => 0x18 | .notSilent => 0x19

def NoticeBody.kindValue : NoticeBody → Nat
  | .ready .. => 0x01 | .changeDone .. => 0x02 | .sessionState .. => 0x03 | .channelMoved .. => 0x04
  | .channelsChanged .. => 0x05 | .signalLost .. => 0x06 | .keyStale .. => 0x07 | .grantsChanged .. => 0x08
  | .eventChanged .. => 0x09 | .guideReady .. => 0x0A | .pinLockout .. => 0x0B | .allowanceLow .. => 0x0C
  | .purchaseDone .. => 0x0D | .purchaseOffer .. => 0x0E | .uplinkState .. => 0x0F | .storeState .. => 0x10
  | .clockSet .. => 0x11 | .bookingDue .. => 0x12 | .bookingState .. => 0x13 | .keypress .. => 0x14

/-! ## Frames from the K460 (Tables 11.7-1 and 11.7-2, R216 to R218) -/

/-- The bytes of a reply's fields; the spec gives no widths for them (log 27). -/
opaque Config.replyFields : ReplyBody → List Byte

/-- The bytes of a notice's fields, 0 to 32 of them; the spec gives no widths for them (log 27). -/
opaque Config.noticeFields : NoticeBody → List Byte

/-- A notice record (Table 11.7-2). -/
def Notice.bytes (n : Notice) : List Byte :=
  let fields := (Config.noticeFields n.body).take 32
  bytesOf 1 n.body.kindValue ++ [if n.network then 1 else 0] ++ bytesOf 4 n.stamp ++ bytesOf 1 fields.length ++ fields

/-- The body of a frame: the result code first; a reply of no fields is its code alone. -/
def Frame.body : Frame → List Byte
  | .reply _ code .none => bytesOf 1 code.value
  | .reply _ code b => bytesOf 1 code.value ++ (Config.replyFields b).take 239
  | .batch _ lost remaining ns =>
    bytesOf 1 Code.ok.value ++ [if lost then 1 else 0] ++ bytesOf 1 remaining ++ bytesOf 1 ns.length ++ ns.flatMap Notice.bytes

def Frame.kindValue : Frame → Nat
  | .reply .. => 0x02
  | .batch .. => 0x03

/-- The tag of the frame it answers, or 0 for BAD_FRAME (R216). -/
def Frame.tag : Frame → Byte
  | .reply t _ _ => t
  | .batch t _ _ _ => t

/-- A frame on the line (Table 11.7-1). -/
def Frame.bytes (f : Frame) : List Byte :=
  let bs := bytesOf 1 f.kindValue ++ [f.tag] ++ bytesOf 1 f.body.length ++ f.body
  0xA5#8 :: bs ++ bytesOf 2 (crc bs).toNat

/-- What the K460 has put on the line since the reset: each frame whole, in the order in which they were made (R216). -/
def lineBytes (s : State) : List Byte := s.front.sent.flatMap Frame.bytes

end Sys2Proof.Machine
end

