-- ==== Sys2Proof/Machine/Flags.lean ====
section
/-! DEFINITION. What one block reads from another at any moment: channel and carrier lookups, local time, the present event, the
access verdict, the limit verdict, the verdict set, and the conditions on tuners. -/

namespace Sys2Proof.Machine

open Sys2Proof

/-! ## Lookups (R1, R2, R5) -/

def findChannel (c : Core) (lcn : Nat) : Option ChannelEntry := c.dir.map.find? (·.lcn == lcn)

def resolveIn (l : List CarrierEntry) (n : Nat) : Option Carrier := (l.find? (·.number == n)).map (·.carrier)

/-- A carrier number resolved through the list in force (R1). -/
def resolve (c : Core) (n : Nat) : Option Carrier := resolveIn c.dir.carriers n

/-- The number the list in force gives a carrier, or none; of two entries of one carrier, the lowest number (R3, R16, log 55). -/
def numberOf (c : Core) (x : Carrier) : Option Nat := (c.dir.carriers.find? (·.carrier == x)).map (·.number)

/-- The carrier the map in force puts a channel on. -/
def channelCarrier (c : Core) (lcn : Nat) : Option Carrier := (findChannel c lcn).bind fun e => resolve c e.carrierNo

def guideCarrier (c : Core) : Option Carrier := c.dir.guideCarrier.bind (resolve c)

/-! ## Local time (00 Conventions, R191) -/

/-- The offset in force, in minutes. -/
def offsetInForce (k : Clock) : Int := k.zone.getD k.broadcast

def localTime (k : Clock) : Option Int := k.time.map fun t => (t : Int) + offsetInForce k * 60
def localDay (k : Clock) : Option Int := (localTime k).map fun t => Int.fdiv t 86400
def localMinute (k : Clock) : Option Nat := (localTime k).map fun t => (Int.fmod t 86400 / 60).toNat

/-! ## The present event (R118, R119) -/

def EventRecord.finish (r : EventRecord) : Nat := r.start + r.duration * 60

def markerOf (c : Core) (lcn : Nat) : Option Marker := c.guide.markers.find? (·.lcn == lcn)

/-- A marker is in use while the map puts its LCN on its carrier. -/
def markerInUse (c : Core) (m : Marker) : Bool := channelCarrier c m.lcn == some m.carrier

def findRecord (c : Core) (lcn event : Nat) : Option EventRecord :=
  c.guide.records.find? fun r => r.lcn == lcn && r.event == event

/-- The record of a channel whose span contains a network time. -/
def recordAt (c : Core) (lcn now : Nat) : Option EventRecord :=
  c.guide.records.find? fun r => r.lcn == lcn && r.start ≤ now && now < r.finish

/-- The channel's marker, when it is in use. -/
def usedMarker (c : Core) (lcn : Nat) : Option Marker := (markerOf c lcn).filter (markerInUse c)

def presentEvent (c : Core) (lcn : Nat) : Option PresentEvent :=
  match usedMarker c lcn with
  | some m => some { event := m.event, byMarker := true }
  | none =>
    match c.clock.time with
    | some t => (recordAt c lcn t).map fun r => { event := r.event, byMarker := false }
    | none => none

/-! ## The access verdict (R87, R97, R98) -/

def Issue.isLocked : Issue → Bool
  | .locked _ => true
  | _ => false

def Issue.fields : Issue → Option IssueFields
  | .blank => none
  | .written f | .locked f => some f

def PackageGrant.validOn (g : PackageGrant) (day : Int) : Bool := (g.first : Int) ≤ day && day ≤ (g.last : Int)

/-- Whether some of the packages has a grant valid today; today may be absent (R98). -/
def packageGranted (c : Core) (ids : List Nat) : Bool :=
  match c.clock.today with
  | none => false
  | some d => c.access.packages.any fun g => ids.contains g.id && g.validOn d

def eventGranted (c : Core) (lcn event : Nat) : Bool :=
  c.access.events.any fun g => g.lcn == lcn && g.event == event

/-- GRANTED, by the channel's kind (R97). -/
def accessGranted (c : Core) (lcn : Nat) (event : Option Nat) : Bool :=
  match findChannel c lcn with
  | none => false
  | some e =>
    match e.kind with
    | .free => true
    | .subscribed => c.access.issue.isLocked && !c.access.cut && packageGranted c e.packages
    | .eventPaid =>
      c.access.issue.isLocked && !c.access.cut &&
        (match event with
         | some id => eventGranted c lcn id
         | none => false)

/-! ## The limit verdict (R130, R132) -/

/-- Whether a room's unlock grant covers a channel with its present event (R132). -/
def UnlockGrant.covers (g : UnlockGrant) (lcn : Nat) (event : Option Nat) : Bool :=
  g.lcn == lcn && (g.event.isNone || g.event == event)

def grantCovers (x : RoomContext) (lcn : Nat) (event : Option Nat) : Bool :=
  match x.grant with
  | some g => g.covers lcn event
  | none => false

/-- The rating in force; 0 when neither a record nor the channel is known (log 35). -/
def ratingInForce (c : Core) (lcn : Nat) (event : Option Nat) : Nat :=
  match event.bind (findRecord c lcn) with
  | some r => r.rating
  | none => ((findChannel c lcn).map (·.baseRating)).getD 0

def Window.has (w : Window) (m : Nat) : Bool := w.start ≤ m && m < w.stop

def profileOf (c : Core) (n : Nat) : Option Profile := (c.limits.profiles[n]?).bind id

/-- The profile active in a room. -/
def activeProfile (c : Core) (r : Room) : Profile := (profileOf c (context c r).active).getD .master

def outsideWindows (c : Core) (p : Profile) : Bool :=
  !p.windows.isEmpty &&
    (match localMinute c.clock with
     | some m => !(p.windows.any fun w => Window.has w m)
     | none => true)

def allowanceSpent (p : Profile) : Bool := p.used == p.allowance && p.allowance < 1440

/-- The limit verdict of a room for a channel and present event (R130). -/
def limitVerdict (c : Core) (r : Room) (lcn : Nat) (event : Option Nat) : Reasons :=
  let p := activeProfile c r
  let covered := grantCovers (context c r) lcn event
  { Reasons.none with
    rating := p.ceiling < ratingInForce c lcn event && !covered
    channelLocked := c.limits.lockList.contains lcn && !covered
    window := outsideWindows c p
    allowance := allowanceSpent p }

/-! ## The verdict set (R39) -/

/-- Whether the key gives NO_KEY; a WAITING slot is not counted in CHECKING. -/
def keyMissing (c : Core) (s : Session) : Bool :=
  match s.service with
  | none => false
  | some e =>
    e.keyLane != 0 &&
      (match s.slot with
       | none => true
       | some k =>
         match (keySlot c k).state with
         | .waiting => s.state != .checking
         | .missing | .denied | .empty => true
         | .ready | .stale => false)

def Reasons.isEmpty (r : Reasons) : Bool := r == Reasons.none

def Reasons.terminal (r : Reasons) : Bool := r.tunerTaken || r.noService

/-- The verdict set of a session (R39). -/
def verdictSet (c : Core) (o : Output) : Reasons :=
  let s := session c o
  match s.lcn with
  | none => .none
  | some lcn =>
    let lim := match Output.room o with
      | some r => limitVerdict c r lcn s.event
      | none => .none
    { lim with noGrant := !accessGranted c lcn s.event, noKey := keyMissing c s }

/-! ## Tuners and standby watch (R4, R16, R36, R209) -/

def Holders.has (h : Holders) : Claimant → Bool
  | .out .roomA => h.roomA
  | .out .roomB => h.roomB
  | .out .record1 => h.record1
  | .out .record2 => h.record2
  | .sweep => h.sweep
  | .watch => h.watch

def Holders.put (h : Holders) (x : Claimant) (b : Bool) : Holders :=
  match x with
  | .out .roomA => { h with roomA := b }
  | .out .roomB => { h with roomB := b }
  | .out .record1 => { h with record1 := b }
  | .out .record2 => { h with record2 := b }
  | .sweep => { h with sweep := b }
  | .watch => { h with watch := b }

def allClaimants : List Claimant := [.out .roomA, .out .roomB, .out .record1, .out .record2, .sweep, .watch]

def Holders.isEmpty (h : Holders) : Bool := h == Holders.none

/-- Whether a claimant other than standby watch holds the tuner. -/
def Holders.hasOther (h : Holders) : Bool := h.put .watch false != Holders.none

def Holders.only (h : Holders) (x : Claimant) : Bool := h == Holders.none.put x true

/-- The tuner a claimant holds. -/
def heldTuner (c : Core) (x : Claimant) : Option (Fin 4) := allTuners.find? fun t => (tuner c t).holders.has x

/-- The tuner that is not OFF on a carrier (R22). -/
def tunerOn (c : Core) (x : Carrier) : Option (Fin 4) :=
  allTuners.find? fun t => (tuner c t).state != .off && (tuner c t).carrier == some x

/-- The lowest-numbered LOCKED tuner. -/
def controlTuner (c : Core) : Option (Fin 4) := allTuners.find? fun t => (tuner c t).state == .locked

/-- No tuner whose holder set contains a claimant other than standby watch is LOCKED. -/
def noOtherLocked (c : Core) : Bool :=
  allTuners.all fun t => !((tuner c t).state == .locked && (tuner c t).holders.hasOther)

/-- The installation condition (R4). -/
def installation (c : Core) : Bool := c.dir.map.isEmpty && c.dir.home.isSome && noOtherLocked c

/-- The standby condition (R209). -/
def standbyCondition (c : Core) : Bool := c.clock.power == .standby && noOtherLocked c

/-! ## The store as others read it -/

def erasedCount (st : Store) : Nat := st.pages.toList.countP (·.state == .erased)

/-- Free places of the commit queue. -/
def freePlaces (st : Store) : Nat := 16 - st.queue.length

def isWaiting (st : Store) (kind : RecordKind) (index : Nat) : Bool := st.queue.any (·.key == ⟨kind, index⟩)

end Sys2Proof.Machine
end

