-- ==== Sys2Proof/Machine/BookingList.lean ====
section
/-! DEFINITION. The booking list: finding and changing a booking, its commit and its notice, and the outcomes of changes handed
back by the Room Controller (R197, R198, R201). -/

namespace Sys2Proof.Machine

open Sys2Proof

def findBooking (c : Core) (id : Nat) : Option Booking := c.clock.bookings.find? (·.id == id)

/-- Ascending start, then ascending id (R197). -/
def Booking.before (x y : Booking) : Bool := x.start < y.start || (x.start == y.start && x.id < y.id)

/-- Puts a booking in its place, in place of the one of its id. -/
def placeBooking (b : Booking) (l : List Booking) : List Booking :=
  insertBy Booking.before b (l.filter (·.id != b.id))

def setBooking (b : Booking) (c : Core) : Core :=
  { c with clock := { c.clock with bookings := placeBooking b c.clock.bookings } }

/-! ## Commits (R195, R198) -/

/-- The owed mark of a booking is cleared, with its place before LAST_DAY. -/
def clearOwedBooking (id : Nat) (k : Clock) : Clock :=
  { k with owedBookings := k.owedBookings.filter (· != id), owedBeforeDay := k.owedBeforeDay.filter (· != id) }

def oweBooking (id : Nat) (k : Clock) : Clock :=
  if k.owedBookings.contains id then k
  else { k with owedBookings := insertBy (fun a b => a < b) id k.owedBookings }

/-- One BOOKING commit carrying the booking as it stands, or its removal when it has left the list; owed when the queue is full
(R198). -/
def commitBooking (id : Nat) (c : Core) : Core :=
  match offer (.single .booking id (.booking (findBooking c id))) c with
  | (.queueFull, c) => { c with clock := oweBooking id c.clock }
  | (.duringWipe, c) => c
  | (_, c) => { c with clock := clearOwedBooking id c.clock }

/-- One LAST_DAY commit carrying today; owed when the queue is full (R195). -/
def commitLastDay (c : Core) : Core :=
  match c.clock.today with
  | none => { c with clock := { c.clock with owedDay := false, owedBeforeDay := [] } }
  | some d =>
    match offer (.single .lastDay 0 (.lastDay d)) c with
    | (.queueFull, c) =>
      { c with clock := { c.clock with
          owedDay := true
          owedBeforeDay := if c.clock.owedDay then c.clock.owedBeforeDay else c.clock.owedBookings } }
    | (.duringWipe, c) => c
    | (_, c) => { c with clock := { c.clock with owedDay := false, owedBeforeDay := [] } }

/-! ## Changes (R198, R200) -/

def postBookingState (b : Booking) (cause : Option MissedCause) : Core → Core :=
  post (.bookingState b.id b.kind b.lcn b.state b.inUse b.extended cause)

/-- A change of a booking: posted as BOOKING_STATE and committed. -/
def changeBooking (b : Booking) (cause : Option MissedCause) (c : Core) : Core :=
  commitBooking b.id (postBookingState b cause (setBooking b c))

def missBooking (b : Booking) (cause : MissedCause) : Core → Core :=
  changeBooking { b with state := .missed, inUse := none, extended := false } (some cause)

/-- Asserts WAKE with a cause, in STANDBY only (R210). -/
def assertWake (f : WakeCauses → WakeCauses) (c : Core) : Core :=
  if c.clock.power = .standby then { c with clock := { c.clock with wake := true, causes := f c.clock.causes } } else c

/-- The outcome of a change of origin BOOKING is handed to Clock and Bookings (R48, R201). -/
def bookingOutcome (id : Nat) (outcome : ChangeOutcome) (c : Core) : Core :=
  match findBooking c id with
  | none => c
  | some b =>
    if b.state = .active then
      match outcome with
      | .noTuner => missBooking b .noTuner c
      | .noSignal => missBooking b .noSignal c
      | .superseded | .stopped => missBooking b .stopped c
      | .presenting | .held | .noService => c
    else c

end Sys2Proof.Machine
end

