-- ==== Sys2Proof/Machine/Filters.lean ====
section
/-! DEFINITION. Filter slots: opening and closing them, the control filters, and the assembly of segments from cells (R30 to R36).
-/

namespace Sys2Proof.Machine

open Sys2Proof

/-! ## Opening and closing (R31, R35) -/

def Slot.isOn (x : Slot) (t : Fin 4) : Bool :=
  match x.filter with
  | some f => f.tuner == t
  | none => false

def Slot.filters (x : Slot) (t : Fin 4) (lane : Nat) : Bool :=
  match x.filter with
  | some f => f.tuner == t && f.lane == lane
  | none => false

def Slot.feeds (x : Slot) (k : Consumer) : Bool :=
  match x.filter with
  | some f => f.consumer == k
  | none => false

/-- The open slot on a (tuner, lane) pair. -/
def slotOn (c : Core) (t : Fin 4) (lane : Nat) : Option (Fin 16) := allSlots.find? fun i => (slot c i).filters t lane

def closedSlot (c : Core) : Option (Fin 16) := allSlots.find? fun i => (slot c i).filter.isNone

/-- Takes the lowest-numbered CLOSED slot; a pair already open is refused (R31). -/
def openFilter (f : Filter) (c : Core) : Core :=
  match slotOn c f.tuner f.lane with
  | some _ => c
  | none =>
    match closedSlot c with
    | some i => setSlot i { Slot.closed with filter := some f } c
    | none => c

/-- Closes every slot that satisfies a test: its buffers are emptied and a handed buffer is withdrawn (R31). -/
def closeWhere (p : Slot → Bool) (c : Core) : Core :=
  allSlots.foldl (fun c i => if p (slot c i) then setSlot i .closed c else c) c

/-- Closes every slot on a tuner; a key slot whose filter stood there has none (R21, R69). -/
def closeTunerSlots (t : Fin 4) (c : Core) : Core :=
  let c := closeWhere (·.isOn t) c
  allTuners.foldl
    (fun c k => if (keySlot c k).filter == some t then setKeySlot k { keySlot c k with filter := none } c else c) c

/-- The lanes a key filter may not name (R35). -/
def fixedLane (lane : Nat) : Bool := lane ≤ 5 || lane == 16

/-! ## The control tuner (R36) -/

/-- The tuner the control filters stand on. -/
def controlFiltersOn (c : Core) : Option (Fin 4) :=
  (allSlots.findSome? fun i => (slot c i).filter.filter (·.consumer == .directory)).map (·.tuner)

def isControl (x : Slot) : Bool := x.feeds .directory || x.feeds .time || x.feeds .grants

/-- Settles the control tuner anew: the control filters move to the lowest-numbered LOCKED tuner (R36). -/
def settleControl (c : Core) : Core :=
  if controlFiltersOn c = controlTuner c then c
  else
    let c := closeWhere isControl c
    match controlTuner c with
    | none => c
    | some t =>
      openFilter ⟨t, 3, .grants⟩ (openFilter ⟨t, 2, .time⟩ (openFilter ⟨t, 1, .directory⟩ c))

/-! ## Assembly (R32, R33) -/

def Slot.buffer (x : Slot) (second : Bool) : Buffer := if second then x.b else x.a
def Slot.setBuffer (x : Slot) (second : Bool) (v : Buffer) : Slot := if second then { x with b := v } else { x with a := v }

/-- Discards the segment being assembled: its buffer becomes FREE. -/
def Slot.discard (x : Slot) (next : Assembly) : Slot :=
  { x with
    a := if x.a.state = .filling then .free else x.a
    b := if x.b.state = .filling then .free else x.b
    asm := next }

/-- Segments in assembly on a tuner's slots are discarded at a loss, and every slot of the tuner is idle (R21, log 56). -/
def discardAssembly (t : Fin 4) (c : Core) : Core :=
  allSlots.foldl (fun c i => if (slot c i).isOn t then setSlot i ((slot c i).discard .idle) c else c) c

/-- The buffer being filled: B when `true`. -/
def Slot.filling (x : Slot) : Option Bool :=
  if x.a.state = .filling then some false else if x.b.state = .filling then some true else none

/-- A FREE buffer, A when both are. -/
def Slot.freeBuffer (x : Slot) : Option Bool :=
  if x.a.state = .free then some false else if x.b.state = .free then some true else none

def Slot.hasHanded (x : Slot) : Bool := x.a.state = .handed || x.b.state = .handed

/-- A segment that has all its bytes is checked and becomes FULL, handed at once when no buffer of the slot is (R33, R34);
one that fails frees its buffer, and the slot is idle (log 58). -/
def Slot.complete (x : Slot) (second : Bool) (reading : TableBody) : Slot :=
  let bs := (x.buffer second).bytes
  let good := checkHolds bs && (match x.filter with
    | some f => (segmentHeader bs).kind == f.consumer.tableKind
    | none => false)
  if good then
    let stamp := max x.a.stamp x.b.stamp + 1
    let state := if x.hasHanded then BufferState.waiting else .handed
    { x.setBuffer second { state := state, bytes := bs, stamp := stamp, reading := some reading } with asm := .idle }
  else { x.setBuffer second .free with asm := .idle }

/-- The segment takes more bytes: it completes, or goes on with the next count. -/
def Slot.advance (x : Slot) (second : Bool) (bytes : List Byte) (needed : Nat) (count : BitVec 4) (reading : TableBody) : Slot :=
  let x := x.setBuffer second { x.buffer second with state := .filling, bytes := bytes }
  if needed = 0 then x.complete second reading else { x with asm := .collecting needed (count + 1) }

/-- A new segment begins at the first payload byte (R32). -/
def Slot.begin (x : Slot) (h : CellHeader) (payload : List Byte) (reading : TableBody) : Slot :=
  let total := (segmentHeader payload).length + 8
  if total > 1024 then { x with asm := .skipping }
  else
    match x.freeBuffer with
    | none => { x with asm := .skipping }
    | some second => x.advance second (payload.take total) (total - min total 156) h.count reading

/-- One cell taken by an open slot (R32). -/
def Slot.takeCell (x : Slot) (h : CellHeader) (payload : List Byte) (reading : TableBody) : Slot :=
  if h.parity != .clear then x.discard .skipping
  else
    match x.asm with
    | .idle | .skipping => if h.unitStart then x.begin h payload reading else x
    | .collecting needed next =>
      if h.unitStart then (x.discard .idle).begin h payload reading
      else if h.count = next then
        match x.filling with
        | some second =>
          x.advance second ((x.buffer second).bytes ++ payload.take needed) (needed - min needed 156) h.count reading
        | none => x.discard .skipping
      else x.discard .skipping

/-! ## Hand-over (R34) -/

/-- The handed buffer of a slot. -/
def Slot.handed (x : Slot) : Option Buffer :=
  if x.a.state = .handed then some x.a else if x.b.state = .handed then some x.b else none

/-- The consumer releases the handed buffer. -/
def Slot.release (x : Slot) : Slot :=
  { x with
    a := if x.a.state = .handed then .free else x.a
    b := if x.b.state = .handed then .free else x.b }

/-- The older waiting FULL buffer is handed when none is. -/
def Slot.handNext (x : Slot) : Slot :=
  if x.hasHanded then x
  else if x.a.state = .waiting && (x.b.state != .waiting || x.a.stamp ≤ x.b.stamp) then
    { x with a := { x.a with state := .handed } }
  else if x.b.state = .waiting then { x with b := { x.b with state := .handed } }
  else x

end Sys2Proof.Machine
end

