-- ==== Sys2Proof/Machine/Keys.lean ====
section
/-! DEFINITION. Binding of key slots (R66 to R70) and the handling of enciphered cells by a slot (R78, R79). -/

namespace Sys2Proof.Machine

open Sys2Proof

/-- The slot in use for a (carrier, key lane) pair. -/
def slotOfPair (c : Core) (x : Carrier) (lane : Nat) : Option (Fin 4) :=
  allTuners.find? fun k =>
    (keySlot c k).state != .empty && (keySlot c k).carrier == some x && (keySlot c k).keyLane == some lane

def emptyKeySlot (c : Core) : Option (Fin 4) := allTuners.find? fun k => (keySlot c k).state == .empty

/-- Opens a slot's key filter on a tuner when it has none; a fixed lane is refused (R35, R67). -/
def ensureKeyFilter (k : Fin 4) (t : Fin 4) (c : Core) : Core :=
  let x := keySlot c k
  match x.filter, x.keyLane with
  | none, some lane =>
    if fixedLane lane || (slotOn c t lane).isSome then c
    else setKeySlot k { x with filter := some t } (openFilter ⟨t, lane, .keys⟩ c)
  | _, _ => c

def closeKeyFilter (k : Fin 4) (c : Core) : Core :=
  let x := keySlot c k
  match x.filter, x.keyLane with
  | some t, some lane =>
    setKeySlot k { x with filter := none } (closeWhere (fun s => s.filters t lane && s.feeds .keys) c)
  | _, _ => c

/-- A newly taken slot (R67). -/
def KeySlot.taken (x : Carrier) (lane : Nat) : KeySlot :=
  { KeySlot.empty with carrier := some x, keyLane := some lane, refs := 1, state := .waiting }

/-- A slot's count falls by one; at 0 it empties (R70). -/
def dropRef (k : Fin 4) (c : Core) : Core :=
  let x := keySlot c k
  if x.refs ≤ 1 then setKeySlot k .empty (closeKeyFilter k c)
  else setKeySlot k { x with refs := x.refs - 1 } c

def setSessionSlot (o : Output) (k : Option (Fin 4)) (c : Core) : Core := setSession o { session c o with slot := k } c

/-- An unbind request (R70). -/
def unbindKey (o : Output) (c : Core) : Core :=
  match (session c o).slot with
  | none => c
  | some k => setSessionSlot o none (dropRef k c)

/-- Gives up the old slot of a rebind, when there was one. -/
def dropOld (old : Option (Fin 4)) (c : Core) : Core :=
  match old with
  | none => c
  | some k => dropRef k c

/-- A bind request, or a rebind (R67, R68). -/
def bindKey (o : Output) (x : Carrier) (lane : Nat) (t : Fin 4) (c : Core) : Core :=
  let old := (session c o).slot
  match slotOfPair c x lane with
  | some k =>
    if old = some k then ensureKeyFilter k t c
    else
      let c := setKeySlot k { keySlot c k with refs := (keySlot c k).refs + 1 } c
      dropOld old (ensureKeyFilter k t (setSessionSlot o (some k) c))
  | none =>
    match old with
    | some k =>
      if (keySlot c k).refs ≤ 1 then
        ensureKeyFilter k t (setKeySlot k (.taken x lane) (closeKeyFilter k c))
      else
        match emptyKeySlot c with
        | some e => dropRef k (ensureKeyFilter e t (setSessionSlot o (some e) (setKeySlot e (.taken x lane) c)))
        | none => c
    | none =>
      match emptyKeySlot c with
      | some e => ensureKeyFilter e t (setSessionSlot o (some e) (setKeySlot e (.taken x lane) c))
      | none => c

/-- The key of a parity. -/
def KeySlot.key (x : KeySlot) : KeyParity → Option Key
  | .even => x.even
  | .odd => x.odd

/-- Whether a slot clears cells: READY or STALE. -/
def KeySlot.clears (x : KeySlot) : Bool := x.state == .ready || x.state == .stale

/-- A slot whose key of the cell's parity is absent: the parity is taken, and READY or STALE goes to MISSING (R79). -/
def KeySlot.keyAbsent (x : KeySlot) (p : KeyParity) : KeySlot :=
  { x with parity := some p, state := if x.clears then .missing else x.state }

/-- An opening (R75). -/
def KeySlot.opening (x : KeySlot) (system : Key) (b : KeyBulletin) : KeySlot :=
  let even := (b.even.map (Config.decipherKey system)) <|> x.even
  let odd := (b.odd.map (Config.decipherKey system)) <|> x.odd
  let y := { x with even := even, odd := odd, period := some b.period, life := Timer.start 30000 }
  let held := match x.parity with
    | none => true
    | some p => (y.key p).isSome
  { y with state := if held then .ready else .missing }

/-- The slot after a bulletin whose criterion is not met (R73). -/
def KeySlot.denied (x : KeySlot) : KeySlot :=
  { x with even := none, odd := none, period := none, life := x.life.stop, state := .denied }

/-- The form check of a key bulletin (R71). -/
def KeyBulletin.formed (b : KeyBulletin) (lane : Nat) : Bool :=
  b.lane == lane && (b.even.isSome || b.odd.isSome) &&
    (match b.criterion with
     | .packages ids => 1 ≤ ids.length && ids.length ≤ 4 && ids.all fun i => 1 ≤ i && i ≤ 4095
     | .event _ => true)

/-- The outputs whose sessions are bound to a slot. -/
def boundOutputs (c : Core) (k : Fin 4) : List Output := allOutputs.filter fun o => (session c o).slot == some k

/-- The criterion test (R72). -/
def criterionMet (c : Core) (k : Fin 4) (x : Criterion) : Bool :=
  c.access.issue.isLocked && !c.access.cut &&
    (match x with
     | .packages ids => packageGranted c ids
     | .event id => (boundOutputs c k).any fun o =>
        match (session c o).lcn with
        | some lcn => eventGranted c lcn id
        | none => false)

end Sys2Proof.Machine
end

