-- ==== Sys2Proof/Machine/Sessions.lean ====
section
/-! DEFINITION. What a session does on its own tuner: ends of changes, entry into CHECKING, re-evaluation, signal loss and return,
event changes (R41, R45 to R48, R53, R54, R56 to R59, R120, R156). -/

namespace Sys2Proof.Machine

open Sys2Proof

/-! ## Ends of a change (R48) -/

def ChangeTag.host : ChangeTag → Option Byte
  | .tag t => some t
  | _ => none

def ChangeTag.inFlight (t : ChangeTag) : Bool := t != .absent

/-- CHANGE_DONE is posted for the change that session `old` had in flight, and its outcome is handed to the booking of origin
BOOKING. -/
def endChange (o : Output) (old : Session) (outcome : ChangeOutcome) (reasons : Option Reasons) (c : Core) : Core :=
  let c := post (.changeDone o old.change.host outcome old.lcn reasons) c
  match old.origin with
  | .host => c
  | .booking id => bookingOutcome id outcome c

def postSession (o : Output) (c : Core) : Core :=
  let s := session c o
  post (.sessionState o s.state s.reasons s.lcn s.event) c

/-! ## The purchase offer (R156) -/

def logHas (p : Purchase) (lcn event : Nat) : Bool := p.log.any fun r => r.lcn == lcn && r.event == event

def inFlightFor (p : Purchase) (lcn event : Nat) : Bool :=
  match p.inFlight with
  | some f => f.lcn == lcn && f.event == event
  | none => false

/-- A room session has come to hold NO_GRANT: PURCHASE_OFFER is posted when its conditions hold. -/
def purchaseOffer (o : Output) (c : Core) : Core :=
  let s := session c o
  match Output.room o, s.lcn, s.event with
  | some r, some lcn, some ev =>
    match findChannel c lcn, findRecord c lcn ev with
    | some e, some rec =>
      match rec.price with
      | some price =>
        if e.kind = .eventPaid && c.access.issue.isLocked && !c.access.cut && !inFlightFor c.purchase lcn ev
            && !logHas c.purchase lcn ev then
          post (.purchaseOffer r lcn ev price rec.finish) c
        else c
      | none => c
    | _, _ => c
  | _, _, _ => c

/-! ## Results of a verdict (R46, R47, R57, R58) -/

/-- The session takes PRESENTING or HELD: its change ends, or SESSION_STATE reports the difference from `old`; `entering` says
whether HELD is entered. -/
def arrive (o : Output) (old s : Session) (entering : Bool) (c : Core) : Core :=
  let c := setSession o { s with change := .absent } c
  let c :=
    if s.change.inFlight then
      match s.state with
      | .held => endChange o s .held (some s.reasons) c
      | _ => endChange o s .presenting none c
    else if s.state ≠ old.state ∨ s.reasons ≠ old.reasons then postSession o c
    else c
  if s.state = .held && s.reasons.noGrant && (entering || !old.reasons.noGrant) then purchaseOffer o c else c

def Session.toPresenting (s : Session) : Session :=
  { s with state := .presenting, reasons := .none, keyWait := s.keyWait.stop, ret := none }

def Session.toHeld (s : Session) (r : Reasons) : Session :=
  { s with state := .held, reasons := r, keyWait := s.keyWait.stop, ret := none }

/-- The verdict set as HELD counts it: a WAITING slot gives NO_KEY beside other reasons (R46). -/
def heldSet (c : Core) (o : Output) : Reasons :=
  { verdictSet c o with noKey := keyMissing c { session c o with state := .held } }

/-- The service is unscrambled, or its slot is READY or STALE. -/
def keyReady (c : Core) (s : Session) : Bool :=
  match s.service with
  | none => false
  | some e => e.keyLane == 0 ||
      (match s.slot with
       | some k => (keySlot c k).clears
       | none => false)

/-! ## Entry into CHECKING (R46) -/

/-- The service number the map in force gives a session's channel. -/
def serviceOf (c : Core) (s : Session) : Option Nat := s.lcn.bind fun l => (findChannel c l).map (·.service)

/-- The entry of a session's service in its tuner's lane map. -/
def laneEntry (c : Core) (s : Session) : Option LaneEntry :=
  match s.tuner, serviceOf c s with
  | some t, some n => (laneMap c t).entries.find? (·.service == n)
  | _, _ => none

/-- The session's key is bound or unbound for a service entry (R46). -/
def bindService (o : Output) (e : LaneEntry) (c : Core) : Core :=
  let s := session c o
  if e.keyLane = 0 then unbindKey o c
  else
    match s.carrier, s.tuner with
    | some x, some t => bindKey o x e.keyLane t c
    | _, _ => c

/-- CHECKING is entered with a lane-map entry. The session has changed state, so one SESSION_STATE reports where the chain of the
event ends, be it the state it began in (R46, R58, log 13). -/
def enterChecking (o : Output) (e : LaneEntry) (c : Core) : Core :=
  let s := session c o
  let c := setSession o { s with state := .checking, service := some e, laneWait := s.laneWait.stop, reasons := .none,
                                 ret := none } c
  let c := bindService o e c
  let s := session c o
  let c := setSession o { s with event := (s.lcn.bind (presentEvent c)).map (·.event) } c
  let s := session c o
  if !(verdictSet c o).isEmpty then arrive o s (s.toHeld (heldSet c o)) true c
  else if keyReady c s then arrive o s s.toPresenting false c
  else
    let c := setSession o { s with keyWait := Timer.start 2500 } c
    if s.change.inFlight then c else postSession o c

/-- A session in OPENING enters CHECKING when its lane map holds its service; otherwise its entry into OPENING is reported. -/
def tryChecking (o : Output) (old : Session) (c : Core) : Core :=
  let s := session c o
  if s.state = .opening then
    match laneEntry c s with
    | some e => enterChecking o e c
    | none => if !s.change.inFlight && old.state ≠ .opening then postSession o c else c
  else c

/-- Into OPENING with the lane-map wait started; the key slot stays bound, and there is no present event id (R41, R62, R120, log 47). -/
def Session.toOpening (s : Session) : Session :=
  { s with state := .opening, reasons := .none, event := none, ret := none, laneWait := Timer.start 2000, keyWait := s.keyWait.stop }

def reopen (o : Output) (c : Core) : Core :=
  let s := session c o
  tryChecking o s (setSession o s.toOpening c)

/-! ## Re-evaluation (R56, R57) -/

/-- The states a re-evaluation affects. -/
def Session.evaluated (s : Session) : Bool :=
  match s.state with
  | .checking | .presenting | .dark => true
  | .held => !s.reasons.terminal
  | _ => false

def reevalOne (c : Core) (o : Output) : Core :=
  let s := session c o
  if s.evaluated then
    let v := verdictSet c o
    match s.state with
    | .checking =>
      if !v.isEmpty then arrive o s (s.toHeld (heldSet c o)) true c
      else if keyReady c s then arrive o s s.toPresenting false c
      else c
    | .presenting => if v.isEmpty then c else arrive o s (s.toHeld v) true c
    | .held =>
      if v.isEmpty then arrive o s s.toPresenting false c
      else if v = s.reasons then c
      else arrive o s (s.toHeld v) false c
    | .dark => setSession o { s with reasons := v } c
    | _ => c
  else c

/-- Every affected session's verdict set is computed anew, in the order of the outputs (R56). -/
def reevaluate (c : Core) : Core := allOutputs.foldl reevalOne c

/-! ## Loss and return of signal (R53, R54) -/

def signalLost (o : Output) (c : Core) : Core :=
  let s := session c o
  match s.state with
  | .opening | .checking | .presenting | .held =>
    let c := setSession o { s with state := .dark, ret := some s.state, laneWait := s.laneWait.stop,
                                   keyWait := s.keyWait.stop } c
    if s.change.inFlight then c else postSession o c
  | _ => c

/-- A DARK session leaves DARK by its return state (R54); one that returns to CHECKING and finds no lane-map entry goes to OPENING (log 85). -/
def signalRegained (o : Output) (c : Core) : Core :=
  let s := session c o
  if s.state = .dark then
    match s.ret with
    | some .opening => tryChecking o s (setSession o s.toOpening c)
    | some .checking =>
      match laneEntry c s with
      | some e => enterChecking o e c
      | none => tryChecking o s (setSession o s.toOpening c)
    | _ =>
      if s.reasons.isEmpty && keyReady c s then arrive o s s.toPresenting false c
      else arrive o s (s.toHeld s.reasons) true c
  else c

/-! ## Event changes (R59, R120, R132) -/

/-- A grant with an event id ends at an event change on its room's session (R132). -/
def endEventGrant (o : Output) (c : Core) : Core :=
  match Output.room o with
  | none => c
  | some r =>
    let x := context c r
    match x.grant with
    | some g => if g.event.isSome then setContext r { x with grant := none } c else c
    | none => c

/-- The present event of one session's channel is compared with the session's, and a difference is acted on (R120). -/
def testSession (c : Core) (o : Output) : Core :=
  let s := session c o
  match s.evaluated, s.lcn with
  | true, some lcn =>
    let now := presentEvent c lcn
    let ev := now.map (·.event)
    if ev = s.event then c
    else
      let c := post (.eventChanged o lcn s.event ev ((now.map (·.byMarker)).getD false)) c
      let c := setSession o { session c o with event := ev } c
      let held := s.state = .held && s.reasons.noGrant
      let c := reevaluate (endEventGrant o c)
      let s' := session c o
      if held && s'.state = .held && s'.reasons.noGrant then purchaseOffer o c else c
  | _, _ => c

/-- The test for event changes. -/
def testPresent (c : Core) : Core := allOutputs.foldl testSession c

/-! ## Media cells at the outputs (R63) -/

def carry (o : Output) (x : OutCell) (c : Core) : Core :=
  { c with rooms := { c.rooms with cells := putAt c.rooms.cells (Output.idx o) (c.rooms.cells.get (Output.idx o) ++ [x]) } }

end Sys2Proof.Machine
end

