-- ==== Sys2Proof/Machine/Tuners.lean ====
section
/-! DEFINITION. The Tuner Arbiter: commands to the front-ends, what each transition hands to its neighbours, claims and releases,
standby watch, and stopping an output (R4, R16 to R27, R51, R52, R118, R202, R209). -/

namespace Sys2Proof.Machine

open Sys2Proof

/-! ## Commands on the tuner control line (R17) -/

/-- Sends a tune command, or an off command: the count is raised by one and the command carries it. -/
def sendCommand (t : Fin 4) (x : Option Carrier) (c : Core) : Core :=
  let u := tuner c t
  let n := u.count + 1
  setTuner t { u with count := n } { c with arb := { c.arb with line := c.arb.line ++ [⟨t, n, x⟩] } }

/-- A tune command to a carrier: ACQUIRING with the acquisition limit in force (R19, R23). -/
def tune (t : Fin 4) (x : Carrier) (holders : Holders) (c : Core) : Core :=
  let c := sendCommand t (some x) c
  setTuner t { tuner c t with state := .acquiring, carrier := some x, number := numberOf c x, holders := holders,
                              acq := Timer.start c.arb.acqLimit, loss := (tuner c t).loss.stop } c

/-- The off command and the tuner's OFF state (R19, R27). -/
def turnOff (t : Fin 4) (c : Core) : Core :=
  let c := sendCommand t none c
  setTuner t { tuner c t with state := .off, carrier := none, number := none, holders := .none,
                              acq := (tuner c t).acq.stop, loss := (tuner c t).loss.stop } c

def setHolder (t : Fin 4) (x : Claimant) (b : Bool) (c : Core) : Core :=
  setTuner t { tuner c t with holders := (tuner c t).holders.put x b } c

/-! ## Claims: which step of R22 to R25 succeeds -/

/-- How a claim is made (R24). -/
inductive ClaimMode where
  | host
  | booking (takesRoom : Bool)
  deriving DecidableEq, Repr

inductive Plan where
  | keep (t : Fin 4)
  | join (t : Fin 4)
  | take (t : Fin 4)
  | retune (t : Fin 4)
  | preempt (t : Fin 4)
  | refused
  deriving DecidableEq, Repr

/-- A background tuner: holders, all of them background claimants. -/
def Holders.background (h : Holders) : Bool :=
  (h.sweep || h.watch) && !(h.roomA || h.roomB || h.record1 || h.record2)

/-- The holder sets a claim may take, in order of preference (R24). -/
def takeable (x : Claimant) (m : ClaimMode) : List (Holders → Bool) :=
  let rooms : List (Holders → Bool) :=
    [fun h => h.only (.out .roomB), fun h => h.only (.out .roomA),
     fun h => h == (Holders.none.put (.out .roomA) true).put (.out .roomB) true]
  match x, m with
  | .out .record1, .booking true | .out .record2, .booking true => Holders.background :: rooms
  | .out _, _ => [Holders.background]
  | .sweep, _ | .watch, _ => []

def firstTuner (c : Core) (p : Tuner → Bool) : Option (Fin 4) := allTuners.find? fun t => p (tuner c t)

/-- The step of R22 to R26 that answers a claim. -/
def planClaim (c : Core) (x : Claimant) (car : Carrier) (m : ClaimMode) : Plan :=
  match tunerOn c car with
  | some t => if (tuner c t).holders.has x then .keep t else .join t
  | none =>
    match firstTuner c (·.state == .off) with
    | some t => .take t
    | none =>
      match firstTuner c (fun u => u.holders.only x) with
      | some t => .retune t
      | none =>
        match (takeable x m).findSome? fun p => firstTuner c fun u => p u.holders with
        | some t => .preempt t
        | none => .refused

/-- The tuner of a plan, with its state as the claim's answer gives it. -/
def Plan.answer (c : Core) : Plan → Option (Fin 4 × TunerState)
  | .keep t | .join t => some (t, (tuner c t).state)
  | .take t | .retune t | .preempt t => some (t, .acquiring)
  | .refused => none

/-! ## Standby watch claims (R4, R209) -/

/-- The standby-watch hold starts when a claim made for the standby condition fails. -/
def startHold (c : Core) : Core :=
  if standbyCondition c then { c with clock := { c.clock with hold := Timer.start 30000 } } else c

def stopHold (c : Core) : Core := { c with clock := { c.clock with hold := c.clock.hold.stop } }

/-- Standby watch, holding no tuner, claims the home carrier when one of its conditions holds: it joins a tuner or takes an OFF
one. -/
def watchTest (c : Core) : Core :=
  match c.dir.home with
  | none => c
  | some x =>
    if (installation c || standbyCondition c) && (heldTuner c .watch).isNone then
      match planClaim c .watch x .host with
      | .join t => setHolder t .watch true c
      | .take t => tune t x (Holders.none.put .watch true) c
      | _ => startHold c
    else c

/-! ## Recordings that run on (R202) -/

/-- Whether an extended recording goes on: its event is present by marker, and the limit of 7200 s lies ahead. -/
def runsOn (c : Core) (b : Booking) (now : Nat) : Bool :=
  now < b.finish + 7200 &&
    (match b.link, presentEvent c b.lcn with
     | some e, some p => p.byMarker && p.event == e
     | _, _ => false)

/-- A recording ends in one event: its output is stopped, then BOOKING_STATE is posted (R202). -/
def endRecording (stop : Output → Core → Core) (b : Booking) (c : Core) : Core :=
  let b' := { b with state := .done, inUse := none, extended := false }
  let c := setBooking b' c
  let c := match b.inUse with
    | some o => stop o c
    | none => c
  commitBooking b.id (postBookingState b' none c)

/-- An extended recording is judged again. -/
def judgeExtended (stop : Output → Core → Core) (c : Core) (id : Nat) : Core :=
  match findBooking c id, c.clock.time with
  | some b, some now =>
    if b.state = .active && b.extended && !runsOn c b now then endRecording stop b c else c
  | _, _ => c

/-- A marker change is handed to Clock and Bookings with its LCN (R118). -/
def markerChanged (stop : Output → Core → Core) (lcn : Nat) (c : Core) : Core :=
  ((c.clock.bookings.filter fun b => b.lcn == lcn && b.state == .active && b.extended).map (·.id)).foldl
    (judgeExtended stop) c

/-- Removes the markers that satisfy a test: all go first, then each is handed on, the newest set first (R118, log 62). -/
def removeMarkers (stop : Output → Core → Core) (p : Marker → Bool) (c : Core) : Core :=
  let gone := (c.guide.markers.filter p).map (·.lcn)
  let c := { c with guide := { c.guide with markers := c.guide.markers.filter (fun m => !p m) } }
  gone.foldl (fun c l => markerChanged stop l c) c

/-! ## Transitions (R21) -/

/-- The Guide Store is told that a carrier has no LOCKED tuner: its markers go, and the present events are tested. -/
def carrierUnlocked (stop : Output → Core → Core) (x : Option Carrier) (c : Core) : Core :=
  match x with
  | none => c
  | some x => testPresent (removeMarkers stop (·.carrier == x) c)

/-- What a tuner that leaves its carrier hands out, after the holder messages; `u` is the tuner as it was (R21, last two rows). -/
def handLeft (stop : Output → Core → Core) (t : Fin 4) (u : Tuner) (c : Core) : Core :=
  let c := settleControl (closeTunerSlots t c)
  let c := setLaneMap t .empty c
  let c := if u.state = .locked || u.state = .lost then carrierUnlocked stop u.carrier c else c
  if u.state = .locked && u.holders.hasOther then watchTest c else c

/-- A tuner goes OFF, and the transition is handed out. -/
def goOff (stop : Output → Core → Core) (t : Fin 4) (c : Core) : Core :=
  let u := tuner c t
  handLeft stop t u (turnOff t c)

/-- A release: the claimant leaves its tuner, which goes OFF when no holder is left (R27). -/
def releaseFrom (stop : Output → Core → Core) (x : Claimant) (t : Fin 4) (c : Core) : Core :=
  let u := tuner c t
  if u.holders.only x then goOff stop t c else setHolder t x false c

def releaseWith (stop : Output → Core → Core) (x : Claimant) (c : Core) : Core :=
  match heldTuner c x with
  | none => c
  | some t => releaseFrom stop x t c

/-! ## Stopping an output (R51, R52) -/

/-- A stop is handed to the booking of the session's origin. One that has ended or has left the list, as at its own end and at DROP
BOOKING, is told nothing by it (R52, R201). -/
def handStop (origin : Origin) (c : Core) : Core :=
  match origin with
  | .host => c
  | .booking id => bookingOutcome id .stopped c

/-- The stop of an output: unbound, IDLE, released, then reported and handed to its booking; an extended recording whose marker goes with
the release has then ended (R52, R202, log 69). -/
def stopBody (rel : Claimant → Core → Core) (o : Output) (c : Core) : Core :=
  let old := session c o
  let c := setSession o .idle (unbindKey o c)
  let c := rel (.out o) c
  handStop old.origin
    (if old.change.inFlight then post (.changeDone o old.change.host .stopped old.lcn none) c
     else if old.state ≠ .idle then postSession o c
     else c)

/-- Stopping an output can end an extended recording whose stop can end another; the depth is bounded by the bookings of the
list, of which there are at most 32 (R197). -/
def stopN : Nat → Output → Core → Core
  | 0, _, c => c
  | n + 1, o, c => stopBody (releaseWith (stopN n)) o c

def stopSession : Output → Core → Core := stopN 33

def release : Claimant → Core → Core := releaseWith stopSession

/-! ## Standby watch ends (R4, R209) -/

/-- Another claimant's tuner is LOCKED: standby watch gives up its claim, and the hold stops. -/
def watchEnds (c : Core) : Core := stopHold (release .watch c)

/-- A claim of standby watch has ended by NO_SIGNAL or TUNER_TAKEN (R25, R209). -/
def watchFailed (c : Core) : Core := startHold c

/-! ## The guide sweep gives up (R116) -/

/-- Closes the schedule filter. -/
def closeSchedule (c : Core) : Core := closeWhere (·.feeds .schedule) c

/-- The sweep ends without completing: its timer is loaded with 10 min, its reload stays the interval, and a claim still held is released
(R113, R116). -/
def endSweep (c : Core) : Core :=
  let c := closeSchedule c
  let c := { c with guide := { c.guide with sweep :=
    { state := .idle, timer := { reload := c.guide.interval * 60000, left := 600000, running := true }, limit := c.guide.sweep.limit.stop, next := .resume, tuner := none } } }
  release .sweep c

def openSchedule (t : Fin 4) : Core → Core := openFilter ⟨t, 16, .schedule⟩

/-- The sweep is told LOCKED (R114). -/
def sweepLocked (t : Fin 4) (c : Core) : Core :=
  if c.guide.sweep.state = .tuning then
    openSchedule t { c with guide := { c.guide with sweep := { c.guide.sweep with state := .collecting } } }
  else c

/-! ## Sessions that lose their tuner (R44, R45, R55, R60) -/

/-- HELD with a terminal reason: unbound, its change ended or its state reported, then released: what the release sets off follows the
session's own report (R45, R55, R60, log 38). -/
def holdTerminal (o : Output) (r : Reasons) (outcome : ChangeOutcome) (reasons : Option Reasons) (c : Core) : Core :=
  let old := session c o
  let c := unbindKey o c
  let c := setSession o { session c o with
      state := .held, reasons := r, tuner := none, service := none, event := none, ret := none, change := .absent,
      laneWait := old.laneWait.stop, keyWait := old.keyWait.stop } c
  release (.out o) (if old.change.inFlight then endChange o old outcome reasons c else postSession o c)

def onlyNoService : Reasons := { Reasons.none with noService := true }
def onlyTunerTaken : Reasons := { Reasons.none with tunerTaken := true }

def loseService (o : Output) : Core → Core := holdTerminal o onlyNoService .noService none

/-- A holder is told TUNER_TAKEN; the arbiter has removed it (R55, R116, R25). -/
def tellTaken (c : Core) (x : Claimant) : Core :=
  match x with
  | .out o => holdTerminal o onlyTunerTaken .held (some onlyTunerTaken) c
  | .sweep => endSweep c
  | .watch => watchFailed c

/-- A holder is told NO_SIGNAL; the failed acquisition has removed it (R44, R116, R209). -/
def tellNoSignal (c : Core) (x : Claimant) : Core :=
  match x with
  | .out o =>
    let old := session c o
    let c := setSession o .idle (unbindKey o c)
    endChange o old .noSignal none c
  | .sweep => endSweep c
  | .watch => watchFailed c

/-- The holders of a tuner, in the order in which they are told: Room A, Room B, Record 1, Record 2, the sweep, standby watch (R18, log 66). -/
def holdersOf (h : Holders) : List Claimant := allClaimants.filter h.has

/-! ## Carrying out a claim (R22 to R26) -/

/-- The tuner the claimant held before, if it is another, is released in the same event (R26). -/
def leaveOld (x : Claimant) (old : Option (Fin 4)) (t : Fin 4) (c : Core) : Core :=
  match old with
  | none => c
  | some u => if u = t then c else releaseFrom stopSession x u c

/-- Carries out the plan of a claim on a carrier. -/
def carryOut (x : Claimant) (car : Carrier) (p : Plan) (c : Core) : Core :=
  let old := heldTuner c x
  match p with
  | .refused | .keep _ => c
  | .join t =>
    let c := leaveOld x old t (setHolder t x true c)
    if x ≠ .watch && (tuner c t).state = .locked && (tuner c t).holders.watch then watchEnds c else c
  | .take t => leaveOld x old t (tune t car (Holders.none.put x true) c)
  | .retune t =>
    let u := tuner c t
    handLeft stopSession t u (tune t car (Holders.none.put x true) c)
  | .preempt t =>
    let u := tuner c t
    let c := tune t car (Holders.none.put x true) c
    let c := (holdersOf u.holders).foldl tellTaken c
    leaveOld x old t (handLeft stopSession t u c)

/-- Standby watch claims the home carrier anew when it changes (R4): the old tuner is given up once the claim succeeds. -/
def watchReclaim (c : Core) : Core :=
  match heldTuner c .watch, c.dir.home with
  | some _, some x =>
    match planClaim c .watch x .host with
    | .refused => startHold c
    | p => carryOut .watch x p c
  | some _, none => release .watch c
  | none, _ => watchTest c

/-! ## Reports of the front-ends (R17 to R20) -/

/-- Clock and Bookings is told that a tuner became LOCKED, with its holder set (R21). -/
def toldLocked (t : Fin 4) (c : Core) : Core := if (tuner c t).holders.hasOther then watchEnds c else c

def sessionLocked (t : Fin 4) (c : Core) (o : Output) : Core :=
  let s := session c o
  if s.state = .tuning && s.tuner = some t then tryChecking o s (setSession o s.toOpening c) else c

/-- LOCK in ACQUIRING: LOCKED, the holders told, the per-tuner filters opened (R18, R21, R35). -/
def acquired (t : Fin 4) (c : Core) : Core :=
  let u := tuner c t
  let c := setTuner t { u with state := .locked, acq := u.acq.stop } c
  let c := allOutputs.foldl (sessionLocked t) c
  let c := if u.holders.sweep then sweepLocked t c else c
  let c := openFilter ⟨t, 5, .presentNext⟩ (openFilter ⟨t, 4, .laneMap⟩ c)
  toldLocked t (settleControl c)

def heldBy (c : Core) (t : Fin 4) : List Output := allOutputs.filter fun o => (tuner c t).holders.has (.out o)

/-- LOCK in LOST: LOCKED, the holders told SIGNAL_REGAINED. -/
def regained (t : Fin 4) (c : Core) : Core :=
  let u := tuner c t
  let c := setTuner t { u with state := .locked, loss := u.loss.stop } c
  let c := (heldBy c t).foldl (fun c o => signalRegained o c) c
  toldLocked t (settleControl c)

/-- LOSS in LOCKED: LOST, the holders told SIGNAL_LOST, and the transition handed out (R18, R20, R21). -/
def lost (t : Fin 4) (c : Core) : Core :=
  let u := tuner c t
  let c := setTuner t { u with state := .lost, loss := Timer.start 5000 } c
  let c := (heldBy c t).foldl (fun c o => signalLost o c) c
  let c := discardAssembly t (settleControl c)
  let c := carrierUnlocked stopSession u.carrier c
  if u.holders.hasOther then watchTest c else c

/-- A LOCK report that passes the count test (R17, R18). -/
def lockReport (t : Fin 4) (count : BitVec 4) (c : Core) : Core :=
  let u := tuner c t
  if count = u.count then
    match u.state with
    | .acquiring => acquired t c
    | .lost => regained t c
    | .off | .locked => c
  else c

def lossReport (t : Fin 4) (count : BitVec 4) (c : Core) : Core :=
  let u := tuner c t
  if count = u.count && u.state = .locked then lost t c else c

/-- The acquisition has failed: OFF, every holder told NO_SIGNAL (R19). -/
def acquisitionFailed (t : Fin 4) (c : Core) : Core :=
  let u := tuner c t
  if u.acq.running && u.state = .acquiring then
    let c := turnOff t c
    let c := (holdersOf u.holders).foldl tellNoSignal c
    handLeft stopSession t u c
  else c

/-- The loss timer expires: SIGNAL_LOST is posted (R20). -/
def lossTimerExpired (t : Fin 4) (c : Core) : Core :=
  let u := tuner c t
  if u.loss.running then
    post (.signalLost t u.number u.carrier) (setTuner t { u with loss := u.loss.expired } c)
  else c

/-- The standby-watch hold expires (R209). -/
def holdExpired (c : Core) : Core :=
  if c.clock.hold.running then
    let c := { c with clock := { c.clock with hold := c.clock.hold.expired } }
    if standbyCondition c && (heldTuner c .watch).isNone then watchTest c else c
  else c

end Sys2Proof.Machine
end

