-- ==== Sys2Proof/Machine/Rooms.lean ====
section
/-! DEFINITION. Channel changes and the Room Controller's requests, lane maps, the change report at the sessions, and the session
waits (R40 to R45, R47, R49 to R52, R60 to R62, R65). -/

namespace Sys2Proof.Machine

open Sys2Proof

/-! ## Changes (R43, R49) -/

/-- The session at the start of a change whose claim is answered with a tuner in a state (R43). -/
def Session.started (s : Session) (lcn : Nat) (x : Carrier) (t : Fin 4) (st : TunerState) (tag : ChangeTag)
    (origin : Origin) : Session :=
  { s with
    state := match st with
      | .locked => .opening
      | .lost => .dark
      | _ => .tuning
    lcn := some lcn, carrier := some x, tuner := some t, service := none, change := tag, origin := origin,
    reasons := .none, event := none,
    ret := if st = .lost then some .opening else none
    laneWait := if st = .locked then Timer.start 2000 else s.laneWait.stop
    keyWait := s.keyWait.stop }

/-- The claim of a change and what the session makes of its answer; `refusedBy` acts on NO_TUNER (R43). -/
def claimFor (o : Output) (lcn : Nat) (x : Carrier) (tag : ChangeTag) (origin : Origin) (m : ClaimMode)
    (refusedBy : Core → Core) (c : Core) : Core :=
  let p := planClaim c (.out o) x m
  match p.answer c with
  | none => refusedBy c
  | some (t, st) =>
    let old := session c o
    let c := setSession o (old.started lcn x t st tag origin) c
    let c := carryOut (.out o) x p c
    if st = .locked then tryChecking o old c else c

/-- The session goes to IDLE with its tuner released and its slot unbound (R43, R61). -/
def toIdle (o : Output) (c : Core) : Core := release (.out o) (setSession o .idle (unbindKey o c))

/-- A claim answered NO_TUNER: CHANGE_DONE NO_TUNER with the LCN selected; a session whose earlier change was superseded goes to IDLE (R43,
R48, log 70). -/
def changeRefused (o : Output) (lcn : Nat) (tag : ChangeTag) (origin : Origin) (superseded : Bool) (c : Core) : Core :=
  let c := if superseded then toIdle o c else c
  endChange o { Session.idle with lcn := some lcn, change := tag, origin := origin } .noTuner none c

/-- A change in flight is superseded by a new selection (R49). -/
def supersede (o : Output) (c : Core) : Core :=
  let s := session c o
  if s.change.inFlight then
    endChange o s .superseded none (setSession o { s with change := .absent } c)
  else c

/-- The claim of a new change, once the change in flight is superseded (R43). A channel whose carrier number resolves to none has
no service (R1). -/
def beginChange (o : Output) (lcn : Nat) (e : ChannelEntry) (tag : ChangeTag) (origin : Origin) (m : ClaimMode)
    (superseded : Bool) (c : Core) : Core :=
  match resolve c e.carrierNo with
  | some x => claimFor o lcn x tag origin m (changeRefused o lcn tag origin superseded) c
  | none =>
    loseService o (setSession o { session c o with lcn := some lcn, carrier := none, change := tag, origin := origin } c)

/-- An accepted selection: the change in flight is superseded and the new change begins (R42, R43, R49). -/
def select (o : Output) (lcn : Nat) (e : ChannelEntry) (tag : ChangeTag) (origin : Origin) (m : ClaimMode) (c : Core) : Core :=
  beginChange o lcn e tag origin m (session c o).change.inFlight (supersede o c)

/-- A channel change on a room ends its unlock grant (R132). -/
def endGrant (o : Output) (c : Core) : Core :=
  match Output.room o with
  | none => c
  | some r => setContext r { context c r with grant := none } c

/-! ## Lane maps (R40, R41) -/

/-- An entry the map does not take (R40 step 4). -/
def LaneEntry.dropped (e : LaneEntry) : Bool :=
  e.service == 0 || e.lanes.isEmpty || e.lanes.any fixedLane || (1 ≤ e.keyLane && fixedLane e.keyLane)

/-- How a lane map changes at one entry. -/
inductive LaneChange where
  | added | replaced | same
  deriving DecidableEq, Repr

def LaneMap.put (m : LaneMap) (e : LaneEntry) : LaneMap × LaneChange :=
  match m.entries.find? (·.service == e.service) with
  | some old =>
    ({ m with entries := m.entries.map fun x => if x.service == e.service then e else x },
     if old.lanes = e.lanes ∧ old.keyLane = e.keyLane then .same else .replaced)
  | none =>
    if m.entries.length < 64 then
      ({ m with entries := insertBy (fun a b => a.service < b.service) e m.entries }, .added)
    else (m, .same)

/-- Whether a session's service field names a service. -/
def Session.onService (s : Session) (n : Nat) : Bool :=
  match s.service with
  | some e => e.service == n
  | none => false

/-- The states in which a lane-map change of its service reaches a session that has it. -/
def Session.hasService (s : Session) : Bool :=
  match s.state with
  | .checking | .presenting => true
  | .held => !s.reasons.terminal
  | _ => false

/-- An entry added or replaced with different lanes is handed to one session (R41); a re-evaluation follows a change of the key lane only
(log 76). -/
def laneEntryChanged (t : Fin 4) (e : LaneEntry) (c : Core) (o : Output) : Core :=
  let s := session c o
  if s.tuner ≠ some t then c
  else if s.state = .opening && serviceOf c s = some e.service then enterChecking o e c
  else if s.hasService && s.onService e.service then
    let rekey := (s.service.map (·.keyLane)) ≠ some e.keyLane
    let c := setSession o { s with service := some e } c
    if rekey then reevaluate (bindService o e c) else c
  else c

/-- A removed entry returns its sessions to OPENING (R41). -/
def laneEntryRemoved (t : Fin 4) (n : Nat) (c : Core) (o : Output) : Core :=
  let s := session c o
  if s.tuner = some t && s.hasService && s.onService n then
    let c := setSession o s.toOpening c
    if s.change.inFlight then c else postSession o c
  else c

/-- One entry of a lane-map segment is taken into the tuner's map and handed to each output's session in turn, before the next entry is
read (R40 step 4, log 75). -/
def takeLaneEntry (t : Fin 4) (version : Nat) (c : Core) (e : LaneEntry) : Core :=
  if LaneEntry.dropped e then c
  else
    let e := { e with version := version }
    let (m, ch) := (laneMap c t).put e
    let c := setLaneMap t m c
    if ch = LaneChange.same then c else allOutputs.foldl (laneEntryChanged t e) c

/-- The seen-set holds every number from 0 to `last`. -/
def seenAll (seen : List Nat) (last : Nat) : Bool := (List.range (last + 1)).all seen.contains

def joinSeen (n : Nat) (seen : List Nat) : List Nat := if seen.contains n then seen else n :: seen

/-- The version of a lane map becomes complete: entries of other versions are removed, then handed on in ascending service number, each to
every output's session (R40 step 5, log 75). -/
def completeLaneMap (t : Fin 4) (version : Nat) (c : Core) : Core :=
  let m := laneMap c t
  let gone := (m.entries.filter (·.version != version)).map (·.service)
  let c := setLaneMap t { m with entries := m.entries.filter (·.version == version), complete := some version,
                                 working := none } c
  gone.foldl (fun c n => allOutputs.foldl (laneEntryRemoved t n) c) c

/-- A lane-map segment handed over (R40). -/
def takeLaneMap (t : Fin 4) (h : SegmentHeader) (entries : List LaneEntry) (c : Core) : Core :=
  let m := laneMap c t
  if m.complete = some h.version then c
  else if h.last ≥ 8 || h.number > h.last then c
  else
    let m := if m.working = some h.version then m else { m with working := some h.version, seen := [] }
    let c := entries.foldl (takeLaneEntry t h.version) (setLaneMap t m c)
    let m := laneMap c t
    let m := { m with seen := joinSeen h.number m.seen }
    let c := setLaneMap t m c
    if seenAll m.seen h.last then completeLaneMap t h.version c else c

/-! ## The change report at the sessions (R10, R60 to R62) -/

inductive ChangeClass where
  | vanished | moved | renumbered | altered | added | unchanged
  deriving DecidableEq, Repr

/-- A session's states to which the change report applies: not IDLE, not HELD with a terminal reason. -/
def Session.reported (s : Session) : Bool :=
  s.state != .idle && !(s.state == .held && s.reasons.terminal)

/-- A MOVED channel's session is claimed anew (R61, log 24); refused, it goes to IDLE. -/
def moveSession (o : Output) (old new : Carrier) (c : Core) : Core :=
  let s := session c o
  match s.lcn with
  | none => c
  | some lcn =>
    let c := post (.channelMoved o lcn (some old) (some new)) c
    let tag := if s.change.inFlight then s.change else .untagged
    claimFor o lcn new tag s.origin .host
      (fun c => endChange o { s with change := tag } .noTuner none (toIdle o c)) c

/-- A RENUMBERED channel's session looks up its new service number (R62, log 34). -/
def renumberSession (o : Output) (c : Core) : Core :=
  let s := session c o
  match s.state with
  | .opening => tryChecking o s c
  | .checking | .presenting | .held => reopen o c
  | .dark => setSession o { s with ret := some .opening } c
  | _ => c

/-- The change report's class of a session's channel is applied to it; `cls` classes an LCN, with its old and new carriers. -/
def reportSession (cls : Nat → ChangeClass × Option Carrier × Option Carrier) (c : Core) (o : Output) : Core :=
  let s := session c o
  match s.lcn with
  | none => c
  | some lcn =>
    if s.reported then
      match cls lcn with
      | (.vanished, _, _) => loseService o c
      | (.moved, some a, some b) => moveSession o a b c
      | (.renumbered, _, _) => renumberSession o c
      | _ => c
    else c

/-- The report at the sessions, then the directory re-evaluation. -/
def reportToSessions (cls : Nat → ChangeClass × Option Carrier × Option Carrier) (c : Core) : Core :=
  reevaluate (allOutputs.foldl (reportSession cls) c)

/-! ## Waits (R45, R47) -/

def laneWaitExpired (o : Output) (c : Core) : Core :=
  let s := session c o
  if s.laneWait.running then
    let c := setSession o { s with laneWait := s.laneWait.expired } c
    if s.state = .opening then loseService o c else c
  else c

def onlyNoKey : Reasons := { Reasons.none with noKey := true }

def keyWaitExpired (o : Output) (c : Core) : Core :=
  let s := session c o
  if s.keyWait.running then
    let s' := { s with keyWait := s.keyWait.expired }
    if s.state = .checking then arrive o s (s'.toHeld onlyNoKey) true c else setSession o s' c
  else c

/-! ## Requests (R42, R51, R65) -/

def outputOf : Nat → Option Output
  | 0 => some .roomA
  | 1 => some .roomB
  | 2 => some .record1
  | 3 => some .record2
  | _ => none

def Origin.isBooking : Origin → Bool
  | .booking _ => true
  | .host => false

def lcnInRange (n : Nat) : Bool := 1 ≤ n && n ≤ 9999

/-- SELECT CHANNEL (R42). -/
def selectChannel (tag : Byte) (a : SelectReq) (c : Core) : Answer × Core :=
  match outputOf a.output with
  | none => (.bare .badRequest, c)
  | some o =>
    if !lcnInRange a.lcn then (.bare .badRequest, c)
    else
      match findChannel c a.lcn with
      | none => (.bare .noSuch, c)
      | some e =>
        if (Output.room o).isSome && c.clock.power = .standby then (.bare .standby, c)
        else if (Output.room o).isNone && (session c o).origin.isBooking then (.bare .booked, c)
        else (.bare .accepted, select o a.lcn e (.tag tag) .host .host (endGrant o c))

/-- STOP OUTPUT (R51). -/
def stopOutput (n : Nat) (c : Core) : Answer × Core :=
  match outputOf n with
  | none => (.bare .badRequest, c)
  | some o =>
    if (Output.room o).isNone && (session c o).origin.isBooking then (.bare .booked, c)
    else (.bare .ok, stopSession o c)

def sessionReport (c : Core) (o : Output) : SessionReport :=
  let s := session c o
  let x := (Output.room o).map (context c)
  { output := o, session := s, keyState := s.slot.map fun k => (keySlot c k).state,
    tunerState := s.tuner.map fun t => (tuner c t).state, profile := x.map (·.active),
    savedPresent := (x.bind (·.saved)).isSome, grantPresent := (x.bind (·.grant)).isSome }

/-- SESSION STATUS (R65). -/
def sessionStatus (a : Option Nat) (c : Core) : Answer :=
  match a with
  | none => { code := .ok, body := .sessions (allOutputs.map (sessionReport c)) }
  | some n =>
    match outputOf n with
    | none => .bare .badRequest
    | some o => { code := .ok, body := .sessions [sessionReport c o] }

/-! ## Meanings -/

def execSelectChannel (tag : Byte) (a : Option SelectReq) (s : State) : Host.Outcome State Fault Refusal :=
  .next (answeredWith (.selectChannel tag a) tag a (selectChannel tag) s)

def execStopOutput (tag : Byte) (a : Option Nat) (s : State) : Host.Outcome State Fault Refusal :=
  .next (answeredWith (.stopOutput tag a) tag a stopOutput s)

def execSessionStatus (tag : Byte) (a : Option (Option Nat)) (s : State) : Host.Outcome State Fault Refusal :=
  .next (answeredWith (.sessionStatus tag a) tag a (fun x => readOnly (sessionStatus x)) s)

def execLaneMapWait (o : Output) (s : State) : Host.Outcome State Fault Refusal := .next (onCore (laneWaitExpired o) s)
def execKeyWait (o : Output) (s : State) : Host.Outcome State Fault Refusal := .next (onCore (keyWaitExpired o) s)

end Sys2Proof.Machine
end

