-- ==== Sys2Proof/Machine/GrantTable.lean ====
section
/-! DEFINITION. The Grant Table's lists, its record group, expiry, and the issue record (R83 to R89, R95, R99 to R104). -/

namespace Sys2Proof.Machine

open Sys2Proof

/-! ## The grant lists (R87, R88, R94) -/

/-- ADD PACKAGE: replaces the grant of the id, or adds one while fewer than 48 are held (R94). -/
def addPackage (id first last : Nat) (l : List PackageGrant) : List PackageGrant :=
  if l.any (·.id == id) then l.map fun g => if g.id == id then ⟨id, first, last⟩ else g
  else if l.length < 48 then insertBy (fun a b => a.id < b.id) ⟨id, first, last⟩ l
  else l

/-- Ascending expiry, then LCN, then event id (R88). -/
def EventGrant.before (a b : EventGrant) : Bool :=
  a.expiry < b.expiry || (a.expiry == b.expiry && (a.lcn < b.lcn || (a.lcn == b.lcn && a.event < b.event)))

def EventGrant.same (a b : EventGrant) : Bool := a.lcn == b.lcn && a.event == b.event

/-- Puts a grant in its place, in place of the one of its LCN and event id. -/
def placeGrant (g : EventGrant) (l : List EventGrant) : List EventGrant :=
  insertBy EventGrant.before g (l.filter fun x => !x.same g)

/-- Places of the event list for additions other than the purchase in flight (R88). -/
def eventPlaces (c : Core) : Nat := if c.purchase.inFlight.isSome then 23 else 24

/-- A purchased grant is installed: an entry held takes source PURCHASE and the later expiry (R88). -/
def installGrant (g : EventGrant) (l : List EventGrant) : List EventGrant :=
  match l.find? (·.same g) with
  | some x => placeGrant { g with expiry := max x.expiry g.expiry } l
  | none => placeGrant g l

def setEvents (l : List EventGrant) (c : Core) : Core := { c with access := { c.access with events := l } }
def setPackages (l : List PackageGrant) (c : Core) : Core := { c with access := { c.access with packages := l } }

/-! ## The record group (R95) -/

/-- Whether a waiting group holds a CREDIT record. -/
def creditWaits (st : Store) : Bool :=
  st.queue.any fun x => x.key == ⟨.bulletinNumbers, 0⟩ && x.records.any (·.1.kind == .credit)

def groupItem (c : Core) (credit : Bool) : Item :=
  let a := c.access
  let rs : List (StoreKey × RecordBody) :=
    [(⟨.package, 0⟩, .packages a.packages), (⟨.eventGrant, 0⟩, .eventGrants a.events),
     (⟨.bulletinNumbers, 0⟩, .bulletinNumbers a.cut a.last)]
  let cr : List (StoreKey × RecordBody) :=
    [(⟨.credit, 0⟩, .credit c.purchase.balance c.purchase.limit c.purchase.charged)]
  { key := ⟨.bulletinNumbers, 0⟩, records := if credit then rs ++ cr else rs, urgent := credit }

/-- The group is posted with the state as it stands; it holds a CREDIT record when asked, when a waiting group does, and when an
owed one does (R95, log 17). -/
def commitGroup (credit : Bool) (c : Core) : Core :=
  let credit := credit || creditWaits c.store || (c.access.groupOwed && c.access.groupOwedCredit)
  match offer (groupItem c credit) c with
  | (.queueFull, c) => { c with access := { c.access with groupOwed := true, groupOwedCredit := credit } }
  | (.duringWipe, c) => c
  | (_, c) => { c with access := { c.access with groupOwed := false, groupOwedCredit := false } }

def postGrants (cause : GrantsCause) (c : Core) : Core :=
  post (.grantsChanged cause c.access.packages.length c.access.events.length c.access.cut) c

/-! ## Expiry (R99, R100) -/

/-- Event grants whose expiry is not after `now` are removed (R100). -/
def expireEvents (now : Nat) (c : Core) : Core :=
  if c.access.events.any (·.expiry ≤ now) then
    reevaluate (commitGroup false (postGrants .expiry (setEvents (c.access.events.filter (now < ·.expiry)) c)))
  else c

/-- The day rollover removes the package grants that have ended; the rollover's own re-evaluation covers the access change (R99, R195). -/
def expirePackages (today : Int) (c : Core) : Core :=
  if c.access.packages.any fun g => (g.last : Int) < today then
    commitGroup false (postGrants .expiry (setPackages (c.access.packages.filter fun g => today ≤ (g.last : Int)) c))
  else c

/-! ## Load and wipe (R101, R102) -/

/-- The defaults at the completion of a wipe; the issue record is unchanged. The wipe's own re-evaluation, which follows the Limit Unit's
defaults, covers the access change (R102, R187, log 71). -/
def wipeAccess (c : Core) : Core :=
  let c := { c with access := { c.access with packages := [], events := [], cut := false, last := Vector.replicate 5 none,
                                               groupOwed := false, groupOwedCredit := false } }
  postGrants .wipe c

/-! ## The issue record (R83 to R85) -/

def noRepeats : List Nat → Bool
  | [] => true
  | x :: xs => !xs.contains x && noRepeats xs

/-- The checks of ISSUE's fields (R84). -/
def IssueReq.fields (a : IssueReq) : Option IssueFields :=
  if a.address = 0 || a.address > 0xFFFFFFFF || a.groups.length > 4 || a.groups.any (fun g => g == 0 || g > 65535)
      || !noRepeats a.groups || a.key.length ≠ 16 then none
  else some ⟨a.address, a.groups, BitVec.ofNat 128 (number a.key)⟩

/-- Whether ISSUE's write begins, or the code that answers it at once (R84). -/
def issueStart (a : Option IssueReq) (c : Core) : Except Code IssueWrite :=
  match a.bind IssueReq.fields with
  | none => .error .badRequest
  | some f => if c.access.issue.isLocked then .error .issueLocked else .ok (.issue f)

/-- Whether LOCK ISSUE's write begins (R85). -/
def lockStart (a : Option Unit) (c : Core) : Except Code IssueWrite :=
  match a, c.access.issue with
  | none, _ => .error .badRequest
  | _, .blank => .error .notIssued
  | _, .locked _ => .error .issueLocked
  | _, .written _ => .ok .lockFlag

/-- A request answered when its issue-area write ends: the head waits meanwhile (R215). -/
def answeredLater (i : Instr) (tag : Byte) (start : Core → Except Code IssueWrite) : State → State :=
  request i tag (unlessScanning tag fun s =>
    match start s.core with
    | .error code => replyHead (.reply tag code .none) s
    | .ok w => { s with core := { s.core with access := { s.core.access with issueWrite := some w } } })

/-- The tag of the request that waits for the issue area. -/
def headTag (s : State) : Byte :=
  match s.front.intake.head? with
  | some (.issue t _) | some (.lockIssue t _) => t
  | _ => 0

def setIssue (i : Issue) (c : Core) : Core := { c with access := { c.access with issue := i, issueWrite := none } }

/-- The verified write of the issue area ends (R84). -/
def issueWriteDone (ok : Bool) (s : State) : State :=
  match s.core.access.issueWrite with
  | some (.issue f) =>
    replyHead (.reply (headTag s) (if ok then .ok else .storeFault) .none)
      { s with core := reevaluate (setIssue (if ok then .written f else .blank) s.core) }
  | _ => s

/-- The verified write of the locked flag ends; issued operation begins (R85). -/
def lockIssueWriteDone (ok : Bool) (s : State) : State :=
  match s.core.access.issueWrite, s.core.access.issue with
  | some .lockFlag, .written f =>
    if ok then
      let c := setIssue (.locked f) s.core
      let c := { c with access := { c.access with last := Vector.replicate 5 none } }
      replyHead (.reply (headTag s) .ok .none) { s with core := reevaluate c }
    else replyHead (.reply (headTag s) .storeFault .none) { s with core := setIssue (.written f) s.core }
  | _, _ => s

/-! ## Status requests (R103, R104) -/

def accessSummary (c : Core) : AccessSummary :=
  { issueLocked := c.access.issue.isLocked, cut := c.access.cut, packages := c.access.packages.length,
    events := c.access.events.length, today := c.clock.today, last := c.access.last, groupOwed := c.access.groupOwed }

/-- ACCESS STATUS; the next position of PACKAGES is the id of the first grant not returned (R103, log 60). -/
def accessStatus (a : AccessReq) (c : Core) : Answer :=
  let locked := c.access.issue.isLocked
  match a.selector with
  | 0 =>
    if 1 ≤ a.position && a.position ≤ 4095 then
      let l := if locked then c.access.packages.filter (a.position ≤ ·.id) else []
      let valid := fun g : PackageGrant => match c.clock.today with
        | some d => g.validOn d
        | none => false
      { code := .ok, body := .packages (accessSummary c) ((l.take 16).map fun g => (g, valid g))
          ((l.drop 16).head?.map (·.id)) }
    else .bare .badRequest
  | 1 =>
    if a.position ≤ 23 then
      let l := if locked then c.access.events.drop a.position else []
      { code := .ok, body := .events (accessSummary c) (l.take 12) (if l.length > 12 then some (a.position + 12) else none) }
    else .bare .badRequest
  | _ => .bare .badRequest

def IssueFields.report (f : IssueFields) : IssueReport :=
  { address := f.address, groups := (List.range f.groups.length).zip f.groups |>.map fun x => (x.1 + 1, x.2), keyHeld := true }

def issueStatus (_ : Unit) (c : Core) : Answer :=
  let condition := match c.access.issue with
    | .blank => IssueCondition.blank
    | .written _ => .written
    | .locked _ => .locked
  { code := .ok, body := .issue condition (c.access.issue.fields.map IssueFields.report) }

/-! ## Meanings -/

def execIssue (tag : Byte) (a : Option IssueReq) (s : State) : Host.Outcome State Fault Refusal :=
  .next (answeredLater (.issue tag a) tag (issueStart a) s)
def execIssueWriteDone (ok : Bool) (s : State) : Host.Outcome State Fault Refusal := .next (issueWriteDone ok s)
def execLockIssue (tag : Byte) (a : Option Unit) (s : State) : Host.Outcome State Fault Refusal :=
  .next (answeredLater (.lockIssue tag a) tag (lockStart a) s)
def execLockIssueWriteDone (ok : Bool) (s : State) : Host.Outcome State Fault Refusal := .next (lockIssueWriteDone ok s)
def execAccessStatus (tag : Byte) (a : Option AccessReq) (s : State) : Host.Outcome State Fault Refusal :=
  .next (answeredWith (.accessStatus tag a) tag a (fun x => readOnly (accessStatus x)) s)
def execIssueStatus (tag : Byte) (a : Option Unit) (s : State) : Host.Outcome State Fault Refusal :=
  .next (answeredWith (.issueStatus tag a) tag a (fun x => readOnly (issueStatus x)) s)

end Sys2Proof.Machine
end

