-- ==== Sys2Proof/Machine/Limits.lean ====
section
/-! DEFINITION. The Limit Unit: the PIN record and its check, profiles, unlock grants, allowances, the lock list and their
requests (R124 to R148). -/

namespace Sys2Proof.Machine

open Sys2Proof

/-! ## Commits and their owed marks (R128, R129, R140, R142) -/

def owe (k : LimitCommit) (l : List LimitCommit) : List LimitCommit := if l.contains k then l else l ++ [k]

def setLimits (x : Limits) (c : Core) : Core := { c with limits := x }

def usedVector (c : Core) : Vector Nat 6 :=
  let u := fun n => ((profileOf c n).map (·.used)).getD 0
  #v[u 0, u 1, u 2, u 3, u 4, u 5]

/-- The record each kind of commit carries, from the state as it stands; USED_TODAY names no day while today is absent (R140, log 72). -/
def limitItem (c : Core) : LimitCommit → Item
  | .pin => .single .pin 0 (.pin c.limits.pin c.limits.count)
  | .usedToday => .single .usedToday 0 (.usedToday (usedVector c) c.clock.today)
  | .lockList => .single .lockList 0 (.lockList c.limits.lockList)
  | .settings => .single .settings 4 (.roomDefaults (context c .a).default (context c .b).default)

/-- A commit of the Limit Unit: owed when the queue is full, its owed mark cleared otherwise. -/
def commitLimit (k : LimitCommit) (c : Core) : OfferAnswer × Core :=
  match offer (limitItem c k) c with
  | (.queueFull, c) => (.queueFull, setLimits { c.limits with owed := owe k c.limits.owed } c)
  | (.duringWipe, c) => (.duringWipe, c)
  | (a, c) => (a, setLimits { c.limits with owed := c.limits.owed.filter (· != k) } c)

def commitLimit' (k : LimitCommit) (c : Core) : Core := (commitLimit k c).2

/-- A setting whose record the commit `k` also carries: its reply follows the queue's answer, and a refusal with STORE_FULL or
STORE_FAULT clears the owed mark (R128, R129, R142). -/
def settleLimit (k : LimitCommit) (it : Item) (change : Core → Core) (c : Core) : Answer × Core :=
  match offer it c with
  | (.taken, c) => (.bare .ok, change c)
  | (.storeFull, c) => (.bare .storeFull, setLimits { c.limits with owed := c.limits.owed.filter (· != k) } c)
  | (.storeFault, c) => (.bare .storeFault, setLimits { c.limits with owed := c.limits.owed.filter (· != k) } c)
  | (a, c) => (.bare a.code, c)

/-! ## The PIN check (R126 to R128) -/

inductive PinAnswer where
  | pass | wrong | lockedOut | busy
  deriving DecidableEq, Repr

/-- A wrong PIN: the count rises, its commit sets the failure-commit flag, and a third failure starts the lockout (R127, R128). -/
def pinFailure (c : Core) : Core :=
  let n := c.limits.count + 1
  let (a, c) := commitLimit .pin (setLimits { c.limits with count := n } c)
  let c := if a = .taken then setLimits { c.limits with failFlag := true } c else c
  if n = 3 then post (.pinLockout .failures 15) (setLimits { c.limits with lockout := Timer.start 900000 } c) else c

/-- A correct PIN clears a count of 1 or 2 (R127). -/
def pinSuccess (c : Core) : Core :=
  if c.limits.count = 0 then c else commitLimit' .pin (setLimits { c.limits with count := 0 } c)

/-- No free place and no waiting PIN item. -/
def noPinRoom (c : Core) : Bool := freePlaces c.store == 0 && !isWaiting c.store .pin 0

/-- The PIN check, settled by the first line of R126 that applies. -/
def pinCheck (p : Option Pin) (c : Core) : PinAnswer × Core :=
  if c.store.state = .wiping then (.busy, c)
  else if c.limits.failFlag then (.busy, c)
  else if c.limits.lockout.running then (.lockedOut, c)
  else
    match c.limits.pin, p with
    | none, _ => (.pass, c)
    | some _, none => (.wrong, c)
    | some pin, some x =>
      if noPinRoom c then (.busy, c)
      else if x = pin then (.pass, pinSuccess c)
      else (.wrong, pinFailure c)

/-- A request goes on to its own work only when the PIN check passes (R125). -/
def withPin (p : Option Pin) (k : Core → Answer × Core) (c : Core) : Answer × Core :=
  match pinCheck p c with
  | (.pass, c) => k c
  | (.wrong, c) => (.bare .pinWrong, c)
  | (.lockedOut, c) => (.bare .pinLockedOut, c)
  | (.busy, c) => (.bare .busy, c)

def pinFormed (p : Pin) : Bool := 4 ≤ p.length && p.length ≤ 8 && p.all fun d => 0x30 ≤ d.toNat && d.toNat ≤ 0x39

/-- The lockout timer expires (R128). -/
def lockoutExpired (c : Core) : Core :=
  if c.limits.lockout.running then
    commitLimit' .pin (setLimits { c.limits with lockout := c.limits.lockout.expired, count := 0 } c)
  else c

/-- The Account Store reports a PIN item written, failed or ended by a wipe; `writing` says whether it was being written or waited. The
failure-commit flag is cleared when it follows that item (R127). -/
def pinReported (writing : Bool) (c : Core) : Core :=
  if c.limits.failWriting = writing then setLimits { c.limits with failFlag := false, failWriting := false } c else c

/-! ## Unlock grants and profiles (R133 to R138) -/

def roomOf : Nat → Option Room
  | 0 => some .a
  | 1 => some .b
  | _ => none

def unlockRoom (a : RoomPinReq) (c : Core) : Answer × Core :=
  match roomOf a.room with
  | none => (.bare .badRequest, c)
  | some r =>
    match (session c (Room.output r)).lcn with
    | none => (.bare .noSuch, c)
    | some lcn =>
      withPin a.pin (fun c =>
        let g : UnlockGrant := ⟨lcn, (session c (Room.output r)).event⟩
        (.bare .ok, reevaluate (setContext r { context c r with grant := some g } c))) c

def relockRoom (n : Nat) (c : Core) : Answer × Core :=
  match roomOf n with
  | none => (.bare .badRequest, c)
  | some r =>
    if (context c r).grant.isSome then (.bare .ok, reevaluate (setContext r { context c r with grant := none } c))
    else (.bare .ok, c)

def relockContext (r : Room) (c : Core) : Core :=
  let x := context c r
  setContext r { x with grant := none, saved := x.saved.map fun v => { v with grant := none } } c

def hasGrant (x : RoomContext) : Bool := x.grant.isSome || ((x.saved.bind (·.grant)).isSome)

def relockAll (_ : Unit) (c : Core) : Answer × Core :=
  if hasGrant (context c .a) || hasGrant (context c .b) then
    (.bare .ok, reevaluate (relockContext .b (relockContext .a c)))
  else (.bare .ok, c)

/-- The switch of R135. -/
def switchTo (r : Room) (n : Nat) (c : Core) : Answer × Core :=
  let x := context c r
  let saved := match x.saved with
    | some v => v
    | none => ⟨x.active, x.grant⟩
  (.bare .ok, reevaluate (setContext r { x with saved := some saved, active := n, grant := none } c))

def switchProfile (a : ProfilePinReq) (c : Core) : Answer × Core :=
  match roomOf a.room with
  | none => (.bare .badRequest, c)
  | some r =>
    if a.profile > 5 then (.bare .badRequest, c)
    else if (profileOf c a.profile).isNone then (.bare .noSuch, c)
    else if c.clock.power = .standby then (.bare .standby, c)
    else if a.profile = 0 then withPin a.pin (switchTo r a.profile) c
    else switchTo r a.profile c

def returnProfile (n : Nat) (c : Core) : Answer × Core :=
  match roomOf n with
  | none => (.bare .badRequest, c)
  | some r =>
    let x := context c r
    match x.saved with
    | none => (.bare .notSwitched, c)
    | some v =>
      let s := session c (Room.output r)
      let grant := v.grant.filter fun g => match s.lcn with
        | some lcn => g.covers lcn s.event
        | none => false
      (.bare .ok, reevaluate (setContext r { x with active := v.profile, grant := grant, saved := none } c))

def setDefault (r : Room) (n : Nat) (c : Core) : Core := setContext r { context c r with default := n } c

def setRoomDefault (a : ProfilePinReq) (c : Core) : Answer × Core :=
  match roomOf a.room with
  | none => (.bare .badRequest, c)
  | some r =>
    if a.profile > 5 then (.bare .badRequest, c)
    else if (profileOf c a.profile).isNone then (.bare .noSuch, c)
    else
      withPin a.pin (fun c =>
        settleLimit .settings (limitItem (setDefault r a.profile c) .settings)
          (fun c => setLimits { c.limits with owed := c.limits.owed.filter (· != .settings) } (setDefault r a.profile c)) c) c

/-- A room context starts from the room's default (R137). -/
def RoomContext.restart (x : RoomContext) : RoomContext := { x with active := x.default, saved := none, grant := none }

def restartContexts (c : Core) : Core :=
  setContext .b (context c .b).restart (setContext .a (context c .a).restart c)

/-! ## Profiles (R142) -/

def Window.formed (w : Window) : Bool := w.start ≤ 1439 && w.stop ≤ 1440 && w.start < w.stop

def ProfileFields.formed (f : ProfileFields) : Bool :=
  f.ceiling ≤ 7 && f.allowance ≤ 1440 && f.windows.length ≤ 4 && f.windows.all (fun w => Window.formed w) &&
    f.purchaseCeiling ≤ 1000000

def ProfileFields.profile (f : ProfileFields) (used : Nat) : Profile :=
  { ceiling := f.ceiling, allowance := f.allowance, used := min used f.allowance, windows := f.windows,
    purchaseCeiling := f.purchaseCeiling }

def putProfile (n : Nat) (p : Option Profile) (c : Core) : Core :=
  if h : n < 6 then setLimits { c.limits with profiles := c.limits.profiles.set n p h } c else c

/-- One room's references move away from a profile that is removed. -/
def RoomContext.without (x : RoomContext) (n : Nat) : RoomContext :=
  let rep := if x.default = n then 0 else x.default
  { default := rep
    active := if x.active = n then rep else x.active
    saved := x.saved.map fun v => if v.profile = n then { v with profile := rep } else v
    grant := if x.active = n then none else x.grant }

def removeProfile (n : Nat) (c : Core) : Core :=
  let named := (context c .a).default = n ∨ (context c .b).default = n
  let c := setContext .b ((context c .b).without n) (setContext .a ((context c .a).without n) c)
  let c := if named then commitLimit' .settings c else c
  putProfile n none c

/-- The profile a SET action leaves. -/
def editedProfile (c : Core) (n : Nat) (f : ProfileFields) : Profile :=
  ProfileFields.profile f (((profileOf c n).map (·.used)).getD 0)

def applyProfile (n : Nat) (f : Option ProfileFields) (c : Core) : Core :=
  match f with
  | none => reevaluate (removeProfile n c)
  | some f =>
    let used := ((profileOf c n).map (·.used)).getD 0
    let p := editedProfile c n f
    let c := putProfile n (some p) c
    reevaluate (if p.used < used then commitLimit' .usedToday c else c)

def setProfile (a : SetProfileReq) (c : Core) : Answer × Core :=
  if a.profile < 1 || a.profile > 5 then (.bare .badRequest, c)
  else if a.fields.any fun f => !ProfileFields.formed f then (.bare .badRequest, c)
  else if a.fields.isNone && (profileOf c a.profile).isNone then (.bare .noSuch, c)
  else
    withPin a.pin (fun c =>
      settle (.single .profile a.profile (.profile (a.fields.map (editedProfile c a.profile))))
        (applyProfile a.profile a.fields) c) c

/-! ## The PIN and the lock list (R143 to R145, R129) -/

def setPin (a : SetPinReq) (c : Core) : Answer × Core :=
  if a.new.any fun p => !pinFormed p then (.bare .badRequest, c)
  else
    withPin a.old (fun c =>
      settleLimit .pin (.single .pin 0 (.pin a.new 0))
        (fun c => setLimits { c.limits with pin := a.new, count := 0, owed := c.limits.owed.filter (· != .pin) } c) c) c

def commitList (l : List Nat) (c : Core) : Answer × Core :=
  settleLimit .lockList (.single .lockList 0 (.lockList l))
    (fun c => reevaluate (setLimits { c.limits with lockList := l, owed := c.limits.owed.filter (· != .lockList) } c)) c

def lockChannel (a : LcnPinReq) (c : Core) : Answer × Core :=
  if !lcnInRange a.lcn then (.bare .badRequest, c)
  else if (findChannel c a.lcn).isNone then (.bare .noSuch, c)
  else if c.limits.lockList.contains a.lcn then withPin a.pin (fun c => (.bare .ok, c)) c
  else if c.limits.lockList.length ≥ 64 then (.bare .full, c)
  else withPin a.pin (fun c => commitList (insertBy (fun a b => a < b) a.lcn c.limits.lockList) c) c

def unlockChannel (a : LcnPinReq) (c : Core) : Answer × Core :=
  if !lcnInRange a.lcn then (.bare .badRequest, c)
  else if !c.limits.lockList.contains a.lcn then (.bare .noSuch, c)
  else withPin a.pin (fun c => commitList (c.limits.lockList.filter (· != a.lcn)) c) c

/-- The change report removes the VANISHED LCNs from the lock list (R129). -/
def reportToLocks (vanished : Nat → Bool) (c : Core) : Core :=
  if c.limits.lockList.any vanished then
    commitLimit' .lockList (setLimits { c.limits with lockList := c.limits.lockList.filter (fun l => !vanished l) } c)
  else c

/-! ## Windows and allowances (R131, R139 to R141) -/

/-- A window of a profile opens or closes at a local minute. -/
def Profile.boundary (p : Profile) (m : Nat) : Bool := p.windows.any fun w => w.start == m || w.stop == m

/-- The clock minute at the Limit Unit (R131). -/
def limitMinute (c : Core) : Core :=
  match localMinute c.clock with
  | none => c
  | some m =>
    if allRooms.any fun r => (session c (Room.output r)).state != .idle && (activeProfile c r).boundary m then reevaluate c
    else c

/-- A setting, correction or jump of the clock, or a change of the offset (R131). -/
def limitClockChanged (c : Core) : Core :=
  if allRooms.any fun r => !(activeProfile c r).windows.isEmpty then reevaluate c else c

/-- Whether the allowance minute charges a profile (R139). -/
def charged (c : Core) (n : Nat) : Bool :=
  allRooms.any (fun r => (context c r).active == n && (session c (Room.output r)).state == .presenting) &&
    (match profileOf c n with
     | some p => p.allowance < 1440 && p.used < p.allowance
     | none => false)

/-- One charge and its marks (R140). -/
def charge (c : Core) (n : Nat) : Core :=
  match profileOf c n with
  | none => c
  | some p =>
    let u := p.used + 1
    let c := putProfile n (some { p with used := u }) c
    let c := if u + 10 = p.allowance then post (.allowanceLow n u p.allowance) c else c
    let c := if u = p.allowance then reevaluate c else c
    if u % 5 = 0 || u = p.allowance then commitLimit' .usedToday c else c

/-- The allowance minute expires and restarts; the profiles are charged and acted on one after the other, in ascending order (R139, R140,
log 64). -/
def allowanceMinute (c : Core) : Core :=
  if c.limits.minute.running then
    let ns := [0, 1, 2, 3, 4, 5].filter (charged c)
    ns.foldl charge (setLimits { c.limits with minute := Timer.start 60000 } c)
  else c

/-- The day rollover at the Limit Unit (R141). -/
def limitRollover (c : Core) : Core :=
  let ps := c.limits.profiles
  let z := fun (p : Option Profile) => p.map fun x => { x with used := 0 }
  let c := setLimits { c.limits with profiles := #v[z ps[0], z ps[1], z ps[2], z ps[3], z ps[4], z ps[5]] } c
  reevaluate (commitLimit' .usedToday c)

/-! ## Wipe (R148) -/

/-- The Limit Unit's defaults at the completion of a wipe, with the wipe's one re-evaluation: it finds the purchase log empty, so an
offer may be posted for an event whose record is lost (R148, R156, R187, logs 71, 73). -/
def wipeLimits (c : Core) : Core :=
  let c := setLimits { Limits.reset with lockout := c.limits.lockout.stop, minute := c.limits.minute } c
  reevaluate (setContext .b .reset (setContext .a .reset c))

/-! ## LIMIT STATUS (R146) -/

def roomLimits (c : Core) (r : Room) : RoomLimits :=
  let s := session c (Room.output r)
  { context := context c r, verdict := s.lcn.map fun lcn => limitVerdict c r lcn s.event }

def limitStatus (_ : Unit) (c : Core) : Answer :=
  let l := c.limits
  { code := .ok, body := .limits
      { pinSet := l.pin.isSome, count := l.count, lockout := l.lockout.remaining, failFlag := l.failFlag, owed := l.owed,
        profiles := l.profiles.toList, lockList := l.lockList, roomA := roomLimits c .a, roomB := roomLimits c .b,
        minute := l.minute.remaining } }

/-! ## Meanings -/

def execUnlockRoom (tag : Byte) (a : Option RoomPinReq) (s : State) : Host.Outcome State Fault Refusal :=
  .next (answeredWith (.unlockRoom tag a) tag a unlockRoom s)
def execRelockRoom (tag : Byte) (a : Option Nat) (s : State) : Host.Outcome State Fault Refusal :=
  .next (answeredWith (.relockRoom tag a) tag a relockRoom s)
def execRelockAll (tag : Byte) (a : Option Unit) (s : State) : Host.Outcome State Fault Refusal :=
  .next (answeredWith (.relockAll tag a) tag a relockAll s)
def execSwitchProfile (tag : Byte) (a : Option ProfilePinReq) (s : State) : Host.Outcome State Fault Refusal :=
  .next (answeredWith (.switchProfile tag a) tag a switchProfile s)
def execReturnProfile (tag : Byte) (a : Option Nat) (s : State) : Host.Outcome State Fault Refusal :=
  .next (answeredWith (.returnProfile tag a) tag a returnProfile s)
def execSetRoomDefault (tag : Byte) (a : Option ProfilePinReq) (s : State) : Host.Outcome State Fault Refusal :=
  .next (answeredWith (.setRoomDefault tag a) tag a setRoomDefault s)
def execSetProfile (tag : Byte) (a : Option SetProfileReq) (s : State) : Host.Outcome State Fault Refusal :=
  .next (answeredWith (.setProfile tag a) tag a setProfile s)
def execSetPin (tag : Byte) (a : Option SetPinReq) (s : State) : Host.Outcome State Fault Refusal :=
  .next (answeredWith (.setPin tag a) tag a setPin s)
def execLockChannel (tag : Byte) (a : Option LcnPinReq) (s : State) : Host.Outcome State Fault Refusal :=
  .next (answeredWith (.lockChannel tag a) tag a lockChannel s)
def execUnlockChannel (tag : Byte) (a : Option LcnPinReq) (s : State) : Host.Outcome State Fault Refusal :=
  .next (answeredWith (.unlockChannel tag a) tag a unlockChannel s)
def execLimitStatus (tag : Byte) (a : Option Unit) (s : State) : Host.Outcome State Fault Refusal :=
  .next (answeredWith (.limitStatus tag a) tag a (fun x => readOnly (limitStatus x)) s)
def execLockoutTimer (s : State) : Host.Outcome State Fault Refusal := .next (onCore lockoutExpired s)
def execAllowanceMinute (s : State) : Host.Outcome State Fault Refusal := .next (onCore allowanceMinute s)

end Sys2Proof.Machine
end

