-- ==== Sys2Proof/Machine/Uplink.lean ====
section
/-! DEFINITION. The Uplink Controller: due reports, sending, acknowledgement, failures, silence and recovery (R161 to R170). -/

namespace Sys2Proof.Machine

open Sys2Proof

def setUplinkState (x : Uplink) (c : Core) : Core := { c with uplink := x }
def setPurchase (x : Purchase) (c : Core) : Core := { c with purchase := x }

def unreported (p : Purchase) : List PurchaseRecord := p.log.filter (!·.reported)

/-! ## The report timer (R161) -/

/-- A report interval in force: the reload of the report timer, whose remaining time stays (R161, R196). -/
def Uplink.withInterval (n : Nat) (u : Uplink) : Uplink :=
  { u with interval := n, reportTimer := { u.reportTimer with reload := n * 60000 } }

/-- Started at the interval; not run while the interval is 0. -/
def startReportTimer (c : Core) : Core :=
  if c.uplink.interval = 0 then c
  else setUplinkState { c.uplink with reportTimer := Timer.start (c.uplink.interval * 60000) } c

def stopReportTimer (c : Core) : Core :=
  setUplinkState { c.uplink with reportTimer := c.uplink.reportTimer.stop } c

/-- Records became unreported: the timer starts when none was before. -/
def becameUnreported (before : Nat) (c : Core) : Core :=
  if before = 0 && !(unreported c.purchase).isEmpty then startReportTimer c else c

/-- Stopped when no unreported record remains. -/
def stopIfReported (c : Core) : Core := if (unreported c.purchase).isEmpty then stopReportTimer c else c

/-! ## Sending (R164) -/

/-- The attempt number is raised and a report handed to the modem, with the answer wait started. -/
def handReport (records : List PurchaseRecord) (parity : Bool) (c : Core) : Core :=
  let n := c.uplink.attempt + 1
  let address := (c.access.issue.fields.map (·.address)).getD 0
  setUplinkState { c.uplink with
    attempt := n, report := some { records := records, parity := parity, attempt := n },
    answerWait := Timer.start 5000, line := c.uplink.line ++ [reportBytes address parity n records] } c

/-- A send begins: up to 8 of the oldest records. -/
def sendReport (c : Core) : Core :=
  let c := handReport (c.purchase.log.take 8) c.uplink.parity c
  setUplinkState { c.uplink with state := .sending, slotRetries := 0, pendingFlag := false } c

/-- The due test (R161). -/
def dueTest (c : Core) : Core :=
  if c.uplink.state = .idle then
    if (unreported c.purchase).length ≥ 8 || (c.uplink.pendingFlag && !c.purchase.log.isEmpty) then sendReport c
    else if c.uplink.pendingFlag && c.purchase.log.isEmpty then setUplinkState { c.uplink with pendingFlag := false } c
    else c
  else c

/-! ## Acknowledgement (R157, R164, R165) -/

/-- One LOG_ACK commit; owed when the queue is full. -/
def commitLogAck (c : Core) : Core :=
  match offer (.single .logAck 0 (.logAck c.purchase.acked c.uplink.parity)) c with
  | (.queueFull, c) => setPurchase { c.purchase with logAckOwed := true } c
  | (.duringWipe, c) => c
  | (_, c) => setPurchase { c.purchase with logAckOwed := false } c

/-- The report in flight is acknowledged; the LOG_ACK commit and the due test follow. -/
def acknowledged (c : Core) : Core :=
  setUplinkState { c.uplink with
    state := .idle, report := none, parity := !c.uplink.parity, failures := 0, ackWait := c.uplink.ackWait.stop,
    answerWait := c.uplink.answerWait.stop } c

/-! ## Failure, silence and recovery (R166, R167) -/

def inReport (u : Uplink) (r : PurchaseRecord) : Bool :=
  match u.report with
  | some x => x.records.any (·.seq == r.seq)
  | none => false

def markReported (b : Bool) (c : Core) : Core :=
  setPurchase { c.purchase with
    log := c.purchase.log.map fun r => if inReport c.uplink r then { r with reported := b } else r } c

/-- A failure ends the report in flight (R166); the sixteenth makes the uplink SILENT (R167). -/
def failure (c : Core) : Core :=
  let before := (unreported c.purchase).length
  let c := becameUnreported before (markReported false c)
  let u := c.uplink
  let n := u.failures + 1
  let u := { u with answerWait := u.answerWait.stop, retry := u.retry.stop, ackWait := u.ackWait.stop, report := none,
                    failures := n, pendingFlag := true }
  if n < 16 then setUplinkState { u with state := .backoff, backoff := Timer.start 60000 } c
  else
    post (.uplinkState .silent .failures (some n) c.purchase.log.length)
      (setUplinkState { u with state := .silent, quiet := 0, release := false, quietTimer := Timer.start 60000 } c)

def recovers (u : Uplink) : Bool :=
  u.state == .silent && u.quiet == 32 &&
    (match u.mode with
     | .auto => true
     | .hold => u.release)

/-- Recovery is tested (R167). -/
def testRecovery (c : Core) : Core :=
  if recovers c.uplink then
    let u := c.uplink
    let c := setUplinkState { u with state := .idle, failures := 0, quiet := 0, release := false,
                                     quietTimer := u.quietTimer.stop } c
    dueTest (post (.uplinkState .idle .recovered none c.purchase.log.length) c)
  else c

/-! ## The modem and the timers (R163, R164) -/

/-- The report timer at SENT: started again while unreported records remain, stopped otherwise (R161). -/
def reportTimerSent (c : Core) : Core := if (unreported c.purchase).isEmpty then stopReportTimer c else startReportTimer c

/-- The modem's SENT: WAIT_ACK, or acknowledged at once when none of the report's records remains; the report timer follows in both
(R161, R164). -/
def answerSent (c : Core) : Core :=
  let c := setUplinkState { c.uplink with answerWait := c.uplink.answerWait.stop } c
  if c.purchase.log.any (inReport c.uplink) then
    let c := markReported true c
    reportTimerSent (setUplinkState { c.uplink with state := .waitAck, ackWait := Timer.start 1800000 } c)
  else dueTest (commitLogAck (acknowledged (reportTimerSent c)))

def modemAnswer (attempt answer : Byte) (c : Core) : Core :=
  let u := c.uplink
  if u.state = .sending && u.answerWait.running && attempt = u.attempt then
    match modemAnswerOf answer with
    | some .sent => answerSent c
    | some .noSlot =>
      if u.slotRetries < 4 then
        setUplinkState { u with answerWait := u.answerWait.stop, slotRetries := u.slotRetries + 1,
                                retry := Timer.start 2000 } c
      else failure c
    | some .noCarrier | some .rejected => failure c
    | none => c
  else c

def answerWaitExpired (c : Core) : Core :=
  let u := c.uplink
  if u.answerWait.running then failure (setUplinkState { u with answerWait := u.answerWait.expired } c) else c

/-- The retry timer expires: the same report is handed again. -/
def retryExpired (c : Core) : Core :=
  let u := c.uplink
  if u.retry.running then
    let c := setUplinkState { u with retry := u.retry.expired } c
    match u.report with
    | some r => handReport r.records r.parity c
    | none => c
  else c

def ackWaitExpired (c : Core) : Core :=
  let u := c.uplink
  if u.ackWait.running then failure (setUplinkState { u with ackWait := u.ackWait.expired } c) else c

def backoffExpired (c : Core) : Core :=
  let u := c.uplink
  if u.backoff.running then
    dueTest (setUplinkState { u with backoff := u.backoff.expired, state := .idle } c)
  else c

def quietExpired (c : Core) : Core :=
  let u := c.uplink
  if u.quietTimer.running then
    testRecovery (setUplinkState { u with quiet := min (u.quiet + 1) 32, quietTimer := Timer.start 60000 } c)
  else c

def reportTimerExpired (c : Core) : Core :=
  let u := c.uplink
  if u.reportTimer.running then
    dueTest (setUplinkState { u with reportTimer := u.reportTimer.expired, pendingFlag := true } c)
  else c

/-! ## Requests (R168 to R170) -/

def uplinkNow (_ : Unit) (c : Core) : Answer × Core :=
  (.bare .ok, dueTest (setUplinkState { c.uplink with pendingFlag := true } c))

def uplinkRelease (_ : Unit) (c : Core) : Answer × Core :=
  if c.uplink.state = .silent then (.bare .ok, testRecovery (setUplinkState { c.uplink with release := true } c))
  else (.bare .notSilent, c)

def recoveryOf : Nat → Option Recovery
  | 0 => some .auto
  | 1 => some .hold
  | _ => none

def reportInterval (n : Nat) : Bool := n == 0 || (15 ≤ n && n ≤ 1440)

/-- New values in force (R170). -/
def applyUplink (m : Recovery) (interval : Nat) (c : Core) : Core :=
  let c := setUplinkState { c.uplink.withInterval interval with mode := m } c
  let c := if interval = 0 then stopReportTimer c
    else if !(unreported c.purchase).isEmpty && !c.uplink.reportTimer.running then startReportTimer c
    else c
  testRecovery c

def setUplink (a : UplinkReq) (c : Core) : Answer × Core :=
  match recoveryOf a.mode, reportInterval a.interval with
  | some m, true => settle (.single .settings 5 (.uplink m a.interval)) (applyUplink m a.interval) c
  | _, _ => (.bare .badRequest, c)

/-! ## Meanings -/

def execUplinkNow (tag : Byte) (a : Option Unit) (s : State) : Host.Outcome State Fault Refusal :=
  .next (answeredWith (.uplinkNow tag a) tag a uplinkNow s)
def execUplinkRelease (tag : Byte) (a : Option Unit) (s : State) : Host.Outcome State Fault Refusal :=
  .next (answeredWith (.uplinkRelease tag a) tag a uplinkRelease s)
def execSetUplink (tag : Byte) (a : Option UplinkReq) (s : State) : Host.Outcome State Fault Refusal :=
  .next (answeredWith (.setUplink tag a) tag a setUplink s)
def execReportTimer (s : State) : Host.Outcome State Fault Refusal := .next (onCore reportTimerExpired s)
def execSendBegin (s : State) : Host.Outcome State Fault Refusal := .next (onCore dueTest s)
def execModemAnswer (attempt answer : Byte) (s : State) : Host.Outcome State Fault Refusal :=
  .next (onCore (modemAnswer attempt answer) s)
def execAnswerWait (s : State) : Host.Outcome State Fault Refusal := .next (onCore answerWaitExpired s)
def execRetryTimer (s : State) : Host.Outcome State Fault Refusal := .next (onCore retryExpired s)
def execAckWait (s : State) : Host.Outcome State Fault Refusal := .next (onCore ackWaitExpired s)
def execBackoffTimer (s : State) : Host.Outcome State Fault Refusal := .next (onCore backoffExpired s)
def execQuietTimer (s : State) : Host.Outcome State Fault Refusal := .next (onCore quietExpired s)

end Sys2Proof.Machine
end

