-- ==== Sys2Proof/Machine/Purchases.lean ====
section
/-! DEFINITION. The Purchase Unit: credit, purchases, their completion and failure, acknowledgement, load and wipe (R149 to R160,
R171, R172). -/

namespace Sys2Proof.Machine

open Sys2Proof

/-! ## Credit (R149) -/

def creditLimit (n : Nat) (c : Core) : Core :=
  setPurchase { c.purchase with limit := n, balance := min c.purchase.balance n } c

def creditTopUp (n : Nat) (c : Core) : Core :=
  setPurchase { c.purchase with balance := min (c.purchase.balance + n) c.purchase.limit } c

/-! ## Sequence numbers (R150) -/

/-- "After" a reference number, modulo 65536. -/
def seqAfter (s ref : Seq) : Bool :=
  let d := (s - ref).toNat
  1 ≤ d && d ≤ 32767

/-- After a number that may be absent: then every number is (log 18). -/
def afterOpt (s : Seq) : Option Seq → Bool
  | none => true
  | some r => seqAfter s r

/-! ## PURCHASE (R151 to R153) -/

/-- The LCN and event id a request names (R151). -/
def purchaseTarget (c : Core) (r : Room) : PurchaseTarget → Option (Nat × Nat)
  | .present =>
    match (session c (Room.output r)).lcn with
    | none => none
    | some lcn => (presentEvent c lcn).map fun p => (lcn, p.event)
  | .event lcn ev => some (lcn, ev)

/-- The target's own ranges (R151). -/
def targetFormed : PurchaseTarget → Bool
  | .present => true
  | .event lcn ev => lcnInRange lcn && ev ≤ 65535

/-- What a PURCHASE that passes its checks buys. -/
structure Bid where
  lcn : Nat
  event : Nat
  price : Nat
  finish : Nat
  now : Nat
  deriving DecidableEq, Repr

/-- The checks of Table 8.3-1 up to LOG_FULL, in their order. -/
def purchaseChecks (c : Core) (r : Room) (t : PurchaseTarget) : Except Code Bid :=
  if !c.access.issue.isLocked then .error .notIssued
  else if c.access.cut then .error .cut
  else if c.purchase.inFlight.isSome then .error .busy
  else
    match purchaseTarget c r t with
    | none => .error .noSuch
    | some (lcn, ev) =>
      match findChannel c lcn, findRecord c lcn ev with
      | some e, some er =>
        match e.kind, er.price with
        | .eventPaid, some price =>
          if eventGranted c lcn ev || logHas c.purchase lcn ev then .error .already
          else
            match c.clock.time with
            | none => .error .tooLate
            | some now =>
              if er.finish < now + 300 then .error .tooLate
              else if price > c.purchase.balance then .error .noCredit
              else if c.purchase.log.length ≥ 48 then .error .logFull
              else .ok ⟨lcn, ev, price, er.finish, now⟩
        | _, _ => .error .noSuch
      | _, _ => .error .noSuch

def Bid.record (b : Bid) (seq : Seq) (profile : Nat) : PurchaseRecord :=
  { seq := seq, lcn := b.lcn, event := b.event, price := b.price, time := b.now, profile := profile, reported := false }

def Bid.grant (b : Bid) : EventGrant := ⟨b.lcn, b.event, b.finish + 3600, .purchase⟩

/-- The commit of an accepted purchase and its reply (R153). -/
def commitPurchase (r : Room) (b : Bid) (c : Core) : Answer × Core :=
  let p := c.purchase
  let profile := (context c r).active
  let it := Item.single .purchase p.nextSeq.toNat
    (.purchase (b.record p.nextSeq profile) b.grant (p.balance - b.price) p.limit)
  let f : InFlight :=
    { seq := p.nextSeq, room := r, lcn := b.lcn, event := b.event, price := b.price, time := b.now, profile := profile,
      expiry := b.finish + 3600 }
  match offer it c with
  | (.taken, c) => (.bare .accepted, setPurchase { c.purchase with inFlight := some f } c)
  | (a, c) => (.bare a.code, c)

/-- From the NO_ROOM check on: expired event grants are removed first (R152). -/
def purchaseRoom (r : Room) (b : Bid) (pin : Option Pin) (c : Core) : Answer × Core :=
  let c := expireEvents b.now c
  if c.access.events.length ≥ 24 then (.bare .noRoom, c)
  else if b.price > (activeProfile c r).purchaseCeiling then withPin pin (commitPurchase r b) c
  else commitPurchase r b c

def purchase (a : PurchaseReq) (c : Core) : Answer × Core :=
  match roomOf a.room with
  | none => (.bare .badRequest, c)
  | some r =>
    if !targetFormed a.target then (.bare .badRequest, c)
    else
      match purchaseChecks c r a.target with
      | .error code => (.bare code, c)
      | .ok b => purchaseRoom r b a.pin c

/-! ## Completion and failure (R154, R155) -/

/-- The log record joins the log; the next sequence number rises; the price is charged. -/
def logPurchase (f : InFlight) (c : Core) : Core :=
  let p := c.purchase
  let entry : PurchaseRecord :=
    { seq := f.seq, lcn := f.lcn, event := f.event, price := f.price, time := f.time, profile := f.profile,
      reported := false }
  setPurchase { p with inFlight := none, log := p.log ++ [entry], nextSeq := p.nextSeq + 1, balance := p.balance - f.price } c

/-- The PURCHASE record is written: the purchase completes in one event (R154). -/
def completePurchase (f : InFlight) (c : Core) : Core :=
  let before := (unreported c.purchase).length
  let c := logPurchase f c
  let c := setEvents (installGrant ⟨f.lcn, f.event, f.expiry, .purchase⟩ c.access.events) c
  let c := setPurchase { c.purchase with charged := some f.seq } c
  let c := commitGroup true c
  let c := post (.purchaseDone f.seq true f.room f.lcn f.event) c
  dueTest (becameUnreported before (reevaluate c))

def purchaseWritten (c : Core) : Core :=
  match c.purchase.inFlight with
  | none => c
  | some f => completePurchase f c

/-- The purchase in flight fails (R155). -/
def purchaseFailed (c : Core) : Core :=
  match c.purchase.inFlight with
  | none => c
  | some f => post (.purchaseDone f.seq false f.room f.lcn f.event) (setPurchase { c.purchase with inFlight := none } c)

/-! ## Acknowledgement (R157) -/

/-- The log less its records at or before `s`, and the newest record removed. -/
def ackLog (s : Seq) : List PurchaseRecord → Option Seq → List PurchaseRecord × Option Seq
  | [], last => ([], last)
  | r :: rs, last => if seqAfter r.seq s then (r :: rs, last) else ackLog s rs (some r.seq)

/-- The newest record of the report in flight is at or before `s` in WAIT_ACK. -/
def ackCovers (u : Uplink) (s : Seq) : Bool :=
  u.state == .waitAck &&
    (match u.report.bind fun r => r.records.getLast? with
     | some r => !seqAfter r.seq s
     | none => false)

/-- A PURCHASE ACK operation (R157). -/
def purchaseAck (s : Seq) (c : Core) : Core :=
  let (log, last) := ackLog s c.purchase.log none
  let c := setPurchase { c.purchase with log := log, acked := last <|> c.purchase.acked } c
  let c := if ackCovers c.uplink s then acknowledged c else c
  dueTest (stopIfReported (commitLogAck c))

/-! ## Wipe (R160) -/

def abandonReport (u : Uplink) : Uplink :=
  match u.state with
  | .silent => u
  | _ => { u with state := .idle, report := none, answerWait := u.answerWait.stop, retry := u.retry.stop,
                  ackWait := u.ackWait.stop, backoff := u.backoff.stop }

def wipePurchases (c : Core) : Core :=
  let c := setPurchase { Purchase.reset with inFlight := c.purchase.inFlight } c
  let u := abandonReport c.uplink
  let u := u.withInterval 360
  let c := setUplinkState { u with mode := .auto, parity := false, pendingFlag := false, reportTimer := u.reportTimer.stop } c
  testRecovery c

/-! ## Status requests (R171, R172) -/

def purchaseLog (pos : Nat) (c : Core) : Answer :=
  if pos > 47 then .bare .badRequest
  else
    let p := c.purchase
    let u := c.uplink
    let l := p.log.drop pos
    { code := .ok, body := .purchaseLog
        { records := p.log.length, unreported := (unreported p).length, nextSeq := p.nextSeq, acked := p.acked,
          charged := p.charged, parity := u.parity, logAckOwed := p.logAckOwed, state := u.state, failures := u.failures,
          quiet := u.quiet, release := u.release, pendingFlag := u.pendingFlag, mode := u.mode, interval := u.interval,
          report := u.report.map fun r => (r, u.slotRetries),
          timers := [u.answerWait.remaining, u.retry.remaining, u.ackWait.remaining, u.backoff.remaining,
                     u.quietTimer.remaining, u.reportTimer.remaining],
          page := l.take 8, nextPosition := if l.length > 8 then some (pos + 8) else none } }

def InFlight.report (f : InFlight) : FlightReport :=
  { seq := f.seq, room := f.room, lcn := f.lcn, event := f.event, price := f.price, profile := f.profile }

def creditStatus (_ : Unit) (c : Core) : Answer :=
  let p := c.purchase
  { code := .ok, body := .credit p.balance p.limit p.charged (p.inFlight.map InFlight.report) c.access.issue.isLocked c.access.cut }

/-! ## Meanings -/

def execPurchase (tag : Byte) (a : Option PurchaseReq) (s : State) : Host.Outcome State Fault Refusal :=
  .next (answeredWith (.purchase tag a) tag a purchase s)
def execPurchaseLog (tag : Byte) (a : Option Nat) (s : State) : Host.Outcome State Fault Refusal :=
  .next (answeredWith (.purchaseLog tag a) tag a (fun x => readOnly (purchaseLog x)) s)
def execCreditStatus (tag : Byte) (a : Option Unit) (s : State) : Host.Outcome State Fault Refusal :=
  .next (answeredWith (.creditStatus tag a) tag a (fun x => readOnly (creditStatus x)) s)

end Sys2Proof.Machine
end

