-- ==== Sys2Proof/Machine/Guide.lean ====
section
/-! DEFINITION. The Guide Store: records, schedule blocks, present/next, markers, the sweep and the guide requests (R105 to R123,
R203). -/

namespace Sys2Proof.Machine

open Sys2Proof

def setGuide (x : Guide) (c : Core) : Core := { c with guide := x }
def setRecords (l : List EventRecord) (c : Core) : Core := setGuide { c.guide with records := l } c

/-! ## Records (R105 to R109) -/

/-- The form check of R106. -/
def OfferedRecord.formed (r : OfferedRecord) : Bool :=
  lcnInRange r.lcn && 1 ≤ r.duration && r.duration ≤ 1440 && r.rating ≤ 7 && r.title.length ≤ 40 &&
    (match r.price with
     | some p => 1 ≤ p && p ≤ 1000000
     | none => true)

def OfferedRecord.record (r : OfferedRecord) (s : Source) : EventRecord :=
  { lcn := r.lcn, event := r.event, start := r.start, duration := r.duration, rating := r.rating, title := r.title,
    price := r.price, source := s }

def EventRecord.before (a b : EventRecord) : Bool := a.lcn < b.lcn || (a.lcn == b.lcn && a.start < b.start)

def EventRecord.overlaps (a b : EventRecord) : Bool := a.start < b.finish && b.start < a.finish

/-- The records a new one displaces (R107). -/
def EventRecord.displaces (n r : EventRecord) : Bool := r.lcn == n.lcn && (r.event == n.event || n.overlaps r)

/-- A running marker in use names the record. -/
def namedByMarker (c : Core) (r : EventRecord) : Bool :=
  match usedMarker c r.lcn with
  | some m => m.event == r.event
  | none => false

/-- The eviction candidate: the latest start not named by a marker in use, then the highest LCN (R107). -/
def evictionCandidate (c : Core) : Option EventRecord :=
  (c.guide.records.filter fun r => !namedByMarker c r).foldl
    (fun best r => match best with
      | none => some r
      | some b => if b.start < r.start || (b.start == r.start && b.lcn ≤ r.lcn) then some r else best) none

/-- An event link follows an inserted record (R203). -/
def followRecord (r : EventRecord) (c : Core) (id : Nat) : Core :=
  match findBooking c id with
  | none => c
  | some b =>
    if b.start = r.start ∧ b.finish = r.finish then c
    else commitBooking id (setBooking { b with start := r.start, finish := r.finish } c)

def linkedTo (r : EventRecord) (b : Booking) : Bool :=
  b.lcn == r.lcn && b.link == some r.event &&
    (match b.state with
     | .done | .missed | .conflict => false
     | _ => true)

/-- An inserted record is handed to Clock and Bookings (R108, R203). -/
def recordInserted (r : EventRecord) (c : Core) : Core :=
  ((c.clock.bookings.filter (linkedTo r)).map (·.id)).foldl (followRecord r) c

/-- Inserting a record (R107). -/
def insertRecord (n : EventRecord) (c : Core) : Core :=
  let kept := c.guide.records.filter fun r => !n.displaces r
  if kept.length ≤ 2047 then recordInserted n (setRecords (insertBy EventRecord.before n kept) c)
  else
    match evictionCandidate c with
    | none => c
    | some x =>
      if x.start < n.start then c
      else recordInserted n (setRecords (insertBy EventRecord.before n
        (kept.filter fun r => !(r.lcn == x.lcn && r.event == x.event))) c)

/-- A record is offered with its source: a malformed one is dropped (R106). -/
def offerRecord (s : Source) (c : Core) (r : OfferedRecord) : Core :=
  if OfferedRecord.formed r then insertRecord (OfferedRecord.record r s) c else c

/-- The minute purge (R109). -/
def minutePurge (c : Core) : Core :=
  match c.clock.time with
  | none => c
  | some now => setRecords (c.guide.records.filter fun r => now < r.finish || namedByMarker c r) c

/-! ## Schedule blocks (R110 to R112) -/

def block (c : Core) (k : Fin 8) : BlockState := c.guide.blocks.get k
def setBlock (k : Fin 8) (x : BlockState) (c : Core) : Core :=
  setGuide { c.guide with blocks := putAt c.guide.blocks k x } c

def allBlocksComplete (c : Core) : Bool := allBlocks.all fun k => (block c k).complete

/-- A sweep completes (R115). -/
def completeSweep (c : Core) : Core :=
  let c := closeSchedule c
  let c := setGuide { c.guide with sweep :=
    { state := .idle, timer := Timer.start (c.guide.interval * 60000), limit := c.guide.sweep.limit.stop, next := .fresh,
      tuner := none } } c
  let c := release .sweep c
  post (.guideReady c.guide.records.length (allBlocks.map fun k => (block c k).version)) c

/-- A block completes at a version: its records of other versions are pruned (R112). -/
def completeBlock (k : Fin 8) (version : Nat) (c : Core) : Core :=
  let c := setBlock k { block c k with complete := true } c
  let stale := fun (r : EventRecord) => match r.source with
    | .block j v => j == k.val && v != version
    | .now => false
  let c := testPresent (setRecords (c.guide.records.filter fun r => !stale r) c)
  if c.guide.sweep.state = .collecting && allBlocksComplete c then completeSweep c else c

/-- A schedule segment handed over (R111); one that is discarded is not followed by the test of R120 (log 77). -/
def takeSchedule (h : SegmentHeader) (rs : List OfferedRecord) (c : Core) : Core :=
  if hb : h.block < 8 then
    if h.number > h.last then c
    else
      let k : Fin 8 := ⟨h.block, hb⟩
      let x := block c k
      let x := if x.version = some h.version ∧ x.last = some h.last then x
        else { version := some h.version, last := some h.last, seen := [], complete := false }
      let c := setBlock k x c
      if x.seen.contains h.number then c
      else
        let c := rs.foldl (offerRecord (.block h.block h.version)) c
        let c := setBlock k { block c k with seen := h.number :: x.seen } c
        let c := testPresent c
        if seenAll (block c k).seen h.last then completeBlock k h.version c else c
  else c

/-- Source blocks move one day on at a rollover (R112). -/
def EventRecord.dayOn (r : EventRecord) : EventRecord :=
  match r.source with
  | .block (k + 1) v => { r with source := .block k v }
  | _ => r

def guideRollover (c : Core) : Core :=
  let b := c.guide.blocks
  setGuide { c.guide with
    blocks := #v[b[1], b[2], b[3], b[4], b[5], b[6], b[7], BlockState.reset]
    records := c.guide.records.map (·.dayOn) } c

/-! ## Present/next and markers (R117, R118) -/

def putMarker (m : Marker) (c : Core) : Core :=
  markerChanged stopSession m.lcn
    (setGuide { c.guide with markers := m :: c.guide.markers.filter (fun x => x.lcn != m.lcn) } c)

/-- One entry of a present/next segment from a tuner on carrier `x` (R117). -/
def takePresentEntry (x : Carrier) (c : Core) (e : PresentNextEntry) : Core :=
  if channelCarrier c e.lcn = some x then
    let c := match e.next with
      | some r => offerRecord .now c r
      | none => c
    match e.present with
    | some r => putMarker ⟨e.lcn, r.event, x⟩ (offerRecord .now c r)
    | none => removeMarkers stopSession (·.lcn == e.lcn) c
  else c

/-- A present/next segment: its entries in their order, every one of them, then the present events are tested (R117, R119, log 63). -/
def takePresentNext (t : Fin 4) (es : List PresentNextEntry) (c : Core) : Core :=
  match (tuner c t).carrier with
  | none => c
  | some x => testPresent (es.foldl (takePresentEntry x) c)

/-- Markers not in use are removed at a clock second (R118). -/
def dropUnusedMarkers (c : Core) : Core := removeMarkers stopSession (fun m => !markerInUse c m) c

/-! ## The sweep (R113, R116) -/

def freshBlock (x : BlockState) : BlockState := { x with seen := [], complete := false }

/-- A sweep begins (R113). -/
def beginSweep (c : Core) : Core :=
  let c := if c.guide.sweep.next = .fresh then
      allBlocks.foldl (fun c k => setBlock k (freshBlock (block c k)) c) c
    else c
  match guideCarrier c with
  | none => endSweep c
  | some x =>
    let p := planClaim c .sweep x .host
    match p.answer c with
    | none => endSweep c
    | some (t, st) =>
      let state := if st = .acquiring then SweepState.tuning else .collecting
      let c := setGuide { c.guide with sweep := { c.guide.sweep with
        state := state, tuner := some t, timer := c.guide.sweep.timer.stop, limit := Timer.start 120000 } } c
      let c := carryOut .sweep x p c
      if state = .collecting then openSchedule t c else c

def sweepTimerExpired (c : Core) : Core :=
  let w := c.guide.sweep
  if w.timer.running && w.state = .idle then
    beginSweep (setGuide { c.guide with sweep := { w with timer := w.timer.expired } } c)
  else c

def sweepLimitExpired (c : Core) : Core :=
  let w := c.guide.sweep
  if w.limit.running && w.state ≠ .idle then
    endSweep (setGuide { c.guide with sweep := { w with limit := w.limit.expired } } c)
  else c

/-! ## Requests (R121 to R123) -/

def guideSummary (c : Core) : GuideSummary :=
  let w := c.guide.sweep
  { records := c.guide.records.length, state := w.state,
    remaining := if w.state = .idle then w.timer.left else w.limit.left, next := w.next,
    blocks := allBlocks.map fun k => ((block c k).version, (block c k).complete) }

def isPresent (c : Core) (r : EventRecord) : Bool :=
  match presentEvent c r.lcn with
  | some p => p.event == r.event
  | none => false

def guideQuery (a : GuideReq) (c : Core) : Answer :=
  if !lcnInRange a.lcn then .bare .badRequest
  else
    let l := c.guide.records.filter fun r => r.lcn == a.lcn && a.fromTime < r.finish
    let pg := l.take 6
    { code := .ok, body := .guide (guideSummary c) (pg.map fun r => (r, isPresent c r))
        (if l.length > 6 then pg.getLast?.map (·.finish) else none) }

/-- The record with the earliest start at or after now that is not the present event's (R122). -/
def nextRecord (c : Core) (lcn now : Nat) : Option EventRecord :=
  c.guide.records.find? fun r => r.lcn == lcn && now ≤ r.start && !isPresent c r

def nowNext (lcn : Nat) (c : Core) : Answer :=
  if !lcnInRange lcn then .bare .badRequest
  else if (findChannel c lcn).isNone then .bare .noSuch
  else
    { code := .ok, body := .nowNext ((presentEvent c lcn).map fun p => (p, findRecord c lcn p.event))
        (c.clock.time.bind (nextRecord c lcn)) ((markerOf c lcn).map fun m => (m, markerInUse c m)) }

/-- A new sweep interval in force: the reload of the sweep timer, whose remaining time stays (R113, R196). -/
def setInterval (n : Nat) (c : Core) : Core :=
  let w := c.guide.sweep
  setGuide { c.guide with interval := n, sweep := { w with timer := { w.timer with reload := n * 60000 } } } c

/-- The sweep at an accepted REFRESH GUIDE (R123). -/
def refreshSweep (c : Core) : Core :=
  let w := c.guide.sweep
  if w.state = .idle then
    let ms := c.guide.interval * 60000
    beginSweep (setGuide { c.guide with sweep := { w with timer := { reload := ms, left := ms, running := false } } } c)
  else c

def refreshGuide (a : Option Nat) (c : Core) : Answer × Core :=
  match a with
  | none => (.bare .ok, refreshSweep c)
  | some n =>
    if n < 60 || n > 720 then (.bare .badRequest, c)
    else settle (.single .settings 3 (.sweepInterval n))
      (fun c => refreshSweep (setInterval n c)) c

/-! ## Meanings -/

def execGuideQuery (tag : Byte) (a : Option GuideReq) (s : State) : Host.Outcome State Fault Refusal :=
  .next (answeredWith (.guideQuery tag a) tag a (fun x => readOnly (guideQuery x)) s)
def execNowNext (tag : Byte) (a : Option Nat) (s : State) : Host.Outcome State Fault Refusal :=
  .next (answeredWith (.nowNext tag a) tag a (fun x => readOnly (nowNext x)) s)
def execRefreshGuide (tag : Byte) (a : Option (Option Nat)) (s : State) : Host.Outcome State Fault Refusal :=
  .next (answeredWith (.refreshGuide tag a) tag a refreshGuide s)
def execSweepTimer (s : State) : Host.Outcome State Fault Refusal := .next (onCore sweepTimerExpired s)
def execSweepLimit (s : State) : Host.Outcome State Fault Refusal := .next (onCore sweepLimitExpired s)

end Sys2Proof.Machine
end

