-- ==== Sys2Proof/Machine/Bookings.lean ====
section
/-! DEFINITION. Judging bookings, starting and ending recordings, and the booking requests (R199 to R207). -/

namespace Sys2Proof.Machine

open Sys2Proof

def setClock (x : Clock) (c : Core) : Core := { c with clock := x }

/-! ## The start action (R201) -/

def isIdle (c : Core) (o : Output) : Bool := (session c o).state == .idle
def isHosts (c : Core) (o : Output) : Bool := !(session c o).origin.isBooking

/-- The record output a recording takes, or none for CONFLICT. -/
def chooseOutput (c : Core) : RecordOutput → Option Output
  | .record1 => if isHosts c .record1 then some .record1 else none
  | .record2 => if isHosts c .record2 then some .record2 else none
  | .any =>
    match [Output.record1, .record2].find? (isIdle c) with
    | some o => some o
    | none => [Output.record1, .record2].find? (isHosts c)

/-- The start action: the booking becomes ACTIVE on the chosen output and its selection runs there (R50, R201). -/
def startAction (b : Booking) (c : Core) : Core :=
  match chooseOutput c b.output with
  | none => changeBooking { b with state := .conflict } none c
  | some o =>
    match findChannel c b.lcn with
    | none => missBooking b .noSuch c
    | some e =>
      let superseded := (session c o).change.inFlight
      let c := supersede o c
      let c := changeBooking { b with state := .active, inUse := some o, extended := false } none c
      beginChange o b.lcn e .untagged (.booking b.id) (.booking b.takesRoom) superseded c

/-! ## Judgement (R200, R202, R205) -/

/-- An ACTIVE recording whose end is reached runs on or ends (R202). -/
def judgeEnd (b : Booking) (now : Nat) (c : Core) : Core :=
  if runsOn c b now then
    if b.extended then c else changeBooking { b with extended := true } none c
  else endRecording stopSession b c

def judgeRecording (b : Booking) (now : Nat) (c : Core) : Core :=
  match b.state with
  | .waiting =>
    if b.finish ≤ now then missBooking b .time c
    else if b.start ≤ now + c.clock.wakeLead then
      let b' := { b with state := .due }
      let c := assertWake (fun w => { w with booking := true }) (changeBooking b' none c)
      if b.start ≤ now then startAction b' c else c
    else c
  | .due =>
    if b.finish ≤ now then missBooking b .time c
    else if b.start ≤ now then startAction b c
    else c
  | .active =>
    match b.inUse with
    | some _ => if b.extended || b.finish ≤ now then judgeEnd b now c else c
    | none => if b.finish ≤ now then missBooking b .reset c else startAction b c
  | _ => c

/-- A reminder's judgement: WAITING past its end it becomes MISSED with the cause TIME (log 84), and DUE past its start DONE, be its end passed
as well (R200, R205, log 83). -/
def judgeReminder (b : Booking) (now : Nat) (c : Core) : Core :=
  match b.state with
  | .waiting =>
    if b.finish ≤ now then missBooking b .time c
    else if b.start ≤ now + b.lead * 60 then
      let c := post (.bookingDue b.id b.lcn b.link b.start) c
      let b' := { b with state := .due }
      let c := assertWake (fun w => { w with booking := true }) (commitBooking b.id (setBooking b' c))
      if b.start ≤ now then changeBooking { b' with state := .done } none c else c
    else c
  | .due => if b.start ≤ now then changeBooking { b with state := .done } none c else c
  | _ => c

def dropFromList (id : Nat) (c : Core) : Core :=
  setClock { c.clock with bookings := c.clock.bookings.filter (·.id != id) } c

def Booking.settled (b : Booking) : Bool :=
  match b.state with
  | .done | .missed | .conflict => true
  | _ => false

/-- One booking judged against network time (R200). -/
def judgeBooking (now : Nat) (c : Core) (id : Nat) : Core :=
  match findBooking c id with
  | none => c
  | some b =>
    if b.settled then if b.finish + 86400 ≤ now then commitBooking id (dropFromList id c) else c
    else
      match b.kind with
      | .recording => judgeRecording b now c
      | .reminder => judgeReminder b now c

/-- The bookings are judged in list order; none while the clock is UNSET. -/
def judgeBookings (c : Core) : Core :=
  match c.clock.time with
  | none => c
  | some now => (c.clock.bookings.map (·.id)).foldl (judgeBooking now) c

/-- The wake alarm is judged with the bookings (R211). -/
def judgeAlarm (c : Core) : Core :=
  match c.clock.time, c.clock.alarm with
  | some now, some a =>
    if a ≤ now then assertWake (fun w => { w with alarm := true }) (setClock { c.clock with alarm := none } c) else c
  | _, _ => c

/-! ## Booking requests (R199, R206, R207) -/

def kindOf : Nat → Option BookingKind
  | 0 => some .reminder
  | 1 => some .recording
  | _ => none

def recordOutputOf : Nat → Option RecordOutput
  | 2 => some .record1
  | 3 => some .record2
  | 4 => some .any
  | _ => none

/-- When a booking is asked to run: by its event, or by its times. -/
inductive When where
  | event (id : Nat)
  | times (start finish : Nat)
  deriving DecidableEq, Repr

/-- Either an event id or both times, the end after the start (R199). -/
def whenOf (a : AddBookingReq) : Option When :=
  match a.event, a.start, a.finish with
  | some e, none, none => some (.event e)
  | none, some s, some f => if s < f then some (.times s f) else none
  | _, _, _ => none

/-- The form checks of R199, giving the booking's kind, output and time. -/
def bookingForm (a : AddBookingReq) : Option (BookingKind × RecordOutput × When) :=
  match kindOf a.kind, whenOf a with
  | some k, some w =>
    if !lcnInRange a.lcn then none
    else
      match k with
      | .reminder => if a.lead ≤ 30 then some (k, .any, w) else none
      | .recording => (recordOutputOf a.output).map fun o => (k, o, w)
  | _, _ => none

/-- The span and the event link. -/
def spanOf (c : Core) (lcn : Nat) : When → Option (Nat × Nat × Option Nat)
  | .times s f => some (s, f, none)
  | .event e => (findRecord c lcn e).map fun r => (r.start, r.finish, some e)

/-- The end of a recording's span for the CONFLICT test. -/
def spanEnd (c : Core) (b : Booking) : Nat := if b.extended then c.clock.time.getD b.finish else b.finish

def Booking.counts (b : Booking) : Bool :=
  b.kind == .recording &&
    (match b.state with
     | .waiting | .due | .active => true
     | _ => false)

/-- Two recordings stand at some instant of the span, its end not counted in (R199, log 82): it is enough to look at the starts of spans. -/
def conflicts (c : Core) (start finish : Nat) : Bool :=
  let l := c.clock.bookings.filter (·.counts)
  let instants := (start :: l.map (·.start)).filter fun t => start ≤ t && t < finish
  instants.any fun t => 2 ≤ l.countP fun b => b.start ≤ t && t < spanEnd c b

/-- The id after the last one assigned, ids of the list skipped (R197). -/
def nextId (k : Clock) : Nat :=
  (((List.range 255).map fun i => (k.lastId + i) % 255 + 1).find? fun i => !(k.bookings.any (·.id == i))).getD 0

/-- The booking joins the list and is judged at once. -/
def joinBooking (b : Booking) (c : Core) : Core :=
  let c := setBooking b (setClock { c.clock with lastId := b.id } c)
  match c.clock.time with
  | some now => judgeBooking now c b.id
  | none => c

def addBooking (a : AddBookingReq) (c : Core) : Answer × Core :=
  match bookingForm a with
  | none => (.bare .badRequest, c)
  | some (kind, output, w) =>
    if (findChannel c a.lcn).isNone then (.bare .noSuch, c)
    else
      match spanOf c a.lcn w with
      | none => (.bare .noSuch, c)
      | some (start, finish, link) =>
        if c.clock.time.any fun now => finish ≤ now then (.bare .badRequest, c)
        else if c.clock.bookings.length ≥ 32 then (.bare .full, c)
        else if kind = .recording && conflicts c start finish then (.bare .conflict, c)
        else
          let b : Booking :=
            { id := nextId c.clock, kind := kind, lcn := a.lcn, link := link, start := start, finish := finish,
              lead := if kind = .reminder then a.lead else 0, output := output, inUse := none, takesRoom := kind == .recording && a.takesRoom, extended := false,
              state := .waiting }
          match offer (.single .booking b.id (.booking (some b))) c with
          | (.taken, c) =>
            ({ code := .ok, body := .bookingId b.id }, joinBooking b (setClock (clearOwedBooking b.id c.clock) c))
          | (x, c) => (.bare x.code, c)

/-- The removal of a booking: an ACTIVE one's output is stopped (R52, R206). -/
def removeBooking (b : Booking) (c : Core) : Core :=
  let c := dropFromList b.id (setClock (clearOwedBooking b.id c.clock) c)
  match b.state, b.inUse with
  | .active, some o => stopSession o c
  | _, _ => c

def dropBooking (id : Nat) (c : Core) : Answer × Core :=
  if id < 1 || id > 255 then (.bare .badRequest, c)
  else
    match findBooking c id with
    | none => (.bare .noSuch, c)
    | some b =>
      match offer (.single .booking id (.booking none)) c with
      | (.taken, c) => (.bare .ok, removeBooking b c)
      | (.storeFull, c) => (.bare .storeFull, setClock (clearOwedBooking id c.clock) c)
      | (.storeFault, c) => (.bare .storeFault, setClock (clearOwedBooking id c.clock) c)
      | (x, c) => (.bare x.code, c)

def listBookings (pos : Nat) (c : Core) : Answer :=
  if pos > 31 then .bare .badRequest
  else
    let l := c.clock.bookings.drop pos
    { code := .ok, body := .bookings c.clock.bookings.length
        ((l.take 6).map fun b => (b, c.clock.owedBookings.contains b.id)) (if l.length > 6 then some (pos + 6) else none) }

/-! ## Meanings -/

def execAddBooking (tag : Byte) (a : Option AddBookingReq) (s : State) : Host.Outcome State Fault Refusal :=
  .next (answeredWith (.addBooking tag a) tag a addBooking s)
def execDropBooking (tag : Byte) (a : Option Nat) (s : State) : Host.Outcome State Fault Refusal :=
  .next (answeredWith (.dropBooking tag a) tag a dropBooking s)
def execListBookings (tag : Byte) (a : Option Nat) (s : State) : Host.Outcome State Fault Refusal :=
  .next (answeredWith (.listBookings tag a) tag a (fun x => readOnly (listBookings x)) s)

end Sys2Proof.Machine
end

