-- ==== Sys2Proof/Machine/Clock.lean ====
section
/-! DEFINITION. The network clock, its seconds, the day rollover, the power state, WAKE and the clock requests (R191 to R196, R208 to
R213). -/

namespace Sys2Proof.Machine

open Sys2Proof

/-! ## The day rollover (R195) -/

/-- A rollover: today moves to the current local day, and the Grant Table, Guide Store and Limit Unit are told. -/
def rollover (day : Int) (c : Core) : Core :=
  let c := commitLastDay (setClock { c.clock with today := some day } c)
  limitRollover (guideRollover (expirePackages day c))

/-- The rollover is taken when the local day is greater than today, or today is absent. -/
def testRollover (c : Core) : Core :=
  match localDay c.clock with
  | none => c
  | some d =>
    match c.clock.today with
    | none => rollover d c
    | some t => if t < d then rollover d c else c

/-! ## Settings of the clock (R192, R194) -/

/-- What follows a setting, correction or jump in its event. -/
def clockMoved (c : Core) : Core := limitClockChanged (judgeAlarm (judgeBookings (testRollover c)))

/-- What follows a change of the offset in force (R194); nothing while the clock is UNSET. -/
def offsetChanged (c : Core) : Core :=
  match c.clock.time with
  | none => c
  | some _ => limitClockChanged (testRollover c)

def offsetInRange (n : Int) : Bool := -720 ≤ n && n ≤ 840

def setTime (t : Nat) (correction : Option Int) (c : Core) : Core :=
  setClock { c.clock with time := some t, lastCorrection := correction } c

/-- A time segment handed over (R192). -/
def takeTime (t : Nat) (offset : Option Int) (c : Core) : Core :=
  if offset.any fun n => !offsetInRange n then c
  else
    let before := offsetInForce c.clock
    let c := setClock { c.clock with broadcast := offset.getD c.clock.broadcast } c
    match c.clock.time with
    | none =>
      let c := { setTime t (Config.firstCorrection c.free) c with free := c.free + 1 }
      clockMoved (post (.clockSet t none (offsetInForce c.clock)) c)
    | some now =>
      let d := (t : Int) - (now : Int)
      if d.natAbs ≤ 1 then if offsetInForce c.clock = before then c else offsetChanged c
      else if d.natAbs ≤ 60 then clockMoved (setTime t (some d) c)
      else
        let c := setTime t (some d) c
        clockMoved (post (.clockSet t (some d) (offsetInForce c.clock)) c)

/-! ## Clock seconds (R193) -/

/-- A clock second at each block (log 12). -/
def clockSecond (now : Nat) (c : Core) : Core :=
  let minute := now % 60 = 0
  let c := testRollover c
  let c := expireEvents now c
  let c := dropUnusedMarkers c
  let c := if minute then minutePurge c else c
  let c := testPresent c
  let c := if minute then limitMinute c else c
  judgeAlarm (judgeBookings c)

def Tuner.second (u : Tuner) : Tuner := { u with acq := u.acq.second, loss := u.loss.second }
def Session.second (s : Session) : Session := { s with laneWait := s.laneWait.second, keyWait := s.keyWait.second }
def KeySlot.second (k : KeySlot) : KeySlot := { k with life := k.life.second }
def Uplink.second (u : Uplink) : Uplink :=
  { u with answerWait := u.answerWait.second, retry := u.retry.second, ackWait := u.ackWait.second,
           backoff := u.backoff.second, quietTimer := u.quietTimer.second, reportTimer := u.reportTimer.second }

def mapFour {α : Type} (f : α → α) (v : Vector α 4) : Vector α 4 := #v[f v[0], f v[1], f v[2], f v[3]]

/-- One reference second: it is counted and taken off every running timer (R196, R217, log 8). -/
def referenceSecond (c : Core) : Core :=
  { c with
    arb := { c.arb with tuners := mapFour Tuner.second c.arb.tuners }
    rooms := { c.rooms with sessions := mapFour Session.second c.rooms.sessions }
    keys := mapFour KeySlot.second c.keys
    guide := { c.guide with sweep :=
      { c.guide.sweep with timer := c.guide.sweep.timer.second, limit := c.guide.sweep.limit.second } }
    limits := { c.limits with lockout := c.limits.lockout.second, minute := c.limits.minute.second }
    uplink := Uplink.second c.uplink
    clock := { c.clock with hold := c.clock.hold.second }
    link := { c.link with gapTimer := c.link.gapTimer.second, refSeconds := c.link.refSeconds + 1 } }

/-- CLOCK_SECOND: a reference second, and a clock second while the clock is SET. -/
def secondPassed (c : Core) : Core :=
  let c := referenceSecond c
  match c.clock.time with
  | none => c
  | some t => clockSecond (t + 1) (setClock { c.clock with time := some (t + 1) } c)

/-! ## Power (R208 to R210) -/

def wakeForDue (c : Core) : Core :=
  if c.clock.bookings.any (·.state == .due) then assertWake (fun w => { w with booking := true }) c else c

def standby (_ : Unit) (c : Core) : Answer × Core :=
  if c.clock.power = .standby then (.bare .ok, c)
  else
    let c := setClock { c.clock with power := .standby, causes := ⟨false, false, false⟩ } c
    let c := restartContexts (stopSession .roomB (stopSession .roomA c))
    (.bare .ok, watchTest (wakeForDue c))

def resume (_ : Unit) (c : Core) : Answer × Core :=
  if c.clock.power = .standby then
    let c := setClock { c.clock with power := .active, wake := false, causes := ⟨false, false, false⟩ } c
    let c := stopHold c
    (.bare .ok, if installation c then c else release .watch c)
  else (.bare .ok, c)

/-! ## Requests (R211 to R213) -/

def clockItem (zone : Option Int) (lead : Nat) : Item := .single .settings 6 (.clock zone lead)

def wakeAt (a : WakeAtReq) (c : Core) : Answer × Core :=
  let late := match c.clock.time, a.alarm with
    | some now, some t => t ≤ now
    | _, _ => false
  if late || (a.lead.any fun n => n < 30 || n > 600) then (.bare .badRequest, c)
  else
    match a.lead with
    | none => (.bare .ok, setClock { c.clock with alarm := a.alarm } c)
    | some n =>
      settle (clockItem c.clock.zone n) (fun c => setClock { c.clock with alarm := a.alarm, wakeLead := n } c) c

def setZone (z : Option Int) (c : Core) : Answer × Core :=
  if z.any fun n => !offsetInRange n then (.bare .badRequest, c)
  else
    let before := offsetInForce c.clock
    settle (clockItem z c.clock.wakeLead)
      (fun c =>
        let c := setClock { c.clock with zone := z } c
        if offsetInForce c.clock = before then c else offsetChanged c) c

/-- The due point of a booking (R200). -/
def duePoint (k : Clock) (b : Booking) : Int :=
  match b.kind with
  | .recording => (b.start : Int) - k.wakeLead
  | .reminder => (b.start : Int) - b.lead * 60

/-- The next booking to become DUE: the WAITING one of the earliest due point. -/
def nextDue (k : Clock) : Option (Nat × Nat) :=
  ((k.bookings.filter (·.state == .waiting)).foldl
    (fun best b => match best with
      | none => some b
      | some x => if duePoint k b < duePoint k x then some b else some x) none).map fun b => (b.id, b.start)

def clockStatus (_ : Unit) (c : Core) : Answer :=
  let k := c.clock
  { code := .ok, body := .clock
      { time := k.time, offset := offsetInForce k, broadcast := k.broadcast, zone := k.zone, localTime := localTime k,
        localDay := localDay k, localMinute := localMinute k, today := k.today, dayOwed := k.owedDay,
        lastCorrection := k.lastCorrection, wakeLead := k.wakeLead, alarm := k.alarm, power := k.power, wake := k.wake,
        causes := k.causes, standbyCondition := standbyCondition c, watchTuner := heldTuner c .watch,
        hold := k.hold.remaining,
        counts := [BookingState.waiting, .due, .active, .done, .missed, .conflict].map fun x =>
          (x, k.bookings.countP (·.state == x)),
        nextDue := nextDue k } }

/-! ## Wipe (R212) -/

/-- The output of a booking that is still ACTIVE is stopped, and the stop is handed to it (R52, R201). -/
def stopBookingOutput (c : Core) (id : Nat) : Core :=
  match findBooking c id with
  | some b => if b.state = .active then (match b.inUse with | some o => stopSession o c | none => c) else c
  | none => c

/-- Ids of the bookings that hold an output. -/
def bookingsWithOutput (c : Core) : List Nat :=
  (c.clock.bookings.filter fun b => b.state == .active && b.inUse.isSome).map (·.id)

/-- Clock and Bookings at the completion of a wipe: outputs of ACTIVE bookings are stopped while these are listed, the list becomes
empty, and the bookings that the stops changed and committed are committed as removed (R198, R212, log 54). -/
def wipeClock (c : Core) : Core :=
  let ids := bookingsWithOutput c
  let c := ids.foldl stopBookingOutput (setClock { c.clock with zone := none, wakeLead := 120 } c)
  let c := setClock { c.clock with bookings := [], lastId := 0 } c
  let c := ids.foldl (fun c id => commitBooking id c) c
  let c := setClock { c.clock with owedBookings := [], owedDay := false, owedBeforeDay := [] } c
  match c.clock.time with
  | some _ => commitLastDay c
  | none => setClock { c.clock with today := none } c

/-! ## Meanings -/

def execClockSecond (s : State) : Host.Outcome State Fault Refusal := .next (onCore secondPassed s)
def execStandby (tag : Byte) (a : Option Unit) (s : State) : Host.Outcome State Fault Refusal :=
  .next (answeredWith (.standby tag a) tag a standby s)
def execResume (tag : Byte) (a : Option Unit) (s : State) : Host.Outcome State Fault Refusal :=
  .next (answeredWith (.resume tag a) tag a resume s)
def execWakeAt (tag : Byte) (a : Option WakeAtReq) (s : State) : Host.Outcome State Fault Refusal :=
  .next (answeredWith (.wakeAt tag a) tag a wakeAt s)
def execSetZone (tag : Byte) (a : Option (Option Int)) (s : State) : Host.Outcome State Fault Refusal :=
  .next (answeredWith (.setZone tag a) tag a setZone s)
def execClockStatus (tag : Byte) (a : Option Unit) (s : State) : Host.Outcome State Fault Refusal :=
  .next (answeredWith (.clockStatus tag a) tag a (fun x => readOnly (clockStatus x)) s)

end Sys2Proof.Machine
end

