-- ==== Sys2Proof/Machine/Directory.lean ====
section
/-! DEFINITION. The Channel Directory: assembly, swap-in, snapshot, home carrier, and the directory and tuner requests (R1 to R15,
R28, R29). -/

namespace Sys2Proof.Machine

open Sys2Proof

def setDir (x : Directory) (c : Core) : Core := { c with dir := x }

/-! ## Validation (R9) -/

def frequencyInRange (f : Nat) : Bool := 48000 ≤ f && f ≤ 1002000

/-- Keeps the entries that pass a test and whose number has not been read before. -/
def keepFirst {α : Type} (num : α → Nat) (ok : α → Bool) : List Nat → List α → List α
  | _, [] => []
  | seen, x :: xs =>
    let rest := keepFirst num ok (num x :: seen) xs
    if !seen.contains (num x) && ok x then x :: rest else rest

def keepCarriers (l : List CarrierEntry) : List CarrierEntry :=
  keepFirst (·.number) (fun x => frequencyInRange x.carrier.freq) [] l

/-- A package list with repeats dropped. -/
def dedup (l : List Nat) : List Nat := keepFirst id (fun _ => true) [] l

def channelOk (carriers : List CarrierEntry) (e : ChannelEntry) : Bool :=
  lcnInRange e.lcn && e.service != 0 && carriers.any (·.number == e.carrierNo) &&
    !(e.kind == .subscribed && e.packages.isEmpty)

def sortBy {α : Type} (before : α → α → Bool) (l : List α) : List α := l.foldr (insertBy before) []

def keepChannels (carriers : List CarrierEntry) (l : List ChannelEntry) : List ChannelEntry :=
  let l := l.map fun e => { e with packages := dedup e.packages }
  let l := keepFirst (·.lcn) (channelOk carriers) [] l
  (sortBy (fun a b => a.lcn < b.lcn) l).take 600

/-! ## Snapshot (R11) -/

def partCount (d : Directory) : Nat := (d.map.length + 15) / 16

/-- The record of an index: the header 0, or a part. -/
def snapshotItem (d : Directory) (k : Nat) : Item :=
  if k = 0 then .single .directoryPart 0 (.directoryHeader d.version d.carriers d.guideCarrier (partCount d))
  else .single .directoryPart k (.directoryPart d.version ((d.map.drop (16 * (k - 1))).take 16))

/-- The indices a snapshot owes, in the order it offers them. -/
def fullSnapshot (d : Directory) : List Nat := (List.range (partCount d)).map (· + 1) ++ [0]

/-- Offers one owed index: it stays owed on a full queue or during a wipe; STORE_FULL or STORE_FAULT ends the snapshot. -/
def offerIndex (c : Core) (k : Nat) : Core :=
  if c.dir.owed.contains k then
    match offer (snapshotItem c.dir k) c with
    | (.taken, c) => setDir { c.dir with owed := c.dir.owed.filter (· != k) } c
    | (.storeFull, c) | (.storeFault, c) => setDir { c.dir with owed := [] } c
    | (_, c) => c
  else c

def offerSnapshot (c : Core) : Core := c.dir.owed.foldl offerIndex c

/-- The full snapshot becomes owed and is offered. -/
def startSnapshot (c : Core) : Core := offerSnapshot (setDir { c.dir with owed := fullSnapshot c.dir } c)

/-! ## Swap-in and the change report (R10) -/

/-- The class of an LCN between two maps with their carrier lists. -/
def classify (oldMap newMap : List ChannelEntry) (oldList newList : List CarrierEntry) (lcn : Nat) :
    ChangeClass × Option Carrier × Option Carrier :=
  match oldMap.find? (·.lcn == lcn), newMap.find? (·.lcn == lcn) with
  | some _, none => (.vanished, none, none)
  | none, some _ => (.added, none, none)
  | none, none => (.unchanged, none, none)
  | some a, some b =>
    let x := resolveIn oldList a.carrierNo
    let y := resolveIn newList b.carrierNo
    let cls :=
      if x ≠ y then ChangeClass.moved
      else if a.service ≠ b.service then .renumbered
      else if { a with carrierNo := b.carrierNo } ≠ b then .altered
      else .unchanged
    (cls, x, y)

def renumberTuner (c : Core) (t : Fin 4) : Core :=
  let u := tuner c t
  if u.state = .off then c else setTuner t { u with number := u.carrier.bind (numberOf c) } c

def isVanished (cls : Nat → ChangeClass × Option Carrier × Option Carrier) (lcn : Nat) : Bool := (cls lcn).1 == .vanished

/-- The swap of a complete version, as one event (R10); the assembly is left as an abandoned one (log 26). -/
def swapIn (version : Nat) (area : List AreaPart) (c : Core) : Core :=
  let parts := sortBy (fun a b => a.number < b.number) area
  let readCarriers := parts.flatMap (·.carriers)
  let readChannels := parts.flatMap (·.channels)
  let carriers := keepCarriers readCarriers
  let channels := keepChannels carriers readChannels
  let guide := ((parts.find? (·.number == 0)).bind (·.guide)).filter fun n => carriers.any (·.number == n)
  let old := c.dir
  let sorted := sortBy (fun a b => a.number < b.number) carriers
  let c := setDir { old with map := channels, carriers := sorted, guideCarrier := guide, version := some version,
                             asmVersion := none, asmLast := 0, asmArea := [] } c
  let c := post (.channelsChanged version carriers.length channels.length (readCarriers.length - carriers.length)
    (readChannels.length - channels.length)) c
  let c := startSnapshot c
  let c := allTuners.foldl renumberTuner c
  let cls := classify old.map channels old.carriers sorted
  watchTest (reportToLocks (isVanished cls) (reportToSessions cls c))

/-! ## Assembly (R6, R7) -/

/-- The assembly is given up: no version, no segments; the last segment number is cleared with them (R6, log 26). -/
def abandonAssembly (c : Core) : Core := setDir { c.dir with asmVersion := none, asmLast := 0, asmArea := [] } c

def restartAssembly (version last : Nat) (c : Core) : Core :=
  setDir { c.dir with asmVersion := some version, asmLast := last, asmArea := [] } c

/-- The segment joins the seen-set and its contents the area; a complete version is swapped in (R7). -/
def joinArea (h : SegmentHeader) (p : AreaPart) (c : Core) : Core :=
  let seen := c.dir.asmArea.map (·.number)
  if seen.contains h.number then c
  else
    let c := setDir { c.dir with asmArea := p :: c.dir.asmArea } c
    if seenAll (h.number :: seen) c.dir.asmLast then swapIn h.version c.dir.asmArea c else c

/-- A directory segment handed over (R6). -/
def takeDirectory (h : SegmentHeader) (guide : Option Nat) (carriers : List CarrierEntry) (channels : List ChannelEntry)
    (c : Core) : Core :=
  if c.dir.version = some h.version then abandonAssembly c
  else if h.last ≥ 40 || h.number > h.last then c
  else
    let fits := c.dir.asmVersion = some h.version ∧ c.dir.asmLast = h.last
    joinArea h ⟨h.number, guide, carriers, channels⟩ (if fits then c else restartAssembly h.version h.last c)

/-! ## Requests (R13 to R15) -/

def listed (e : ChannelEntry) : ListedChannel := ⟨e.lcn, e.kind, e.name, e.hidden, e.baseRating⟩

def listChannels (a : ListChannelsReq) (c : Core) : Answer :=
  if !lcnInRange a.start then .bare .badRequest
  else
    let d := c.dir
    let l := d.map.filter fun e => a.start ≤ e.lcn && (a.hidden || !e.hidden)
    { code := .ok, body := .channels d.version d.map.length d.carriers.length d.guideCarrier d.home
        (d.asmVersion.map fun v => (v, d.asmArea.length)) ((l.take 10).map listed) ((l.drop 10).head?.map (·.lcn)) }

def channelInfo (lcn : Nat) (c : Core) : Answer :=
  if !lcnInRange lcn then .bare .badRequest
  else
    match findChannel c lcn with
    | none => .bare .noSuch
    | some e =>
      let x := resolve c e.carrierNo
      { code := .ok, body := .channelInfo e x (x.isSome && guideCarrier c == x) (x.isSome && c.dir.home == x) }

def symOf : Nat → Option SymbolClass
  | 0 => some .a
  | 1 => some .b
  | 2 => some .c
  | _ => none

/-- A carrier as a request names it, when its fields lie in their ranges. -/
def carrierOf (a : CarrierReq) : Option Carrier :=
  if frequencyInRange a.freq then (symOf a.sym).map fun s => ⟨a.freq, s⟩ else none

def settleHome (x : Option Carrier) (c : Core) : Answer × Core :=
  settle (.single .settings 1 (.homeCarrier x)) (fun c => watchReclaim (setDir { c.dir with home := x } c)) c

def setHomeCarrier (a : Option CarrierReq) (c : Core) : Answer × Core :=
  match a with
  | none => settleHome none c
  | some r =>
    match carrierOf r with
    | none => (.bare .badRequest, c)
    | some x => settleHome (some x) c

/-! ## Tuner requests (R28, R29) -/

def setAcqLimit (n : Nat) (c : Core) : Core := { c with arb := { c.arb with acqLimit := n } }

def setTuning (n : Nat) (c : Core) : Answer × Core :=
  if n < 200 || n > 3000 || n % 100 ≠ 0 then (.bare .badRequest, c)
  else settle (.single .settings 2 (.acqLimit n)) (setAcqLimit n) c

def tunerReport (c : Core) (t : Fin 4) : TunerReport :=
  let u := tuner c t
  { state := u.state, carrier := u.carrier, number := u.number, holders := u.holders,
    lossExpired := u.state == .lost && !u.loss.running, openSlots := allSlots.countP fun i => (slot c i).isOn t }

def tunerStatus (_ : Unit) (c : Core) : Answer :=
  { code := .ok, body := .tuners (allTuners.map (tunerReport c)) (controlTuner c) c.arb.acqLimit }

/-! ## KEY STATUS (R82) -/

def keyReport (c : Core) (k : Fin 4) : KeyReport :=
  let x := keySlot c k
  let fields : KeyFields :=
    { carrier := x.carrier, number := x.carrier.bind (numberOf c), keyLane := x.keyLane, outputs := boundOutputs c k,
      evenHeld := x.even.isSome, oddHeld := x.odd.isSome, parity := x.parity, period := x.period, life := x.life.remaining,
      filter := x.filter }
  if x.state = .empty then { slot := k, state := .empty, refs := 0, fields := none }
  else { slot := k, state := x.state, refs := x.refs, fields := some fields }

def keyStatus (a : Option Nat) (c : Core) : Answer :=
  match a with
  | none => { code := .ok, body := .keys (allTuners.map (keyReport c)) }
  | some n => if h : n < 4 then { code := .ok, body := .keys [keyReport c ⟨n, h⟩] } else .bare .badRequest

/-! ## Meanings -/

def execListChannels (tag : Byte) (a : Option ListChannelsReq) (s : State) : Host.Outcome State Fault Refusal :=
  .next (answeredWith (.listChannels tag a) tag a (fun x => readOnly (listChannels x)) s)
def execChannelInfo (tag : Byte) (a : Option Nat) (s : State) : Host.Outcome State Fault Refusal :=
  .next (answeredWith (.channelInfo tag a) tag a (fun x => readOnly (channelInfo x)) s)
def execSetHomeCarrier (tag : Byte) (a : Option (Option CarrierReq)) (s : State) : Host.Outcome State Fault Refusal :=
  .next (answeredWith (.setHomeCarrier tag a) tag a setHomeCarrier s)
def execSetTuning (tag : Byte) (a : Option Nat) (s : State) : Host.Outcome State Fault Refusal :=
  .next (answeredWith (.setTuning tag a) tag a setTuning s)
def execTunerStatus (tag : Byte) (a : Option Unit) (s : State) : Host.Outcome State Fault Refusal :=
  .next (answeredWith (.tunerStatus tag a) tag a (fun x => readOnly (tunerStatus x)) s)
def execKeyStatus (tag : Byte) (a : Option (Option Nat)) (s : State) : Host.Outcome State Fault Refusal :=
  .next (answeredWith (.keyStatus tag a) tag a (fun x => readOnly (keyStatus x)) s)
def execLockReport (t : Fin 4) (count : BitVec 4) (s : State) : Host.Outcome State Fault Refusal :=
  .next (onCore (lockReport t count) s)
def execLossReport (t : Fin 4) (count : BitVec 4) (s : State) : Host.Outcome State Fault Refusal :=
  .next (onCore (lossReport t count) s)
def execAcquisitionLimit (t : Fin 4) (s : State) : Host.Outcome State Fault Refusal :=
  .next (onCore (acquisitionFailed t) s)
def execLossTimer (t : Fin 4) (s : State) : Host.Outcome State Fault Refusal := .next (onCore (lossTimerExpired t) s)
def execStandbyWatchHold (s : State) : Host.Outcome State Fault Refusal := .next (onCore holdExpired s)

end Sys2Proof.Machine
end

