-- ==== Sys2Proof/Machine/Cells.lean ====
section
/-! DEFINITION. Cells: their intake, the hand-over of segments to their consumers, grant bulletins, key bulletins, and the clearing of
media cells (R30, R34, R71 to R81, R90 to R96). -/

namespace Sys2Proof.Machine

open Sys2Proof

/-! ## Grant bulletins (R90 to R96) -/

/-- Well-formed operations (Table 5.3-2). -/
def GrantOp.formed : GrantOp → Bool
  | .addPackage id first last => 1 ≤ id && id ≤ 4095 && first ≤ last
  | .dropPackage id => 1 ≤ id && id ≤ 4095
  | .addEvent lcn _ _ => lcnInRange lcn
  | .creditLimit n => n ≤ 1000000
  | .creditTopUp n => 1 ≤ n && n ≤ 1000000
  | .purchaseAck _ | .cut | .restore => true
  | .unknown => false

/-- The form check (R90). -/
def bulletinFormed (b : GrantBulletin) : Bool := !b.ops.isEmpty && b.ops.length ≤ 24 && b.ops.all GrantOp.formed

def groupSlot (n : Nat) : List Nat → Fin 5 → Option (Fin 5)
  | [], _ => none
  | g :: gs, k => if g = n then some k else groupSlot n gs (k + 1)

/-- The address slot a bulletin uses, when it is addressed to this part (R91). -/
def addressSlot (f : IssueFields) : GrantAddress → Option (Fin 5)
  | .unit a => if a = f.address then some 0 else none
  | .group n => groupSlot n f.groups 1

/-- The number is accepted against the last number of its slot (R92). -/
def numberAccepted (n : Seq) : Option Seq → Bool
  | none => true
  | some last => seqAfter n last

def isAck : GrantOp → Bool
  | .purchaseAck _ => true
  | _ => false

/-- The room test (R93). -/
def roomFor (b : GrantBulletin) (st : Store) : Bool :=
  match st.state with
  | .scanning | .wiping => false
  | .storeFull | .fault => true
  | _ =>
    let group := if isWaiting st .bulletinNumbers 0 then 0 else 1
    let ack := if b.ops.any isAck && !isWaiting st .logAck 0 then 1 else 0
    group + ack ≤ freePlaces st

/-- ADD EVENT (R94). -/
def addEvent (lcn event expiry : Nat) (c : Core) : Core :=
  let g : EventGrant := ⟨lcn, event, expiry, .bulletin⟩
  if c.clock.time.any fun now => expiry ≤ now then c
  else
    match c.access.events.find? (·.same g) with
    | some x => setEvents (placeGrant { x with expiry := max x.expiry expiry } c.access.events) c
    | none => if c.access.events.length < eventPlaces c then setEvents (placeGrant g c.access.events) c else c

def setCut (b : Bool) (c : Core) : Core := { c with access := { c.access with cut := b } }

/-- One operation (R94). -/
def applyOp (c : Core) : GrantOp → Core
  | .addPackage id first last => setPackages (addPackage id first last c.access.packages) c
  | .dropPackage id => setPackages (c.access.packages.filter (·.id != id)) c
  | .addEvent lcn event expiry => addEvent lcn event expiry c
  | .creditLimit n => creditLimit n c
  | .creditTopUp n => creditTopUp n c
  | .purchaseAck s => purchaseAck s c
  | .cut => setCut true c
  | .restore => setCut false c
  | .unknown => c

def setLast (k : Fin 5) (n : Seq) (c : Core) : Core :=
  { c with access := { c.access with last := putAt c.access.last k (some n) } }

/-- An accepted bulletin is applied, persisted and reported (R94 to R96). Credit has changed when the balance or the limit differs after
the last operation (log 61). -/
def applyBulletin (k : Fin 5) (b : GrantBulletin) (c : Core) : Core :=
  let old := c
  let c := setLast k b.number (b.ops.foldl applyOp c)
  let credit := c.purchase.balance ≠ old.purchase.balance ∨ c.purchase.limit ≠ old.purchase.limit
  let c := commitGroup credit c
  if c.access.packages ≠ old.access.packages ∨ c.access.events ≠ old.access.events ∨ c.access.cut ≠ old.access.cut then
    reevaluate (postGrants (.bulletin k b.number) c)
  else c

/-- What becomes of a bulletin handed over. -/
inductive BulletinFate where
  | released
  | kept
  | applied (k : Fin 5)
  deriving DecidableEq, Repr

/-- The tests of R86 and R90 to R93. -/
def judgeBulletin (b : GrantBulletin) (c : Core) : BulletinFate :=
  match c.access.issue with
  | .locked f =>
    if bulletinFormed b then
      match addressSlot f b.address with
      | none => .released
      | some k =>
        if numberAccepted b.number (c.access.last.get k) then if roomFor b c.store then .applied k else .kept
        else .released
    else .released
  | _ => .released

/-! ## Key bulletins (R71 to R76) -/

/-- A change of a slot's state is handed to the Room Controller (R76). -/
def setKeyTold (k : Fin 4) (x : KeySlot) (c : Core) : Core :=
  let changed := x.state ≠ (keySlot c k).state
  let c := setKeySlot k x c
  if changed then reevaluate c else c

def systemKey (c : Core) : Key := (c.access.issue.fields.map (·.key)).getD 0

/-- A key bulletin handed to a slot (R71 to R75). -/
def takeKeys (k : Fin 4) (b : KeyBulletin) (c : Core) : Core :=
  let x := keySlot c k
  match x.keyLane with
  | none => c
  | some lane =>
    if !KeyBulletin.formed b lane then c
    else if !criterionMet c k b.criterion then
      if x.state = .denied then c else setKeyTold k x.denied c
    else if x.period = some b.period then c
    else setKeyTold k (x.opening (systemKey c) b) c

/-- The key slot whose filter stands on a tuner's lane. -/
def keySlotAt (c : Core) (t : Fin 4) (lane : Nat) : Option (Fin 4) :=
  allTuners.find? fun k => (keySlot c k).filter == some t && (keySlot c k).keyLane == some lane

/-- The key-life timer expires (R80). -/
def keyLifeExpired (k : Fin 4) (c : Core) : Core :=
  let x := keySlot c k
  if x.life.running then
    let c := post (.keyStale k x.carrier x.keyLane x.period) c
    setKeyTold k { x with life := x.life.expired, state := if x.state = .ready then .stale else x.state } c
  else c

/-! ## Hand-over (R34) -/

/-- What a consumer that releases at once does with a segment read as `r`; a reading of another table is discarded (log 3). -/
def consume (f : Filter) (h : SegmentHeader) (r : TableBody) (c : Core) : Core :=
  match f.consumer, r with
  | .directory, .directory guide carriers channels => takeDirectory h guide carriers channels c
  | .time, .time t offset => takeTime t offset c
  | .laneMap, .laneMap es => takeLaneMap f.tuner h es c
  | .presentNext, .presentNext es => takePresentNext f.tuner es c
  | .schedule, .schedule rs => takeSchedule h rs c
  | .keys, .keys b =>
    match keySlotAt c f.tuner f.lane with
    | some k => takeKeys k b c
    | none => c
  | _, _ => c

/-- Releases the handed buffer of a slot. -/
def releaseBuffer (i : Fin 16) (c : Core) : Core := setSlot i (slot c i).release c

/-- The consumer of slot `i` takes the handed buffer; `true` when it keeps it (R34, R93). -/
def takeHanded (i : Fin 16) (c : Core) : Core × Bool :=
  match (slot c i).filter, (slot c i).handed with
  | some f, some b =>
    match f.consumer, b.reading with
    | .grants, some (.grants g) =>
      match judgeBulletin g c with
      | .kept => (c, true)
      | .released => (releaseBuffer i c, false)
      | .applied k => (applyBulletin k g (releaseBuffer i c), false)
    | _, some r => (consume f (segmentHeader b.bytes) r (releaseBuffer i c), false)
    | _, none => (releaseBuffer i c, false)
  | _, _ => (c, true)

/-- Hand-over goes on while a waiting buffer follows a released one: a slot holds at most two. -/
def handOver : Nat → Fin 16 → Core → Core
  | 0, _, c => c
  | n + 1, i, c =>
    match takeHanded i c with
    | (c, true) => c
    | (c, false) =>
      let x := slot c i
      if !x.hasHanded && x.handNext.hasHanded then handOver n i (setSlot i x.handNext c) else c

/-- A buffer is handed when it becomes FULL and none was (R34). -/
def handIfNew (i : Fin 16) (x : Slot) (c : Core) : Core :=
  let before := (slot c i).hasHanded
  let c := setSlot i x c
  if !before && x.hasHanded then handOver 3 i c else c

/-- BUFFER_HAND_OVER: the older waiting buffer of a slot is handed. -/
def bufferHandOver (i : Fin 16) (c : Core) : Core := handIfNew i (slot c i).handNext c

/-- The kept bulletin is taken again from the addressing test (R93). -/
def retestOne (c : Core) (i : Fin 16) : Core :=
  if (slot c i).feeds .grants && (slot c i).hasHanded then handOver 3 i c else c

def retestKept (c : Core) : Core := allSlots.foldl retestOne c

/-! ## Media cells (R77 to R79) -/

/-- The outputs whose session presents the lane from a tuner. -/
def presenting (c : Core) (t : Fin 4) (lane : Nat) : List Output :=
  allOutputs.filter fun o =>
    let s := session c o
    s.state == .presenting && s.tuner == some t && (s.service.any fun e => e.lanes.contains lane)

def parityKey : Parity → Option KeyParity
  | .even => some .even
  | .odd => some .odd
  | _ => none

/-- The slot that handles the cell for a session; none for an unscrambled service. -/
def cellSlot (c : Core) (o : Output) : Option (Fin 4) :=
  let s := session c o
  if s.service.any fun e => e.keyLane == 0 then none else s.slot

/-- What reaches one output of an enciphered cell: deciphered with its slot's key, or nothing. -/
def cleared (c : Core) (p : KeyParity) (payload : List Byte) (o : Output) : Option (List Byte) :=
  (cellSlot c o).bind fun k => ((keySlot c k).key p).map fun key => Config.decipherPayload key payload

/-- A slot handles an enciphered cell: its parity is taken, and it goes to MISSING when the key is absent (R78, R79). -/
def slotTakesCell (p : KeyParity) (c : Core) (k : Fin 4) : Core :=
  let x := keySlot c k
  setKeySlot k (if (x.key p).isSome then { x with parity := some p } else x.keyAbsent p) c

def outCell (h : CellHeader) (payload : List Byte) : OutCell :=
  { lane := h.lane, unitStart := h.unitStart, continuity := h.count, payload := payload }

def routeTo (h : CellHeader) (f : Output → Option (List Byte)) (c : Core) (o : Output) : Core :=
  match f o with
  | some payload => carry o (outCell h payload) c
  | none => c

def keyStates (c : Core) : List KeyState := allTuners.map fun k => (keySlot c k).state

/-- A media cell at the Key Table (R77): every slot takes its parity, and one re-evaluation follows (R76, R79, log 57). -/
def clearCell (t : Fin 4) (h : CellHeader) (payload : List Byte) (c : Core) : Core :=
  let os := presenting c t h.lane
  match parityKey h.parity with
  | none => os.foldl (routeTo h fun _ => some payload) c
  | some p =>
    let ks := allTuners.filter fun k => os.any fun o => cellSlot c o == some k
    let c' := os.foldl (routeTo h (cleared c p payload)) (ks.foldl (slotTakesCell p) c)
    if keyStates c' = keyStates c then c' else reevaluate c'

/-! ## Cell intake (R30) -/

/-- The Segment Collector takes the cell when a slot is open on its lane (R30, R32). -/
def collectCell (t : Fin 4) (h : CellHeader) (payload : List Byte) (reading : TableBody) (c : Core) : Core :=
  match slotOn c t h.lane with
  | some i => handIfNew i ((slot c i).takeCell h payload reading) c
  | none => c

/-- A cell on an input is taken only while its tuner is LOCKED; filler and the reserved parity are dropped (R30). -/
def cellArrival (t : Fin 4) (header : BitVec 32) (payload : List Byte) (reading : TableBody) (c : Core) : Core :=
  let h := cellHeader header
  if (tuner c t).state = .locked && h.lane ≠ 0 && h.parity ≠ .reserved then
    clearCell t h payload (collectCell t h payload reading c)
  else c

/-! ## Meanings -/

def execCellArrival (t : Fin 4) (header : BitVec 32) (payload : List Byte) (reading : TableBody) (s : State) :
    Host.Outcome State Fault Refusal := .next (onCore (cellArrival t header payload reading) s)
def execBufferHandOver (i : Fin 16) (s : State) : Host.Outcome State Fault Refusal :=
  .next (onCore (bufferHandOver i) s)
def execKeptBulletinRetest (s : State) : Host.Outcome State Fault Refusal := .next (onCore retestKept s)
def execKeyLife (k : Fin 4) (s : State) : Host.Outcome State Fault Refusal := .next (onCore (keyLifeExpired k) s)

end Sys2Proof.Machine
end

