-- ==== Sys2Proof/Machine/Link.lean ====
section
/-! DEFINITION. The Message Link: receiving frames, taking notices, ATTN, the key line, and the link requests (R214 to R224). -/

namespace Sys2Proof.Machine

open Sys2Proof

def setLink (x : Link) (c : Core) : Core := { c with link := x }

/-! ## Receiving (R214) -/

def closeFrame (s : State) : State := { s with front := { s.front with rx := [] } }

def badFrame (s : State) : State := send (.reply 0 .badFrame .none) (closeFrame s)

/-- A whole frame is judged. -/
def judgeFrame (bs : List Byte) (s : State) : State :=
  match judge bs with
  | .badFrame => badFrame s
  | .unknown tag => send (.reply tag .unknown .none) (closeFrame s)
  | .request tag i => offerFrame i tag (closeFrame s)

/-- The body length byte of an open frame, once it has arrived. -/
def bodyLength (rx : List Byte) : Option Nat := rx[3]?.map (·.toNat)

/-- One byte from the host. -/
def receiveByte (s : State) (b : Byte) : State :=
  if s.front.rx.isEmpty then
    if b = 0xA5#8 then { s with front := { s.front with rx := [b] } } else s
  else
    let rx := s.front.rx ++ [b]
    match bodyLength rx with
    | none => { s with front := { s.front with rx := rx } }
    | some n =>
      if n > 240 then badFrame s
      else if rx.length = n + 6 then judgeFrame (rx.drop 1) s
      else { s with front := { s.front with rx := rx } }

def receive (bs : List Byte) (s : State) : State := bs.foldl receiveByte s

/-- The open frame's bytes have not all arrived within 100 ms of its SYNC byte. -/
def receiveLimit (s : State) : State := if s.front.rx.isEmpty then s else badFrame s

/-! ## Taking notices (R218, R219) -/

/-- ATTN after a TAKE NOTICES (R219). -/
def Link.attnTaken (l : Link) : Link :=
  match l.mode with
  | .level => { l with attn := !l.notices.isEmpty }
  | .edge => { l with gapTimer := if l.notices.isEmpty then l.gapTimer.stop else Timer.start l.gap }

def Link.taken (l : Link) : Link := Link.attnTaken { l with notices := l.notices.drop 6, lost := false }

def noticeBatch (tag : Byte) (l : Link) : Frame := .batch tag l.lost (l.notices.length - 6) (l.notices.take 6)

def takeNotices (tag : Byte) (a : Option Unit) : State → State :=
  request (.takeNotices tag a) tag (unlessScanning tag fun s =>
    match a with
    | none => replyHead (.reply tag .badRequest .none) s
    | some _ => replyHead (noticeBatch tag s.core.link) { s with core := setLink s.core.link.taken s.core })

/-- The gap timer expires: a pulse (R219). -/
def gapExpired (c : Core) : Core :=
  if c.link.gapTimer.running then
    setLink { c.link with gapTimer := c.link.gapTimer.expired, pulses := c.link.pulses + 1 } c
  else c

/-! ## The key line (R220) -/

def keyReportTaken (code : Byte) (mark : KeyMark) (c : Core) : Core :=
  match mark with
  | .press =>
    let c := post (.keypress code) c
    if code = c.link.powerKey then assertWake (fun w => { w with powerKey := true }) c else c
  | .repeated | .other => c

/-! ## Link requests (R222 to R224) -/

def ping (tag : Byte) (a : Option Unit) : State → State :=
  request (.ping tag a) tag fun s =>
    match a with
    | none => replyHead (.reply tag .badRequest .none) s
    | some _ =>
      replyHead (.reply tag .ok (.ping 0x0460 Config.siliconRevision (s.core.store.state == .scanning)
        (Config.strapRate s.front.strap))) s

def modeOf : Nat → Option AttnMode
  | 0 => some .level
  | 1 => some .edge
  | _ => none

/-- A new attention mode in force settles ATTN (R223). -/
def Link.withMode (l : Link) (m : AttnMode) (gap : Nat) : Link :=
  let l' := { l with mode := m, gap := gap }
  if m = l.mode then l'
  else
    match m with
    | .level => { l' with attn := !l.notices.isEmpty, gapTimer := l.gapTimer.stop }
    | .edge => { l' with attn := false, gapTimer := if l.notices.isEmpty then l.gapTimer else Timer.start gap }

def linkItem (m : AttnMode) (gap : Nat) (key : Byte) : Item := .single .settings 7 (.link m gap key)

def setAttention (a : AttentionReq) (c : Core) : Answer × Core :=
  match modeOf a.mode with
  | none => (.bare .badRequest, c)
  | some m =>
    if a.gap < 1 || a.gap > 8 then (.bare .badRequest, c)
    else settle (linkItem m a.gap c.link.powerKey) (fun c => setLink (c.link.withMode m a.gap) c) c

def setKeys (n : Nat) (c : Core) : Answer × Core :=
  if n > 255 then (.bare .badRequest, c)
  else
    let k := BitVec.ofNat 8 n
    settle (linkItem c.link.mode c.link.gap k) (fun c => setLink { c.link with powerKey := k } c) c

/-- RESET UNIT: answered OK, its reset is then to be taken (R224, log 31). -/
def resetUnit (tag : Byte) (a : Option Unit) : State → State :=
  request (.resetUnit tag a) tag (unlessScanning tag fun s =>
    match a with
    | none => replyHead (.reply tag .badRequest .none) s
    | some _ =>
      let s := replyHead (.reply tag .ok .none) s
      { s with front := { s.front with resetPending := true } })

/-- The link's defaults at the completion of a wipe (R223). -/
def wipeLink (c : Core) : Core := setLink { c.link.withMode .level 4 with powerKey := 0x0C#8 } c

/-! ## Meanings -/

def execFrameReceived (bs : List Byte) (s : State) : Host.Outcome State Fault Refusal := .next (receive bs s)
def execFrameReceiveLimit (s : State) : Host.Outcome State Fault Refusal := .next (receiveLimit s)
def execBodyLengthExceeded (kind tag length : Byte) (s : State) : Host.Outcome State Fault Refusal :=
  .next (receive [0xA5#8, kind, tag, length] s)
def execTakeNotices (tag : Byte) (a : Option Unit) (s : State) : Host.Outcome State Fault Refusal :=
  .next (takeNotices tag a s)
def execGapTimer (s : State) : Host.Outcome State Fault Refusal := .next (onCore gapExpired s)
def execKeyReport (code : Byte) (mark : KeyMark) (s : State) : Host.Outcome State Fault Refusal :=
  .next (onCore (keyReportTaken code mark) s)
def execPing (tag : Byte) (a : Option Unit) (s : State) : Host.Outcome State Fault Refusal := .next (ping tag a s)
def execSetAttention (tag : Byte) (a : Option AttentionReq) (s : State) : Host.Outcome State Fault Refusal :=
  .next (answeredWith (.setAttention tag a) tag a setAttention s)
def execSetKeys (tag : Byte) (a : Option Nat) (s : State) : Host.Outcome State Fault Refusal :=
  .next (answeredWith (.setKeys tag a) tag a setKeys s)
def execResetUnit (tag : Byte) (a : Option Unit) (s : State) : Host.Outcome State Fault Refusal :=
  .next (resetUnit tag a s)

end Sys2Proof.Machine
end

