-- ==== Sys2Proof/Machine/Pages.lean ====
section
/-! DEFINITION. Pages and records of the Account Store: room on a page, live and needed records, marks (R173, R174, R180, R183, R187).
-/

namespace Sys2Proof.Machine

open Sys2Proof

def setStore (x : Store) (c : Core) : Core := { c with store := x }

/-! ## Room (R173, R174) -/

/-- 16 bytes of framing plus the body, rounded up to a multiple of 16. -/
def recordSize (length : Nat) : Nat := (16 + length + 15) / 16 * 16

def PageEntry.size : PageEntry → Nat
  | .record r => recordSize r.length
  | .wipeMark _ _ => 16

def pageFree (p : Page) : Nat := 496 - (p.entries.map PageEntry.size).sum

def openPage (st : Store) : Option PageNo := allPages.find? fun p => (page st p).state == .opened

/-- The pages in the order in which the next ERASED page is looked for. -/
def pagesAfter (last : Option PageNo) : List PageNo :=
  match last with
  | none => allPages
  | some p => allPages.drop (p.val + 1) ++ allPages.take (p.val + 1)

def nextErased (st : Store) : Option PageNo := (pagesAfter st.lastOpened).find? fun p => (page st p).state == .erased

def countState (st : Store) (x : PageState) : Nat := st.pages.toList.countP (·.state == x)

/-- The oldest full page: the FULL page of lowest page serial (R173). -/
def oldestFull (st : Store) : Option PageNo :=
  (allPages.filter fun p => (page st p).state == .full).foldl
    (fun best p => match best with
      | none => some p
      | some q => if (page st p).serial < (page st q).serial then some p else some q) none

/-- Whether records of these lengths fit in `free` bytes and `left` further pages. -/
def fitIn (free left : Nat) : List Nat → Bool
  | [] => true
  | n :: ns =>
    if recordSize n ≤ free then fitIn (free - recordSize n) left ns
    else
      match left with
      | 0 => false
      | k + 1 => recordSize n ≤ 496 && fitIn (496 - recordSize n) k ns

/-- An item may be begun: its records fit without the last ERASED page (R180). -/
def itemFits (st : Store) (lengths : List Nat) : Bool :=
  fitIn (match openPage st with
    | some p => pageFree (page st p)
    | none => 0) (erasedCount st - 1) lengths

/-! ## Valid, live and needed records (R158, R174, R188) -/

def PageEntry.asRecord : PageEntry → Option Record
  | .record r => some r
  | .wipeMark _ _ => none

/-- Every record on the pages with its page. -/
def allRecords (st : Store) : List (PageNo × Record) :=
  allPages.flatMap fun p => (page st p).entries.filterMap fun e => e.asRecord.map fun r => (p, r)

/-- The serial of a wipe mark that stands on a page, or 0: the scan discards the records below it (R188). -/
def markFloor (st : Store) : Nat :=
  (allPages.flatMap fun p => (page st p).entries.filterMap fun e => match e with
    | .wipeMark n true => some n
    | _ => none).foldl max 0

def Record.sound (r : Record) : Bool := !r.voided && !r.torn

/-- Every member of a record's group stands sound on some page (R174, R188, log 30). -/
def groupFound (l : List (PageNo × Record)) (r : Record) : Bool :=
  (List.range r.members).all fun m => l.any fun x => x.2.sound && x.2.serial == r.serial && x.2.member == m + 1

/-- The serials of the groups that stand whole on the pages. -/
def wholeGroups (st : Store) : List Nat :=
  let l := allRecords st
  (l.filter fun x => 1 < x.2.members && groupFound l x.2).map (·.2.serial)

/-- A record is valid when it is sound and, as a member of a group, its group is whole (R174, log 42). -/
def validIn (st : Store) (r : Record) : Bool := r.sound && (r.members ≤ 1 || st.whole.contains r.serial)

/-- One copy of a record is newer than another: by serial, then by page serial (R174). -/
def newer (st : Store) (a b : PageNo × Record) : Bool :=
  b.2.serial < a.2.serial || (a.2.serial == b.2.serial && (page st b.1).serial < (page st a.1).serial)

/-- The live record of a key among the records of the pages: the newest valid one that the scan has not discarded (R174, R188). -/
def liveIn (st : Store) (l : List (PageNo × Record)) (key : StoreKey) : Option (PageNo × Record) :=
  (l.filter fun x => x.2.key == key && validIn st x.2 && st.floor ≤ x.2.serial).foldl
    (fun best x => match best with
      | none => some x
      | some y => if newer st x y then some x else some y) none

def liveRecord (st : Store) (key : StoreKey) : Option (PageNo × Record) := liveIn st (allRecords st) key

def liveBody (st : Store) (kind : RecordKind) (index : Nat) : Option RecordBody :=
  (liveRecord st ⟨kind, index⟩).map (·.2.body)

def liveAcked (st : Store) : Option Seq :=
  match liveBody st .logAck 0 with
  | some (.logAck a _) => a
  | _ => none

def liveCharged (st : Store) : Option Seq :=
  match liveBody st .credit 0 with
  | some (.credit _ _ a) => a
  | _ => none

/-- A live PURCHASE record is needed while it is after the acknowledged-through or the charged-through number (R158). -/
def needed (st : Store) (r : Record) : Bool :=
  match r.body with
  | .purchase p _ _ _ => afterOpt p.seq (liveAcked st) || afterOpt p.seq (liveCharged st)
  | _ => true

/-- A record on a page is live there and needed. -/
def liveNeededAt (st : Store) (l : List (PageNo × Record)) (p : PageNo) (r : Record) : Bool :=
  liveIn st l r.key == some (p, r) && needed st r

/-- The live needed records, with their pages. -/
def liveNeeded (st : Store) : List (PageNo × Record) :=
  let l := allRecords st
  l.filter fun x => liveNeededAt st l x.1 x.2

/-- The next record a copy of page `p` takes (R183). -/
def nextCopy (st : Store) (p : PageNo) : Option Record :=
  ((allRecords st).filter fun x => x.1 == p).findSome? fun x =>
    if liveNeededAt st (allRecords st) p x.2 then some x.2 else none

/-! ## Writing on pages -/

def addEntry (p : PageNo) (e : PageEntry) (st : Store) : Store :=
  setPage p { page st p with entries := (page st p).entries ++ [e] } st

/-- A mark takes effect; only a wipe mark that has verified is an entry and takes a serial (R173, R187, log 80). -/
def applyMark (m : PageMark) (good : Bool) (st : Store) : Store :=
  match m with
  | .full p => setPage p { page st p with state := .full } st
  | .opening p =>
    { setPage p { page st p with state := .opened, serial := st.nextPageSerial } st with
      nextPageSerial := st.nextPageSerial + 1, lastOpened := some p }
  | .retiring p => setPage p { page st p with state := .retiring } st
  | .wipe p => { addEntry p (.wipeMark st.nextSerial good) st with nextSerial := st.nextSerial + 1 }

/-- The record a job writes next. -/
def Job.next (j : Job) : Option Record :=
  (j.item.records[j.done]?).map fun x =>
    { key := x.1, serial := j.serial, body := x.2, length := j.lengths.getD j.done 1, member := j.done + 1,
      members := j.item.records.length, voided := false, torn := false }

/-- The banks of 16 pages. -/
def bankOf (p : PageNo) : Fin 8 := ⟨p.val / 16, by omega⟩

def inBank (b : Fin 8) (p : PageNo) : Bool := bankOf p == b

def blankBank (b : Fin 8) (st : Store) : Store :=
  (allPages.filter (inBank b)).foldl (fun st p => setPage p .blank st) st

def bankBlank (st : Store) (b : Fin 8) : Bool := (allPages.filter (inBank b)).all fun p => page st p == .blank

end Sys2Proof.Machine
end

