-- ==== Sys2Proof/Machine/Store.lean ====
section
/-! DEFINITION. The Account Store at work: writing items, compaction, suspension, STORE_FULL, FAULT and the wipe (R176 to R187, R190).
-/

namespace Sys2Proof.Machine

open Sys2Proof

/-! ## Owed commits when an item leaves the queue (R179) -/

def offerOwedClock (c : Core) : Core :=
  let bookings := fun c : Core => c.clock.owedBookings.foldl (fun c id => commitBooking id c) c
  if c.clock.owedDay then
    if c.clock.owedBeforeDay.isEmpty then bookings (commitLastDay c) else commitLastDay (bookings c)
  else bookings c

def offerOwedGroup (c : Core) : Core := if c.access.groupOwed then commitGroup c.access.groupOwedCredit c else c
def offerOwedAck (c : Core) : Core := if c.purchase.logAckOwed then commitLogAck c else c
def offerOwedLimits (c : Core) : Core := c.limits.owed.foldl (fun c k => commitLimit' k c) c

/-- Every owner that owes a commit offers it again, in the order of the loads. -/
def offerOwed (c : Core) : Core := offerOwedLimits (offerOwedAck (offerOwedGroup (offerSnapshot (offerOwedClock c))))

/-- An item has left the queue. -/
def itemLeft (c : Core) : Core := retestKept (offerOwed c)

/-! ## Reports to the posters (R127, R154, R155, R180, R181, R185, R186) -/

def isPurchaseInFlight (c : Core) (k : StoreKey) : Bool :=
  k.kind == .purchase && (c.purchase.inFlight.any fun f => f.seq.toNat == k.index)

def toldWritten (k : StoreKey) (c : Core) : Core :=
  match k.kind with
  | .purchase => if isPurchaseInFlight c k then purchaseWritten c else c
  | .pin => pinReported true c
  | _ => c

/-- The owner's owed mark of a key is cleared, as at a refusal. -/
def clearOwed (k : StoreKey) (c : Core) : Core :=
  let limit := fun x : LimitCommit => setLimits { c.limits with owed := c.limits.owed.filter (· != x) } c
  match k.kind with
  | .booking => setClock (clearOwedBooking k.index c.clock) c
  | .lastDay => setClock { c.clock with owedDay := false, owedBeforeDay := [] } c
  | .bulletinNumbers => { c with access := { c.access with groupOwed := false, groupOwedCredit := false } }
  | .logAck => setPurchase { c.purchase with logAckOwed := false } c
  | .pin => limit .pin
  | .usedToday => limit .usedToday
  | .lockList => limit .lockList
  | .settings => if k.index = 4 then limit .settings else c
  | .directoryPart => setDir { c.dir with owed := [] } c
  | _ => c

/-- Ended without being written: a purchase fails, and the failure-commit flag is cleared when it follows the item; `writing` says
whether the item was being written or waited. -/
def toldEnded (writing : Bool) (k : StoreKey) (c : Core) : Core :=
  match k.kind with
  | .purchase => if isPurchaseInFlight c k then purchaseFailed c else c
  | .pin => pinReported writing c
  | _ => c

def toldFailed (writing : Bool) (k : StoreKey) (c : Core) : Core := clearOwed k (toldEnded writing k c)

/-- Every waiting item that the store has ended is reported failed (R181, R185). -/
def waitingFailed (keys : List StoreKey) (c : Core) : Core := keys.foldl (fun c k => toldFailed false k c) c

/-- The item being written is reported failed (R181). -/
def writingFailed (j : Option Job) (c : Core) : Core :=
  match j with
  | some j => toldFailed true j.item.key c
  | none => c

/-! ## FAULT and STORE_FULL (R181, R184, R185) -/

/-- The store enters FAULT: the item, then every waiting item, is reported failed. A run stops where it stands (R181). -/
def enterFault (cause : StoreCause) (p : Option PageNo) (c : Core) : Core :=
  let job := c.store.job
  let keys := c.store.queue.map (·.key)
  let c := setStore { c.store with state := .fault, faultCause := some cause, faultPage := p, queue := [], job := none,
                                   activity := .none } c
  let c := waitingFailed keys (writingFailed job c)
  post (.storeState .fault (some cause) (erasedCount c.store) p none) c

/-- STORE_FULL: the posters are told, STORE_STATE is posted, then follow the owed offers and the kept bulletin's retest (R185, log 74). -/
def enterStoreFull (c : Core) : Core :=
  let keys := c.store.queue.map (·.key)
  let c := setStore { c.store with state := .storeFull, queue := [], run := none, activity := .none, suspended := false,
                                   served := 0, eraseLeft := none } c
  let c := waitingFailed keys c
  let c := post (.storeState .storeFull none (erasedCount c.store) none (some (liveNeeded c.store).length)) c
  itemLeft c

/-! ## The wipe: marks and banks (R187) -/

def allBanks : List (Fin 8) := [0, 1, 2, 3, 4, 5, 6, 7]

/-- The order of the banks: the one that holds the wipe mark last (R187, log 20). -/
def bankOrder (mark : Option PageNo) : List (Fin 8) :=
  match mark with
  | none => allBanks
  | some p => allBanks.filter (· != bankOf p) ++ [bankOf p]

/-- The store begins erasing banks. -/
def beginBanks (l : List (Fin 8)) (st : Store) : Store :=
  match l with
  | [] => { st with activity := .none, banks := [] }
  | b :: bs => { st with activity := .bankErase b, banks := bs }

/-! ## Room for a write (R173, R180, R183, R187) -/

/-- Where the next write can go. -/
inductive Room' where
  | here
  | mark (m : PageMark)
  | nowhere
  deriving DecidableEq, Repr

def roomFor' (st : Store) (size : Nat) : Room' :=
  match openPage st with
  | some p => if size ≤ pageFree (page st p) then .here else .mark (.full p)
  | none =>
    match nextErased st with
    | some q => .mark (.opening q)
    | none => .nowhere

def setActivity (a : Activity) (c : Core) : Core := setStore { c.store with activity := a } c

def jobLength (st : Store) : Nat := (st.job.map fun j => j.lengths.getD j.done 1).getD 1

/-- The wipe's next step once no write runs: its mark, the page mark that needs, or the banks (R187). -/
def pursueWipe (c : Core) : Core :=
  match roomFor' c.store 16, openPage c.store with
  | .here, some p => setActivity (.mark (.wipe p) false .wipe) c
  | .mark m, _ =>
    if (nextErased c.store).isSome then setActivity (.mark m false .wipe) c
    else setStore (beginBanks (bankOrder none) c.store) c
  | _, _ => setStore (beginBanks (bankOrder none) c.store) c

/-- How the write of a record ends during a wipe: verified, failed its verify twice, or not begun. -/
inductive WriteEnd where
  | written | failed | unbegun
  deriving DecidableEq, Repr

/-- A group whose records have all verified is whole: its records are live from here on (R174, R180). -/
def noteWhole (j : Job) (st : Store) : Store :=
  if 1 < j.item.records.length then { st with whole := j.serial :: st.whole } else st

/-- What the poster of an item is told when its write ends during a wipe: of its last record written or failed, else that the item is
ended by the wipe (R186). -/
def toldInWipe (e : WriteEnd) (j : Job) (c : Core) : Core :=
  if j.item.records.length ≤ j.done + 1 then
    match e with
    | .written => toldWritten j.item.key (setStore (noteWhole j c.store) c)
    | .failed => toldFailed true j.item.key c
    | .unbegun => toldEnded true j.item.key c
  else toldEnded true j.item.key c

/-- During a wipe the write in progress has ended: its item is told, and the wipe mark follows (R186). -/
def endInWipe (e : WriteEnd) (c : Core) : Core :=
  let job := c.store.job
  let c := setStore { c.store with job := none, activity := .none } c
  pursueWipe (match job with
    | none => c
    | some j => toldInWipe e j c)

/-- A record, or its rewrite when `second`, finds no page at all: FAULT, or the end of the write during a wipe (R181, R186, log 19). -/
def noRoom (second : Bool) (c : Core) : Core :=
  if c.store.state = .wiping then endInWipe (if second then .failed else .unbegun) c
  else enterFault .write (openPage c.store) c

/-- Goes on with what a mark write was needed for: the write itself, or the next mark. A write that has begun may open the last ERASED page
(R180, log 19). -/
def pursue (n : Need) (c : Core) : Core :=
  match n with
  | .item second =>
    match roomFor' c.store (recordSize (jobLength c.store)) with
    | .here => setActivity (.item second) c
    | .mark m => setActivity (.mark m false n) c
    | .nowhere => noRoom second c
  | .copy r second =>
    match roomFor' c.store (recordSize r.length) with
    | .here => setActivity (.copy r second) c
    | .mark m => setActivity (.mark m false n) c
    | .nowhere => if c.store.state = .wiping then endInWipe .unbegun c else enterStoreFull c
  | .retire =>
    match c.store.run.bind (·.page) with
    | some p => setActivity (.mark (.retiring p) false .retire) c
    | none => c
  | .wipe => pursueWipe c

/-! ## Compaction (R182 to R184) -/

def urgentWaits (st : Store) : Bool := st.queue.head?.any (·.urgent)

/-- The next copy of the page, or its retiring mark (R183); the state is COMPACTING_COPY for both (log 79). -/
def copyNext (p : PageNo) (c : Core) : Core :=
  let c := setStore { c.store with state := .compactingCopy } c
  match nextCopy c.store p with
  | some r => pursue (.copy r false) c
  | none => pursue .retire c

/-- The run goes on: an urgent head is written first (R179), then the page's copies, the oldest full page when none is chosen. `force`
says that the urgent head cannot be begun for want of a page, which does not hold the run back (log 78). -/
def continueRun (force : Bool) (c : Core) : Core :=
  match c.store.run with
  | none => c
  | some r =>
    if urgentWaits c.store && !force then setStore { c.store with state := .idle, activity := .none } c
    else
      match r.page with
      | some p => copyNext p c
      | none =>
        match oldestFull c.store with
        | some p => copyNext p (setStore { c.store with run := some { r with page := some p } } c)
        | none => enterStoreFull c

def startRun (force : Bool) (c : Core) : Core :=
  continueRun force (setStore { c.store with run := some { fullAtStart := countState c.store .full, compacted := 0,
                                                           page := none } } c)

/-- The store's next step with nothing running: IDLE, or a run when fewer than 4 pages are ERASED (R182). -/
def settleIdle (c : Core) : Core :=
  let c := setStore { c.store with state := .idle, activity := .none } c
  if erasedCount c.store < 4 then startRun false c else c

/-- The erase of a retired page begins (R184). -/
def beginErase (p : PageNo) (c : Core) : Core :=
  let (d, c) := drawErase c
  setStore { c.store with state := .erasing, activity := .erase p, suspended := false, served := 0, eraseLeft := some d } c

/-- A suspended erase resumes with its remaining time (R184). -/
def resumeErase (c : Core) : Core :=
  match c.store.run.bind (·.page) with
  | some p => setStore { c.store with state := .erasing, activity := .erase p } c
  | none => c

/-- After a page's erase has ended with the page blank (R182). -/
def afterErase (c : Core) : Core :=
  match c.store.run with
  | none => settleIdle c
  | some r =>
    let r := { r with compacted := r.compacted + 1, page := none }
    let c := setStore { c.store with run := some r } c
    if 4 ≤ erasedCount c.store then setStore { c.store with run := none, state := .idle } c
    else if r.compacted < r.fullAtStart then continueRun false c
    else enterStoreFull c

/-- PAGE_ERASE_DONE (R184). -/
def pageEraseDone (blank : Bool) (c : Core) : Core :=
  match c.store.activity with
  | .erase p =>
    let c := setStore { c.store with activity := .none, suspended := false, served := 0, eraseLeft := none } c
    if blank then afterErase (setStore (setPage p .blank c.store) c) else enterFault .erase (some p) c
  | _ => c

/-! ## Item writes (R179 to R181) -/

/-- The lengths of an item's records, each clipped to 1 to 480 bytes (R174, log 4). -/
def clipLengths (n : Nat) (l : List Nat) : List Nat := (List.range n).map fun i => max 1 (min 480 (l.getD i 1))

/-- The write of an item begins: the failure-commit flag, when it is set, follows a PIN item that was waiting (R127). -/
def pinBegun (k : StoreKey) (c : Core) : Core :=
  if k.kind = .pin then setLimits { c.limits with failWriting := c.limits.failFlag } c else c

/-- The head item's write begins (R180). -/
def beginItem (it : Item) (lengths : List Nat) (state : StoreState) (c : Core) : Core :=
  let st := c.store
  let j : Job := { item := it, lengths := lengths, serial := st.nextSerial, done := 0 }
  let c := setStore { st with queue := st.queue.tail, job := some j, nextSerial := st.nextSerial + 1, state := state } c
  itemLeft (pursue (.item false) (pinBegun it.key c))

/-- ITEM_WRITE_BEGIN: the store turns to its head item, by the table of R179; during a run, an urgent head that does not fit lets the run go
on (log 78). -/
def itemWriteBegin (lengths : List Nat) (c : Core) : Core :=
  match c.store.queue with
  | [] => c
  | it :: _ =>
    let ls := clipLengths it.records.length lengths
    match c.store.state with
    | .idle =>
      if c.store.run.isNone then
        if itemFits c.store ls then beginItem it ls .writing c else startRun true c
      else if it.urgent && itemFits c.store ls then beginItem it ls .writing c
      else continueRun true c
    | .eraseSuspended =>
      if it.urgent && c.store.served < 4 && itemFits c.store ls then beginItem it ls .writingInSuspend c
      else resumeErase c
    | _ => c

/-- The next step after a write has ended (R179, R182, R184). -/
def afterWrite (c : Core) : Core :=
  match c.store.state with
  | .writingInSuspend =>
    if 4 ≤ c.store.served || !urgentWaits c.store then resumeErase c
    else setStore { c.store with state := .eraseSuspended, activity := .none } c
  | .writing =>
    let c := setStore { c.store with activity := .none } c
    if c.store.run.isSome then continueRun false c else settleIdle c
  | _ => c

/-- Every record of the item has verified: its records are live, its poster is told, then the store takes its next step (R180). -/
def itemWritten (j : Job) (c : Core) : Core :=
  let served := if c.store.state = .writingInSuspend then c.store.served + 1 else c.store.served
  let c := setStore (noteWhole j { c.store with job := none, activity := .none, served := served }) c
  afterWrite (toldWritten j.item.key c)

/-- ITEM_WRITE_DONE (R180, R181, R186). -/
def itemWriteDone (ok : Bool) (c : Core) : Core :=
  match c.store.activity, c.store.job, openPage c.store with
  | .item second, some j, some p =>
    match j.next with
    | none => c
    | some r =>
      let c := setStore (addEntry p (.record { r with voided := !ok }) c.store) c
      let wiping := c.store.state = .wiping
      if ok then
        if wiping then endInWipe .written c
        else
          let j' := { j with done := j.done + 1 }
          if j.item.records.length ≤ j'.done then itemWritten j c
          else pursue (.item false) (setStore { c.store with job := some j' } c)
      else if second then if wiping then endInWipe .failed c else enterFault .write (some p) c
      else pursue (.item true) c
  | _, _, _ => c

/-- COPY_WRITE_DONE (R181, R183, R186). -/
def copyWriteDone (ok : Bool) (c : Core) : Core :=
  match c.store.activity, openPage c.store with
  | .copy r second, some p =>
    let c := setStore (addEntry p (.record { r with voided := !ok }) c.store) c
    if ok then
      if c.store.state = .wiping then pursueWipe (setActivity .none c) else continueRun false (setActivity .none c)
    else if second then
      if c.store.state = .wiping then pursueWipe (setActivity .none c) else enterFault .write (some p) c
    else pursue (.copy r true) c
  | _, _ => c

/-! ## Mark writes (R173, R187) -/

def markPage : PageMark → PageNo
  | .full p | .opening p | .retiring p | .wipe p => p

/-- A mark write has ended for good, during a wipe: the mark that a rewrite needed is followed by the rewrite, which runs to its end; a
write that had not begun is not begun (R186). A failure is the wipe's own only for a mark that the wipe needed (log 81). -/
def markEndedInWipe (m : PageMark) (ok : Bool) (n : Need) (c : Core) : Core :=
  match n with
  | .wipe =>
    if ok then
      match m with
      | .wipe p => setStore (beginBanks (bankOrder (some p)) c.store) c
      | _ => pursueWipe c
    else setStore (beginBanks (bankOrder none) { c.store with wipeFailed := true }) c
  | .item true | .copy _ true => if ok then pursue n c else endInWipe .failed c
  | _ => endInWipe .unbegun c

/-- MARK_WRITE_DONE: the mark takes effect, is written again once, or fails and leaves nothing on its page (R173, R187, logs 21 and 80). -/
def markWriteDone (ok : Bool) (c : Core) : Core :=
  match c.store.activity with
  | .mark m second n =>
    let wiping := c.store.state = .wiping
    if ok then
      let c := setStore { applyMark m true c.store with activity := .none } c
      if wiping then markEndedInWipe m true n c
      else
        match n, m with
        | .retire, .retiring p => beginErase p c
        | _, _ => pursue n c
    else if !second then setActivity (.mark m true n) c
    else if wiping then markEndedInWipe m false n c
    else enterFault .write (some (markPage m)) c
  | _ => c

/-! ## The wipe (R186, R187) -/

/-- The writes a wipe lets run to their end. -/
def Activity.runsToEnd : Activity → Bool
  | .item _ | .copy _ _ | .mark _ _ _ => true
  | _ => false

/-- A wipe begins (R186). -/
def beginWipe (c : Core) : Core :=
  let keys := c.store.queue.map (·.key)
  let go := c.store.activity.runsToEnd
  let c := setStore { c.store with
    state := .wiping, queue := [], run := none, suspended := false, served := 0, eraseLeft := none, faultCause := none,
    faultPage := none, wipeFailed := false, banks := [],
    activity := if go then c.store.activity else .none } c
  let c := keys.foldl (fun c k => toldEnded false k c) c
  if go then c else pursueWipe c

def wipeAccount (pin : Option Pin) (c : Core) : Answer × Core :=
  if pin.any fun p => !pinFormed p then (.bare .badRequest, c)
  else withPin pin (fun c => (.bare .accepted, beginWipe c)) c

/-- The Channel Directory at the completion of a wipe: with the home carrier the claim of standby watch goes (R4, R12, log 65). -/
def wipeDirectory (c : Core) : Core := startSnapshot (watchReclaim (setDir { c.dir with home := none } c))

def wipeGuide (c : Core) : Core := setInterval 240 c

/-- The last bank erase has ended: the wipe completes, and the owners take their defaults (R187). -/
def completeWipe (c : Core) : Core :=
  let failed := c.store.wipeFailed
  let state := if failed then StoreState.fault else .idle
  let c := setStore { c.store with
    pages := Vector.replicate 128 .blank, state := state, activity := .none, job := none, banks := [], wipeFailed := false,
    whole := [], floor := 0, faultCause := if failed then some .wiped else none } c
  let c := post (.storeState state (some .wiped) (erasedCount c.store) none none) c
  let c := setAcqLimit 800 (wipeDirectory c)
  let c := wipeLimits (wipePurchases (wipeAccess c))
  retestKept (wipeLink (wipeClock (wipeGuide c)))

/-- BANK_ERASE_DONE (R187). -/
def bankEraseDone (blank : Bool) (c : Core) : Core :=
  match c.store.activity with
  | .bankErase b =>
    let st := blankBank b c.store
    let st := { st with wipeFailed := st.wipeFailed || !blank }
    match st.banks with
    | [] => completeWipe (setStore st c)
    | bs => setStore (beginBanks bs st) c
  | _ => c

/-! ## STORE STATUS (R190) -/

def allKinds : List RecordKind :=
  [.package, .eventGrant, .bulletinNumbers, .credit, .purchase, .logAck, .profile, .pin, .lockList, .usedToday, .booking,
   .lastDay, .settings, .directoryPart]

def neededOf (l : List (PageNo × Record)) (k : RecordKind) : RecordKind × Nat × Nat :=
  let rs := l.filter fun x => x.2.key.kind == k
  (k, rs.length, (rs.map fun x => recordSize x.2.length).sum)

def storeStatus (_ : Unit) (c : Core) : Answer :=
  let st := c.store
  let l := liveNeeded st
  { code := .ok, body := .store
      { state := st.state, faultCause := st.faultCause, faultPage := st.faultPage, erased := countState st .erased,
        opened := countState st .opened, full := countState st .full, retiring := countState st .retiring,
        openPage := openPage st, bytesFree := ((openPage st).map fun p => pageFree (page st p)).getD 0,
        nextSerial := st.nextSerial, writing := st.job.map (·.item.key), urgent := st.queue.countP (·.urgent),
        nonUrgent := st.queue.countP (!·.urgent), keys := st.queue.map (·.key), run := st.run, suspended := st.suspended,
        served := st.served, eraseLeft := st.eraseLeft, needed := allKinds.map (neededOf l) } }

/-! ## Meanings -/

def execWipeAccount (tag : Byte) (a : Option (Option Pin)) (s : State) : Host.Outcome State Fault Refusal :=
  .next (answeredWith (.wipeAccount tag a) tag a wipeAccount s)
def execStoreStatus (tag : Byte) (a : Option Unit) (s : State) : Host.Outcome State Fault Refusal :=
  .next (answeredWith (.storeStatus tag a) tag a (fun x => readOnly (storeStatus x)) s)
def execOwedCommitOffer (s : State) : Host.Outcome State Fault Refusal := .next (onCore offerOwed s)
def execItemWriteBegin (lengths : List Nat) (s : State) : Host.Outcome State Fault Refusal :=
  .next (onCore (itemWriteBegin lengths) s)
def execItemWriteDone (ok : Bool) (s : State) : Host.Outcome State Fault Refusal := .next (onCore (itemWriteDone ok) s)
def execMarkWriteDone (ok : Bool) (s : State) : Host.Outcome State Fault Refusal := .next (onCore (markWriteDone ok) s)
def execCopyWriteDone (ok : Bool) (s : State) : Host.Outcome State Fault Refusal := .next (onCore (copyWriteDone ok) s)
def execPageEraseDone (blank : Bool) (s : State) : Host.Outcome State Fault Refusal :=
  .next (onCore (pageEraseDone blank) s)
def execBankEraseDone (blank : Bool) (s : State) : Host.Outcome State Fault Refusal :=
  .next (onCore (bankEraseDone blank) s)

end Sys2Proof.Machine
end

