-- ==== Sys2Proof/Machine/Start.lean ====
section
/-! DEFINITION. Resets, and the end of the start-up scan with the loads of every block (R188, R189, R221, R224). -/

namespace Sys2Proof.Machine

open Sys2Proof

/-! ## What a reset leaves on the pages (R173, R180, R184, R187, log 11) -/

/-- A record write cut by a reset: the record stands whole when it had landed, and torn otherwise. -/
def cutRecord (r : Option Record) (landed : Bool) (st : Store) : Store :=
  match r, openPage st with
  | some r, some p => addEntry p (.record { r with torn := !landed }) st
  | _, _ => st

/-- The pages as a reset leaves them. -/
def cutPages (landed : Bool) (st : Store) : Vector Page 128 :=
  Store.pages (match st.activity with
    | .none => st
    | .item _ => cutRecord (st.job.bind Job.next) landed st
    | .copy r _ => cutRecord (some r) landed st
    | .mark m _ _ => if landed then applyMark m true st else st
    | .erase p => if landed then setPage p .blank st else st
    | .bankErase b => if landed then blankBank b st else st)

/-- The issue record as a reset leaves it (R83 to R85, log 11). -/
def cutIssue (landed : Bool) (a : Access) : Issue :=
  match landed, a.issueWrite, a.issue with
  | true, some (.issue f), _ => .written f
  | true, some .lockFlag, .written f => .locked f
  | _, _, i => i

/-- A reset: every block takes its state after reset, over what the issue area and the pages keep (R221). -/
def resetWith (cause : ResetCause) (r : ResetInput) (s : State) : State :=
  { pending := s.pending, front := .reset r.strap,
    core := .reset (cutIssue r.landed s.core.access) (cutPages r.landed s.core.store) cause s.core.free }

/-- The reset of an answered RESET UNIT (R224). -/
def requestReset (r : ResetInput) (s : State) : State := if s.front.resetPending then resetWith .request r s else s

/-! ## The scan settles the pages (R188) -/

def Page.hasTorn (p : Page) : Bool := p.entries.any fun e => match e with
  | .record r => r.torn
  | .wipeMark _ _ => false

/-- A page with an opening mark and no full mark stays open when it has the highest page serial of these and holds no torn record. -/
def settlePage (open? : Option PageNo) (p : PageNo) (x : Page) : Page :=
  if x.state == .opened && (some p != open? || x.hasTorn) then { x with state := .full } else x

/-- The page of highest page serial among those that pass a test. -/
def highestPage (st : Store) (f : Page → Bool) : Option PageNo :=
  (allPages.filter fun p => f (page st p)).foldl
    (fun best p => match best with
      | none => some p
      | some q => if (page st q).serial < (page st p).serial then some p else some q) none

def settlePages (st : Store) : Store :=
  let o := highestPage st (·.state == .opened)
  allPages.foldl (fun st p => setPage p (settlePage o p (page st p)) st) st

/-- The serial an entry shows the scan: a torn record shows none (log 29). -/
def PageEntry.serialFound : PageEntry → Nat
  | .record r => if r.torn then 0 else r.serial
  | .wipeMark n _ => n

def highestSerial (st : Store) : Nat :=
  (allPages.flatMap fun p => (page st p).entries.map PageEntry.serialFound).foldl max 0

/-- The serials and the last page opened, from what the scan found. -/
def settleSerials (st : Store) : Store :=
  let h := highestPage st (·.state != .erased)
  { st with
    nextSerial := highestSerial st + 1, lastOpened := h,
    nextPageSerial := ((h.map fun p => (page st p).serial).getD 0) + 1 }

def retiringPages (st : Store) : List PageNo := allPages.filter fun p => (page st p).state == .retiring

/-- Every RETIRING page is erased, but for those found not blank. -/
def eraseRetiring (notBlank : List PageNo) (st : Store) : Store :=
  ((retiringPages st).filter fun p => !notBlank.contains p).foldl (fun st p => setPage p .blank st) st

/-! ## READY (R221) -/

/-- READY takes the head of the notice queue; the newest of 32 waiting notices is discarded for it. -/
def Link.ready (n : Notice) (l : Link) : Link :=
  let l' := { l with notices := n :: l.notices.take 31, lost := l.lost || 32 ≤ l.notices.length }
  match l.mode with
  | .level => { l' with attn := true }
  | .edge => if l.notices.isEmpty then { l' with pulses := l.pulses + 1 } else l'

def postReady (c : Core) : Core := setLink (c.link.ready (stamped c (.ready c.link.cause))) c

/-- The store leaves SCANNING: WIPING after a wipe mark, else FAULT when an erase failed, else IDLE (R189). -/
def leaveScanning (failed : Option PageNo) (c : Core) : Core :=
  if 0 < c.store.floor then setStore { c.store with state := .wiping, wipeFailed := failed.isSome } c
  else
    match failed with
    | none => setStore { c.store with state := .idle } c
    | some p =>
      post (.storeState .fault (some .erase) (erasedCount c.store) (some p) none)
        (setStore { c.store with state := .fault, faultCause := some .erase, faultPage := some p } c)

/-! ## The loads (R189) -/

/-- Step 1: today, the clock's settings and the bookings (R191, R197, R205). -/
def loadedBooking (b : Booking) : Booking :=
  if b.state = .active then { b with inUse := none, extended := false } else b

/-- The bookings of the live BOOKING records. -/
def storedBookings (st : Store) : List Booking :=
  (List.range 255).filterMap fun i => match liveBody st .booking (i + 1) with
    | some (.booking (some b)) => some (loadedBooking b)
    | _ => none

def loadClock (c : Core) : Core :=
  let st := c.store
  let k := c.clock
  let k := match liveBody st .lastDay 0 with
    | some (.lastDay d) => { k with today := some d }
    | _ => k
  let k := match liveBody st .settings 6 with
    | some (.clock z lead) => { k with zone := z, wakeLead := lead }
    | _ => k
  let l := storedBookings st
  setClock { k with bookings := sortBy Booking.before l, lastId := (l.map (·.id)).foldl max 0 } c

/-- The entries of part `k` when it carries the version `v`. -/
def storedPart (st : Store) (v : Option Nat) (k : Nat) : Option (List ChannelEntry) :=
  match liveBody st .directoryPart k with
  | some (.directoryPart v' es) => if v' = v then some es else none
  | _ => none

/-- Step 2: the snapshot when it is valid, and the home carrier (R12). -/
def loadDirectory (c : Core) : Core :=
  let st := c.store
  let d := match liveBody st .directoryPart 0 with
    | some (.directoryHeader v cs g n) =>
      match ((List.range n).map (· + 1)).mapM (storedPart st v) with
      | some parts => { c.dir with map := parts.flatten, carriers := cs, guideCarrier := g, version := v }
      | none => c.dir
    | _ => c.dir
  let d := match liveBody st .settings 1 with
    | some (.homeCarrier h) => { d with home := h }
    | _ => d
  setDir d c

/-- Step 3: the acquisition limit and the sweep interval (R16, R113). -/
def loadSettings (c : Core) : Core :=
  let c := match liveBody c.store .settings 2 with
    | some (.acqLimit ms) => setAcqLimit ms c
    | _ => c
  match liveBody c.store .settings 3 with
  | some (.sweepInterval min) => setInterval min c
  | _ => c

/-- Step 4: the grant group, when the issue record is locked (R101). -/
def loadAccess (c : Core) : Core :=
  if c.access.issue.isLocked then
    let st := c.store
    let c := match liveBody st .package 0 with
      | some (.packages l) => setPackages l c
      | _ => c
    let c := match liveBody st .eventGrant 0 with
      | some (.eventGrants l) => setEvents l c
      | _ => c
    match liveBody st .bulletinNumbers 0 with
    | some (.bulletinNumbers cut last) => { c with access := { c.access with cut := cut, last := last } }
    | _ => c
  else c

/-- The live PURCHASE records with their grants, oldest first (R159). -/
def storedPurchases (st : Store) : List (PurchaseRecord × EventGrant) :=
  let l := allRecords st
  let found := l.filterMap fun x => match x.2.body with
    | .purchase r g _ _ => if liveIn st l x.2.key == some x then some (r, g) else none
    | _ => none
  sortBy (fun a b => seqAfter b.1.seq a.1.seq) found

/-- A replayed purchase's grant: of 24 entries the one of earliest expiry gives way (R159). -/
def replayGrant (g : EventGrant) (l : List EventGrant) : List EventGrant :=
  if l.length < 24 || l.any (·.same g) then installGrant g l else installGrant g l.tail

/-- A replayed purchase: its charge and its grant (R159). -/
def replay (c : Core) (x : PurchaseRecord × EventGrant) : Core :=
  setPurchase { c.purchase with balance := c.purchase.balance - x.1.price, charged := some x.1.seq }
    (setEvents (replayGrant x.2 c.access.events) c)

/-- The settings, CREDIT and LOG_ACK of step 5 (R159); an issue record that is not locked leaves the credit at its defaults (R86, log 59). -/
def loadCredit (c : Core) : Core :=
  let st := c.store
  let c := match liveBody st .settings 5 with
    | some (.uplink m n) => setUplinkState { c.uplink.withInterval n with mode := m } c
    | _ => c
  let c := match liveBody st .credit 0 with
    | some (.credit b l x) =>
      if c.access.issue.isLocked then setPurchase { c.purchase with balance := b, limit := l, charged := x } c else c
    | _ => c
  match liveBody st .logAck 0 with
  | some (.logAck a p) => setUplinkState { c.uplink with parity := p } (setPurchase { c.purchase with acked := a } c)
  | _ => c

/-- The next sequence number after the load (R159). -/
def nextSeqOf (newest acked : Option Seq) : Seq := ((newest <|> acked).map (· + 1)).getD 1

/-- The purchases that the load replays and logs: none while the issue record is not locked (R86, R101). -/
def loadedPurchases (c : Core) : List (PurchaseRecord × EventGrant) :=
  if c.access.issue.isLocked then storedPurchases c.store else []

/-- Step 5: the Purchase Unit with its replay, the grant group, and the uplink's first due test (R159, R161, R162); the next sequence
number follows what is stored, whatever the lock of the issue record (log 59). -/
def loadPurchases (c : Core) : Core :=
  let c := loadCredit c
  let l := loadedPurchases c
  let newest := (storedPurchases c.store).getLast?.map (·.1.seq)
  let again := l.filter fun x => afterOpt x.1.seq c.purchase.charged
  let log := (l.filter fun x => afterOpt x.1.seq c.purchase.acked).map fun x => { x.1 with reported := false }
  let c := again.foldl replay c
  let c := setPurchase { c.purchase with log := log, nextSeq := nextSeqOf newest c.purchase.acked } c
  let c := if again.isEmpty then c else commitGroup true c
  dueTest (becameUnreported 0 c)

/-- A stored profile of number 1 to 5 (R147). -/
def storedProfile (st : Store) (n : Nat) : Option Profile :=
  match liveBody st .profile n with
  | some (.profile p) => p.map fun x => { x with used := 0 }
  | _ => none

/-- Used today of a profile, lowered to its allowance (R147). -/
def withUsed (used : Vector Nat 6) (n : Fin 6) (p : Option Profile) : Option Profile :=
  p.map fun x => { x with used := min (used.get n) x.allowance }

/-- Today's used minutes of the stored record, when its day is today (R147). -/
def storedUsed (st : Store) (today : Option Int) : Vector Nat 6 :=
  match liveBody st .usedToday 0 with
  | some (.usedToday u d) => if d = today ∧ today.isSome then u else Vector.replicate 6 0
  | _ => Vector.replicate 6 0

/-- The PROFILE and USED_TODAY records (R147). -/
def loadProfiles (c : Core) : Core :=
  let u := storedUsed c.store c.clock.today
  let p := fun n : Fin 6 => withUsed u n (storedProfile c.store n.val)
  setLimits { c.limits with profiles := #v[some .master, p 1, p 2, p 3, p 4, p 5] } c

/-- The PIN record; a stored count of 3 starts a fresh lockout (R128, R147). -/
def loadPin (c : Core) : Core :=
  match liveBody c.store .pin 0 with
  | some (.pin p n) =>
    let c := setLimits { c.limits with pin := p, count := n } c
    if n = 3 then post (.pinLockout .reset 15) (setLimits { c.limits with lockout := Timer.start 900000 } c) else c
  | _ => c

/-- A stored default; that of an absent profile is taken as 0 (R147). -/
def presentDefault (c : Core) (n : Nat) : Nat := if (profileOf c n).isSome then n else 0

def loadDefaults (c : Core) : Core :=
  match liveBody c.store .settings 4 with
  | some (.roomDefaults a b) =>
    let put := fun (r : Room) (n : Nat) (c : Core) =>
      setContext r { context c r with default := presentDefault c n, active := presentDefault c n } c
    put .b b (put .a a c)
  | _ => c

/-- Step 6: the Limit Unit (R147); the allowance minute starts (R139). -/
def loadLimits (c : Core) : Core :=
  let c := loadPin (loadProfiles c)
  let c := match liveBody c.store .lockList 0 with
    | some (.lockList l) => setLimits { c.limits with lockList := l } c
    | _ => c
  let c := loadDefaults c
  setLimits { c.limits with minute := Timer.start 60000 } c

/-- Step 7: the Message Link (R223). -/
def loadLink (c : Core) : Core :=
  match liveBody c.store .settings 7 with
  | some (.link m gap key) => setLink { c.link.withMode m gap with powerKey := key } c
  | _ => c

/-- The owners take their state in the order of R189. -/
def loadAll (c : Core) : Core :=
  loadLink (loadLimits (loadPurchases (loadAccess (loadSettings (loadDirectory (loadClock c))))))

/-! ## The end of the scan (R189) -/

/-- After the loads: the wipe resumes, or the kept bulletins are retested and compaction starts when pages are short. -/
def afterLoads (c : Core) : Core :=
  match c.store.state with
  | .wiping =>
    match allBanks.filter fun b => !bankBlank c.store b with
    | [] => completeWipe c
    | l => setStore (beginBanks l c.store) c
  | .idle => settleIdle (retestKept c)
  | _ => retestKept c

/-- What the scan discards is settled on the pages as it reads them, before any page is erased: the groups found whole stay (log 42), and
the records below a wipe mark go. -/
def settleGroups (st : Store) : Store := { st with whole := wholeGroups st, floor := markFloor st }

/-- The pages, serials and groups as the scan leaves them (R188). -/
def scanned (notBlank : List PageNo) (st : Store) : Store :=
  eraseRetiring notBlank (settleGroups (settleSerials (settlePages st)))

/-- START_UP_SCAN_DONE: the store leaves SCANNING, READY is posted, and the owners load (R189, R221). -/
def startUpScanDone (notBlank : List PageNo) (c : Core) : Core :=
  if c.store.state = .scanning then
    let failed := (retiringPages c.store).find? fun p => notBlank.contains p
    let c := setStore (scanned notBlank c.store) c
    watchTest (afterLoads (loadAll (leaveScanning failed (postReady c))))
  else c

/-! ## Meanings -/

def execRequestReset (r : ResetInput) (s : State) : Host.Outcome State Fault Refusal := .next (requestReset r s)
def execPowerOn (r : ResetInput) (s : State) : Host.Outcome State Fault Refusal := .next (resetWith .powerOn r s)
def execResetLine (r : ResetInput) (s : State) : Host.Outcome State Fault Refusal := .next (resetWith .line r s)
def execStartUpScanDone (notBlank : List (Fin 128)) (s : State) : Host.Outcome State Fault Refusal :=
  .next (onCore (startUpScanDone notBlank) s)

end Sys2Proof.Machine
end

