-- ==== Sys2Proof/Machine/Dispatch.lean ====
section
/-! DEFINITION. The command dispatcher: one meaning for each row of the opcode table. -/

namespace Sys2Proof.Machine

open Sys2Proof

def exec (i : Instr) (s : State) : Host.Outcome State Fault Refusal :=
  match i with
  | .frameReceived bytes => Sys2Proof.Machine.execFrameReceived bytes s
  | .frameReceiveLimit => Sys2Proof.Machine.execFrameReceiveLimit s
  | .listChannels tag a => Sys2Proof.Machine.execListChannels tag a s
  | .channelInfo tag a => Sys2Proof.Machine.execChannelInfo tag a s
  | .setHomeCarrier tag a => Sys2Proof.Machine.execSetHomeCarrier tag a s
  | .setTuning tag a => Sys2Proof.Machine.execSetTuning tag a s
  | .tunerStatus tag a => Sys2Proof.Machine.execTunerStatus tag a s
  | .selectChannel tag a => Sys2Proof.Machine.execSelectChannel tag a s
  | .stopOutput tag a => Sys2Proof.Machine.execStopOutput tag a s
  | .sessionStatus tag a => Sys2Proof.Machine.execSessionStatus tag a s
  | .keyStatus tag a => Sys2Proof.Machine.execKeyStatus tag a s
  | .issue tag a => Sys2Proof.Machine.execIssue tag a s
  | .issueWriteDone ok => Sys2Proof.Machine.execIssueWriteDone ok s
  | .lockIssue tag a => Sys2Proof.Machine.execLockIssue tag a s
  | .lockIssueWriteDone ok => Sys2Proof.Machine.execLockIssueWriteDone ok s
  | .accessStatus tag a => Sys2Proof.Machine.execAccessStatus tag a s
  | .issueStatus tag a => Sys2Proof.Machine.execIssueStatus tag a s
  | .guideQuery tag a => Sys2Proof.Machine.execGuideQuery tag a s
  | .nowNext tag a => Sys2Proof.Machine.execNowNext tag a s
  | .refreshGuide tag a => Sys2Proof.Machine.execRefreshGuide tag a s
  | .unlockRoom tag a => Sys2Proof.Machine.execUnlockRoom tag a s
  | .relockRoom tag a => Sys2Proof.Machine.execRelockRoom tag a s
  | .relockAll tag a => Sys2Proof.Machine.execRelockAll tag a s
  | .switchProfile tag a => Sys2Proof.Machine.execSwitchProfile tag a s
  | .returnProfile tag a => Sys2Proof.Machine.execReturnProfile tag a s
  | .setRoomDefault tag a => Sys2Proof.Machine.execSetRoomDefault tag a s
  | .setProfile tag a => Sys2Proof.Machine.execSetProfile tag a s
  | .setPin tag a => Sys2Proof.Machine.execSetPin tag a s
  | .lockChannel tag a => Sys2Proof.Machine.execLockChannel tag a s
  | .unlockChannel tag a => Sys2Proof.Machine.execUnlockChannel tag a s
  | .limitStatus tag a => Sys2Proof.Machine.execLimitStatus tag a s
  | .purchase tag a => Sys2Proof.Machine.execPurchase tag a s
  | .uplinkNow tag a => Sys2Proof.Machine.execUplinkNow tag a s
  | .uplinkRelease tag a => Sys2Proof.Machine.execUplinkRelease tag a s
  | .setUplink tag a => Sys2Proof.Machine.execSetUplink tag a s
  | .purchaseLog tag a => Sys2Proof.Machine.execPurchaseLog tag a s
  | .creditStatus tag a => Sys2Proof.Machine.execCreditStatus tag a s
  | .wipeAccount tag a => Sys2Proof.Machine.execWipeAccount tag a s
  | .storeStatus tag a => Sys2Proof.Machine.execStoreStatus tag a s
  | .addBooking tag a => Sys2Proof.Machine.execAddBooking tag a s
  | .dropBooking tag a => Sys2Proof.Machine.execDropBooking tag a s
  | .listBookings tag a => Sys2Proof.Machine.execListBookings tag a s
  | .standby tag a => Sys2Proof.Machine.execStandby tag a s
  | .resume tag a => Sys2Proof.Machine.execResume tag a s
  | .wakeAt tag a => Sys2Proof.Machine.execWakeAt tag a s
  | .setZone tag a => Sys2Proof.Machine.execSetZone tag a s
  | .clockStatus tag a => Sys2Proof.Machine.execClockStatus tag a s
  | .takeNotices tag a => Sys2Proof.Machine.execTakeNotices tag a s
  | .ping tag a => Sys2Proof.Machine.execPing tag a s
  | .setAttention tag a => Sys2Proof.Machine.execSetAttention tag a s
  | .setKeys tag a => Sys2Proof.Machine.execSetKeys tag a s
  | .resetUnit tag a => Sys2Proof.Machine.execResetUnit tag a s
  | .requestReset r => Sys2Proof.Machine.execRequestReset r s
  | .powerOn r => Sys2Proof.Machine.execPowerOn r s
  | .resetLine r => Sys2Proof.Machine.execResetLine r s
  | .lockReport tuner count => Sys2Proof.Machine.execLockReport tuner count s
  | .lossReport tuner count => Sys2Proof.Machine.execLossReport tuner count s
  | .acquisitionLimit tuner => Sys2Proof.Machine.execAcquisitionLimit tuner s
  | .lossTimer tuner => Sys2Proof.Machine.execLossTimer tuner s
  | .standbyWatchHold => Sys2Proof.Machine.execStandbyWatchHold s
  | .cellArrival input header payload reading => Sys2Proof.Machine.execCellArrival input header payload reading s
  | .bufferHandOver slot => Sys2Proof.Machine.execBufferHandOver slot s
  | .keptBulletinRetest => Sys2Proof.Machine.execKeptBulletinRetest s
  | .keyLife slot => Sys2Proof.Machine.execKeyLife slot s
  | .sweepTimer => Sys2Proof.Machine.execSweepTimer s
  | .sweepLimit => Sys2Proof.Machine.execSweepLimit s
  | .laneMapWait output => Sys2Proof.Machine.execLaneMapWait output s
  | .keyWait output => Sys2Proof.Machine.execKeyWait output s
  | .lockoutTimer => Sys2Proof.Machine.execLockoutTimer s
  | .allowanceMinute => Sys2Proof.Machine.execAllowanceMinute s
  | .reportTimer => Sys2Proof.Machine.execReportTimer s
  | .sendBegin => Sys2Proof.Machine.execSendBegin s
  | .modemAnswer attempt answer => Sys2Proof.Machine.execModemAnswer attempt answer s
  | .answerWait => Sys2Proof.Machine.execAnswerWait s
  | .retryTimer => Sys2Proof.Machine.execRetryTimer s
  | .ackWait => Sys2Proof.Machine.execAckWait s
  | .backoffTimer => Sys2Proof.Machine.execBackoffTimer s
  | .quietTimer => Sys2Proof.Machine.execQuietTimer s
  | .owedCommitOffer => Sys2Proof.Machine.execOwedCommitOffer s
  | .itemWriteBegin lengths => Sys2Proof.Machine.execItemWriteBegin lengths s
  | .itemWriteDone ok => Sys2Proof.Machine.execItemWriteDone ok s
  | .markWriteDone ok => Sys2Proof.Machine.execMarkWriteDone ok s
  | .copyWriteDone ok => Sys2Proof.Machine.execCopyWriteDone ok s
  | .pageEraseDone blank => Sys2Proof.Machine.execPageEraseDone blank s
  | .bankEraseDone blank => Sys2Proof.Machine.execBankEraseDone blank s
  | .startUpScanDone notBlank => Sys2Proof.Machine.execStartUpScanDone notBlank s
  | .clockSecond => Sys2Proof.Machine.execClockSecond s
  | .keyReport code mark => Sys2Proof.Machine.execKeyReport code mark s
  | .gapTimer => Sys2Proof.Machine.execGapTimer s
  | .bodyLengthExceeded kind tag length => Sys2Proof.Machine.execBodyLengthExceeded kind tag length s

end Sys2Proof.Machine
end

