-- ==== Sys2Proof/WellFormed.lean ====
section
/-! DEFINITION. Well-formed commands: those whose operands their sender can send, by the widths of Table 11.7-8 for requests, of
Table 11.7-4 for cells, and by the fields of each table the headend sends. A meaning asks for none of this: a request whose
values lie outside their rule's ranges is answered by that rule. -/

namespace Sys2Proof

/-! ## Widths (Table 11.7-8) -/

def fitsByte (n : Nat) : Bool := n ≤ 255
def fitsWord (n : Nat) : Bool := n ≤ 65535
def fitsLong (n : Nat) : Bool := n ≤ 4294967295
def fitsOffset (n : Int) : Bool := -32768 ≤ n && n ≤ 32767

/-- A PIN that is sent has 1 to 8 digits; none sends a count of 0. -/
def fitsPin (p : Option Pin) : Bool := p.all fun ds => 1 ≤ ds.length && ds.length ≤ 8

/-! ## Fields of the requests -/

/-- The body of a frame has at most 240 bytes, two of them the request number. -/
def IssueReq.fits (a : IssueReq) : Bool :=
  fitsLong a.address && a.groups.all fitsWord && 5 + 2 * a.groups.length + a.key.length ≤ 238

def PurchaseTarget.fits : PurchaseTarget → Bool
  | .present => true
  | .event l e => fitsWord l && fitsWord e

def ProfileFields.fits (f : ProfileFields) : Bool :=
  fitsByte f.ceiling && fitsWord f.allowance && f.windows.length ≤ 57 &&
    f.windows.all (fun w => fitsWord w.start && fitsWord w.stop) && fitsLong f.purchaseCeiling

/-- A reminder has no output and no takes-room flag, a recording no lead, and another kind none of them. -/
def AddBookingReq.fits (a : AddBookingReq) : Bool :=
  fitsByte a.kind && fitsWord a.lcn && a.event.all fitsWord && a.start.all fitsLong && a.finish.all fitsLong &&
    fitsWord a.lead && fitsByte a.output && (a.kind == 0 || a.lead == 0) &&
    (a.kind == 1 || (a.output == 0 && !a.takesRoom))

/-! ## What the headend's tables hold (Tables 1.2-1, 4.3-1, 5.3-1, 6.1-1; R1, R40) -/

def CarrierEntry.fits (e : CarrierEntry) : Bool := e.number ≤ 95 && fitsLong e.carrier.freq

def ChannelEntry.fits (e : ChannelEntry) : Bool :=
  fitsWord e.lcn && e.carrierNo ≤ 95 && fitsWord e.service && e.packages.length ≤ 4 &&
    e.packages.all (fun p => 1 ≤ p && p ≤ 4095) && e.baseRating ≤ 7 && e.name.length ≤ 12

def OfferedRecord.fits (r : OfferedRecord) : Bool :=
  fitsWord r.lcn && fitsWord r.event && fitsLong r.start && fitsWord r.duration && fitsByte r.rating && r.price.all fitsLong

def PresentNextEntry.fits (e : PresentNextEntry) : Bool :=
  fitsWord e.lcn && e.present.all OfferedRecord.fits && e.next.all OfferedRecord.fits

def LaneEntry.fits (e : LaneEntry) : Bool :=
  fitsWord e.service && e.lanes.length ≤ 4 && e.lanes.all (· ≤ 4095) && e.keyLane ≤ 4095

def GrantOp.fits : GrantOp → Bool
  | .addPackage id a b => fitsWord id && fitsWord a && fitsWord b
  | .dropPackage id => fitsWord id
  | .addEvent l e x => fitsWord l && fitsWord e && fitsLong x
  | .creditLimit n | .creditTopUp n => fitsLong n
  | .purchaseAck _ | .cut | .restore | .unknown => true

def GrantAddress.fits : GrantAddress → Bool
  | .unit a => fitsLong a
  | .group n => fitsWord n

def Criterion.fits : Criterion → Bool
  | .packages ids => ids.all fitsWord
  | .event id => fitsWord id

/-- A reading holds values its table can carry. -/
def TableBody.fits : TableBody → Bool
  | .directory g cs es => g.all (· ≤ 95) && cs.all CarrierEntry.fits && es.all ChannelEntry.fits
  | .time t o => fitsLong t && o.all fitsOffset
  | .grants b => GrantAddress.fits b.address && b.ops.all GrantOp.fits
  | .laneMap es => es.all LaneEntry.fits
  | .presentNext es => es.all PresentNextEntry.fits
  | .schedule rs => rs.all OfferedRecord.fits
  | .keys b => b.lane ≤ 4095 && Criterion.fits b.criterion && fitsByte b.period

/-! ## The tag and the fields of a request -/

/-- The tag of a request command (R214, Table 11.7-1). -/
def Instr.tag : Instr → Option Byte
  | .listChannels t _ | .channelInfo t _ | .setHomeCarrier t _ | .setTuning t _ | .tunerStatus t _ | .selectChannel t _
  | .stopOutput t _ | .sessionStatus t _ | .keyStatus t _ | .issue t _ | .lockIssue t _ | .accessStatus t _
  | .issueStatus t _ | .guideQuery t _ | .nowNext t _ | .refreshGuide t _ | .unlockRoom t _ | .relockRoom t _
  | .relockAll t _ | .switchProfile t _ | .returnProfile t _ | .setRoomDefault t _ | .setProfile t _ | .setPin t _
  | .lockChannel t _ | .unlockChannel t _ | .limitStatus t _ | .purchase t _ | .uplinkNow t _ | .uplinkRelease t _
  | .setUplink t _ | .purchaseLog t _ | .creditStatus t _ | .wipeAccount t _ | .storeStatus t _ | .addBooking t _
  | .dropBooking t _ | .listBookings t _ | .standby t _ | .resume t _ | .wakeAt t _ | .setZone t _ | .clockStatus t _
  | .takeNotices t _ | .ping t _ | .setAttention t _ | .setKeys t _ | .resetUnit t _ => some t
  | _ => none

/-- The operands beside the tag fit what carries them. -/
def Instr.operandsFit : Instr → Bool
  | .frameReceived bs => !bs.isEmpty
  | .listChannels _ a => a.all fun x => fitsWord x.start
  | .channelInfo _ a | .setTuning _ a | .nowNext _ a | .purchaseLog _ a | .listBookings _ a => a.all fitsWord
  | .setHomeCarrier _ a => a.all fun x => x.all fun y => fitsLong y.freq && fitsByte y.sym
  | .selectChannel _ a => a.all fun x => fitsByte x.output && fitsWord x.lcn
  | .stopOutput _ a | .relockRoom _ a | .returnProfile _ a | .dropBooking _ a | .setKeys _ a => a.all fitsByte
  | .sessionStatus _ a | .keyStatus _ a => a.all fun x => x.all fitsByte
  | .issue _ a => a.all IssueReq.fits
  | .accessStatus _ a => a.all fun x => fitsByte x.selector && fitsWord x.position
  | .guideQuery _ a => a.all fun x => fitsWord x.lcn && fitsLong x.fromTime
  | .refreshGuide _ a => a.all fun x => x.all fitsWord
  | .unlockRoom _ a => a.all fun x => fitsByte x.room && fitsPin x.pin
  | .switchProfile _ a | .setRoomDefault _ a => a.all fun x => fitsByte x.room && fitsByte x.profile && fitsPin x.pin
  | .setProfile _ a => a.all fun x => fitsByte x.profile && x.fields.all ProfileFields.fits && fitsPin x.pin
  | .setPin _ a => a.all fun x => fitsPin x.old && fitsPin x.new
  | .lockChannel _ a | .unlockChannel _ a => a.all fun x => fitsWord x.lcn && fitsPin x.pin
  | .purchase _ a => a.all fun x => fitsByte x.room && PurchaseTarget.fits x.target && fitsPin x.pin
  | .setUplink _ a => a.all fun x => fitsByte x.mode && fitsWord x.interval
  | .wipeAccount _ a => a.all fitsPin
  | .addBooking _ a => a.all AddBookingReq.fits
  | .wakeAt _ a => a.all fun x => x.alarm.all fitsLong && x.lead.all fitsWord
  | .setZone _ a => a.all fun x => x.all fitsOffset
  | .setAttention _ a => a.all fun x => fitsByte x.mode && fitsByte x.gap
  | .cellArrival _ _ payload reading => payload.length == 156 && TableBody.fits reading
  | .itemWriteBegin ls => ls.all fun n => 1 ≤ n && n ≤ 480
  | .bodyLengthExceeded _ _ n => 240 < n.toNat
  | _ => true

/-- A well-formed command: a request's tag is not 0, and its operands fit. -/
def Instr.wellFormed (i : Instr) : Bool := i.tag.all (· != 0) && i.operandsFit

end Sys2Proof
end

