-- ==== Sys2Proof/Safety.lean ====
section
/-! DEFINITION. What every step keeps, and the words the statements use: a request that is handled, the state its reply leaves, and
the blocks a command leaves alone. -/

namespace Sys2Proof.Machine

open Sys2Proof

/-! ## Invariants -/

/-- The receiver: no frame is open, or the open frame begins with SYNC and waits for more bytes (R214). -/
def rxOk (rx : List Byte) : Bool :=
  rx.isEmpty ||
    (rx.head? == some 0xA5#8 && (match bodyLength rx with
      | none => rx.length ≤ 3
      | some n => n ≤ 240 && rx.length < n + 6))

/-- The intake holds at most 4 request frames (R215). -/
def FrontOk (f : Front) : Prop := rxOk f.rx = true ∧ f.intake.length ≤ 4

/-- At most 32 notices wait (R217); ATTN stands as its mode calls for, and the gap timer runs only in EDGE mode over a queue that
is not empty (R219). -/
structure LinkOk (l : Link) : Prop where
  atMost : l.notices.length ≤ 32
  level : l.mode = .level → l.attn = !l.notices.isEmpty
  edge : l.mode = .edge → l.attn = false
  gap : l.gapTimer.running = true → l.mode = .edge ∧ l.notices ≠ []

/-- At most 16 items wait, no two of one key, the urgent ones ahead (R177). -/
structure QueueOk (q : List Item) : Prop where
  atMost : q.length ≤ 16
  distinct : (q.map (·.key)).Nodup
  urgentAhead : q.Pairwise fun a b => b.urgent = true → a.urgent = true

/-- The invariant of the blocks behind the link. -/
def CoreOk (c : Core) : Prop := LinkOk c.link ∧ QueueOk c.store.queue

/-- The invariant of the machine. -/
def Invariant (s : State) : Prop := FrontOk s.front ∧ CoreOk s.core

/-! ## Requests -/

/-- A request command is handled now and the start-up scan is over, so that its own rule answers it. -/
def Handled (i : Instr) (s : State) : Prop := isHandledNow i s = true ∧ s.core.store.state ≠ .scanning

/-- The state when the request's reply has been made and its work has left the blocks as `c`. -/
def replied (f : Frame) (c : Core) (s : State) : State :=
  { s with front := { s.front with intake := s.front.intake.tail, sent := s.front.sent ++ [f] }, core := c }

/-- The commit queue takes an item and leaves the blocks as `c'`. -/
def Takes (it : Item) (c c' : Core) : Prop := offer it c = (.taken, c')

/-- The reply that answers a request handled in the blocks `c`: its code and fields, and what the blocks become. -/
def Replies (i : Instr) (tag : Byte) (code : Code) (body : ReplyBody) (c : Core) (s : State) : Prop :=
  exec i s = .next (replied (.reply tag code body) c s)

/-- The table of R15: the reply, and whether the change is made, follow what the commit queue does with an item offered in the
blocks `c`. -/
structure SettingTable (i : Instr) (tag : Byte) (it : Item) (change : Core → Core) (c : Core) (s : State) : Prop where
  taken : ∀ c', offer it c = (.taken, c') → Replies i tag .ok .none (change c') s
  full : (offer it c).1 = .queueFull → Replies i tag .busy .none c s
  wipe : (offer it c).1 = .duringWipe → Replies i tag .busy .none c s
  storeFull : (offer it c).1 = .storeFull → Replies i tag .storeFull .none c s
  fault : (offer it c).1 = .storeFault → Replies i tag .storeFault .none c s

/-- The same table for a setting whose record an owed commit would also carry: a refusal with STORE_FULL or STORE_FAULT clears the owed
mark, which leaves the blocks `c` as `unmarked` gives them (R128, R129, R142, R198). -/
structure OwedSettingTable (i : Instr) (tag : Byte) (it : Item) (change unmarked : Core → Core) (c : Core) (s : State) : Prop where
  taken : ∀ c', offer it c = (.taken, c') → Replies i tag .ok .none (change c') s
  full : (offer it c).1 = .queueFull → Replies i tag .busy .none c s
  wipe : (offer it c).1 = .duringWipe → Replies i tag .busy .none c s
  storeFull : (offer it c).1 = .storeFull → Replies i tag .storeFull .none (unmarked c) s
  fault : (offer it c).1 = .storeFault → Replies i tag .storeFault .none (unmarked c) s

/-- The PIN check passes and leaves the blocks as `c'`. -/
def PinPasses (p : Option Pin) (c c' : Core) : Prop := pinCheck p c = (.pass, c')

/-- A request whose body does not fit the fields its request number calls for (R214). -/
def malformed : Instr → Bool
  | .listChannels _ none | .channelInfo _ none | .setHomeCarrier _ none | .setTuning _ none | .tunerStatus _ none
  | .selectChannel _ none | .stopOutput _ none | .sessionStatus _ none | .keyStatus _ none | .issue _ none
  | .lockIssue _ none | .accessStatus _ none | .issueStatus _ none | .guideQuery _ none | .nowNext _ none
  | .refreshGuide _ none | .unlockRoom _ none | .relockRoom _ none | .relockAll _ none | .switchProfile _ none
  | .returnProfile _ none | .setRoomDefault _ none | .setProfile _ none | .setPin _ none | .lockChannel _ none
  | .unlockChannel _ none | .limitStatus _ none | .purchase _ none | .uplinkNow _ none | .uplinkRelease _ none
  | .setUplink _ none | .purchaseLog _ none | .creditStatus _ none | .wipeAccount _ none | .storeStatus _ none
  | .addBooking _ none | .dropBooking _ none | .listBookings _ none | .standby _ none | .resume _ none | .wakeAt _ none
  | .setZone _ none | .clockStatus _ none | .takeNotices _ none | .ping _ none | .setAttention _ none | .setKeys _ none
  | .resetUnit _ none => true
  | _ => false

/-- A request answered when its issue-area write ends, not in the event in which it is begun (R215). -/
def writesIssue : Instr → Bool
  | .issue _ _ | .lockIssue _ _ => true
  | _ => false

/-- Requests that read state and change nothing (R13, R14, R29, R65, R82, R103, R104, R121, R122, R146, R171, R172, R190, R207,
R213), with their values in range. -/
def statusRequest (c : Core) : Instr → Bool
  | .listChannels _ (some a) => lcnInRange a.start
  | .channelInfo _ (some l) => lcnInRange l && (findChannel c l).isSome
  | .tunerStatus _ (some _) | .issueStatus _ (some _) | .limitStatus _ (some _) | .creditStatus _ (some _)
  | .storeStatus _ (some _) | .clockStatus _ (some _) => true
  | .sessionStatus _ (some n) | .keyStatus _ (some n) => n.all (· ≤ 3)
  | .accessStatus _ (some a) =>
    (a.selector == 0 && 1 ≤ a.position && a.position ≤ 4095) || (a.selector == 1 && a.position ≤ 23)
  | .guideQuery _ (some a) => lcnInRange a.lcn
  | .nowNext _ (some l) => lcnInRange l && (findChannel c l).isSome
  | .purchaseLog _ (some p) => p ≤ 47
  | .listBookings _ (some p) => p ≤ 31
  | _ => false

/-! ## Reports -/

/-- The uplink with a report of these records handed to the modem (R164). -/
def handed (records : List PurchaseRecord) (parity : Bool) (c : Core) : Uplink :=
  let n := c.uplink.attempt + 1
  let address := match c.access.issue with
    | .blank => 0
    | .written f | .locked f => f.address
  { c.uplink with attempt := n, report := some ⟨records, parity, n⟩, answerWait := ⟨5000, 5000, true⟩
                  line := c.uplink.line ++ [reportBytes address parity n records] }

/-- The uplink with a send begun: a report of up to 8 of the oldest records (R164). -/
def sendBegun (c : Core) : Uplink :=
  { handed (c.purchase.log.take 8) c.uplink.parity c with state := .sending, slotRetries := 0, pendingFlag := false }

/-! ## Frames of blocks -/

/-- Everything but the sessions, the clock's bookings and the link, with the queue behind them, stands as it was: what a session's
own events leave alone. -/
structure SessionsOnly (c c' : Core) : Prop where
  dir : c'.dir = c.dir
  arb : c'.arb = c.arb
  slots : c'.slots = c.slots
  keys : c'.keys = c.keys
  access : c'.access = c.access
  guide : c'.guide = c.guide
  limits : c'.limits = c.limits
  purchase : c'.purchase = c.purchase
  uplink : c'.uplink = c.uplink
  pages : c'.store.pages = c.store.pages
  time : c'.clock.time = c.clock.time

/-- The directory, the grants, the limits, the purchases and the uplink stand as they were: what the tuners' events leave alone. -/
structure TunersOnly (c c' : Core) : Prop where
  dir : c'.dir = c.dir
  access : c'.access = c.access
  limits : c'.limits = c.limits
  purchase : c'.purchase = c.purchase
  uplink : c'.uplink = c.uplink
  pages : c'.store.pages = c.store.pages
  time : c'.clock.time = c.clock.time

/-- No owner owes a commit (R179). -/
def nothingOwed (c : Core) : Prop :=
  c.clock.owedBookings = [] ∧ c.clock.owedDay = false ∧ c.dir.owed = [] ∧ c.access.groupOwed = false ∧
    c.purchase.logAckOwed = false ∧ c.limits.owed = []

/-- No grant bulletin is kept (R93). -/
def noneKept (c : Core) : Prop := ∀ i, (slot c i).feeds .grants = false ∨ (slot c i).hasHanded = false

/-- No recording runs on past its end (R202). -/
def noneExtended (c : Core) : Prop := ∀ b ∈ c.clock.bookings, b.extended = false

end Sys2Proof.Machine
end

