-- ==== Sys2Proof/Certificates/Slice0/Obligations.lean ====
section
/-! DEFINITION. The statements for the provers, chapter by chapter of spec/. A next state is written as an update of the state
before it: what the update does not name is unchanged. -/

open Sys2Proof Sys2Proof.Machine

/-! ## The queue, resets and requests -/

/-- The step of a command at the front of the queue is its meaning over the rest of the queue; on an empty queue the block idles, the
model's choice (log 8). -/
def Obligations.StepRunsFrontCommand : Prop :=
  (∀ (i : Instr) (rest : List Instr) (s : State), step { s with pending := i :: rest } = exec i { s with pending := rest }) ∧
  (∀ s : State, s.pending = [] → step s = .next s)

/-- Every command completes with a next state and leaves the commands behind it as they were. -/
def Obligations.EveryCommandCompletes : Prop := ∀ (i : Instr) (s : State), ∃ t, exec i s = .next t ∧ t.pending = s.pending

/-- Every step keeps the invariant: a receiver and an intake in their forms, at most 32 notices with ATTN as its mode calls for,
and a commit queue of at most 16 items of different keys with the urgent ones ahead. -/
def Obligations.StepKeepsInvariant : Prop := ∀ s t : State, Invariant s → step s = .next t → Invariant t

/-- The state after reset meets the invariant. -/
def Obligations.ResetMeetsInvariant : Prop := Invariant State.reset

/-- The three resets: every block starts over, over the issue record and the pages: the link, the directory, the tuners with the off
commands, the filter slots, the sessions with the lane maps and the room contexts, the key slots, the grants with the cut flag and the last
numbers, the guide with its sweep, the limits with the master profile, the purchases, the uplink, the clock and the store, which scans.
A write or an erase that the reset cuts has its effect when it had come whole into the memory; else a record stands torn, and a mark, an erase
and the issue record are as before it. RESET UNIT is answered OK, and only then is there a reset for REQUEST_RESET to take. The model's choices:
what a cut write leaves (log 11), the mark that RESET UNIT leaves for REQUEST_RESET (log 31), the cleared record of what was sent (log 10), the
order of the off commands (log 67), the times that stopped timers hold (log 68), the last number of an assembly not open (log 26), the strap named
by the reset command (log 6), and a REQUEST_RESET with nothing to take (log 1). -/
def Obligations.ResetsStartOver : Prop :=
  (∀ (r : ResetInput) (s : State) (i : Instr) (cause : ResetCause),
     (i = .powerOn r ∧ cause = .powerOn) ∨ (i = .resetLine r ∧ cause = .line) ∨
       (i = .requestReset r ∧ cause = .request ∧ s.front.resetPending = true) →
     ∃ t, exec i s = .next t ∧ t.pending = s.pending ∧
       t.front = { rx := [], intake := [], sent := [], resetPending := false, strap := r.strap } ∧
       t.core.link = { notices := [], lost := false, mode := .level, gap := 4, powerKey := 0x0C#8, attn := false, pulses := 0,
                       gapTimer := .stopped, refSeconds := 0, cause := cause } ∧
       t.core.dir = { map := [], carriers := [], guideCarrier := none, version := none, home := none, asmVersion := none, asmLast := 0,
                      asmArea := [], owed := [] } ∧
       (∀ u, tuner t.core u = { state := .off, carrier := none, number := none, holders := .none, acq := .stopped, loss := .stopped, count := 1 }) ∧
       t.core.arb.acqLimit = 800 ∧ t.core.arb.line = [⟨0, 1, none⟩, ⟨1, 1, none⟩, ⟨2, 1, none⟩, ⟨3, 1, none⟩] ∧
       (∀ n, slot t.core n = .closed) ∧ (∀ o, session t.core o = .idle) ∧ (∀ u, laneMap t.core u = .empty) ∧
       (∀ r, context t.core r = { default := 0, active := 0, saved := none, grant := none }) ∧ (∀ k, keySlot t.core k = .empty) ∧
       t.core.access = { issue := t.core.access.issue, issueWrite := none, packages := [], events := [], cut := false,
                         last := #v[none, none, none, none, none], groupOwed := false, groupOwedCredit := false } ∧
       t.core.guide = { records := [], blocks := t.core.guide.blocks, markers := [], interval := 240
                        sweep := ⟨.idle, ⟨14400000, 60000, true⟩, ⟨120000, 0, false⟩, .fresh, none⟩ } ∧
       (∀ k, block t.core k = { version := none, last := none, seen := [], complete := false }) ∧
       t.core.limits = { profiles := #v[some ⟨7, 1440, 0, [], 1000000⟩, none, none, none, none, none], pin := none, count := 0
                         lockout := .stopped, failFlag := false, failWriting := false, lockList := [], minute := .stopped, owed := [] } ∧
       t.core.purchase = { balance := 0, limit := 0, log := [], nextSeq := 1, acked := none, charged := none, inFlight := none, logAckOwed := false } ∧
       t.core.uplink = { state := .idle, report := none, attempt := 0, slotRetries := 0, failures := 0, quiet := 0, release := false
                         pendingFlag := false, mode := .auto, interval := 360, parity := false, answerWait := .stopped, retry := .stopped
                         ackWait := .stopped, backoff := .stopped, quietTimer := .stopped, reportTimer := ⟨21600000, 0, false⟩, line := [] } ∧
       t.core.clock = { time := none, broadcast := 0, zone := none, lastCorrection := none, today := none, wakeLead := 120, bookings := []
                        lastId := 0, owedBookings := [], owedDay := false, owedBeforeDay := [], power := .active, wake := false
                        causes := ⟨false, false, false⟩, alarm := none, hold := .stopped } ∧
       t.core.rooms.cells = #v[[], [], [], []] ∧
       t.core.store = { pages := t.core.store.pages, nextPageSerial := 1, lastOpened := none, nextSerial := 1, state := .scanning, queue := []
                        job := none, activity := .none, run := none, suspended := false, served := 0, eraseLeft := none, faultCause := none
                        faultPage := none, wipeFailed := false, banks := [], whole := [], floor := 0 } ∧
       (s.core.access.issueWrite = none ∨ r.landed = false → t.core.access.issue = s.core.access.issue) ∧
       (∀ f, s.core.access.issueWrite = some (.issue f) → r.landed = true → t.core.access.issue = .written f) ∧
       (∀ f, s.core.access.issueWrite = some .lockFlag → s.core.access.issue = .written f → r.landed = true →
         t.core.access.issue = .locked f)) ∧
  (∀ (r : ResetInput) (s : State) (i : Instr), i = .powerOn r ∨ i = .resetLine r ∨ (i = .requestReset r ∧ s.front.resetPending = true) →
     ∃ t, exec i s = .next t ∧
       let st := s.core.store
       let kept := t.core.store.pages = st.pages
       let only := fun (p : PageNo) (x : Page) => ∀ q, page t.core.store q = if q = p then x else page st q
       let joined := fun (p : PageNo) (e : PageEntry) => only p { page st p with entries := (page st p).entries ++ [e] }
       (st.activity = .none → kept) ∧
       (∀ second j x p, st.activity = .item second → st.job = some j → j.next = some x → openPage st = some p →
         joined p (.record { x with torn := !r.landed })) ∧
       (∀ x second p, st.activity = .copy x second → openPage st = some p → joined p (.record { x with torn := !r.landed })) ∧
       (∀ m second n, st.activity = .mark m second n → r.landed = false → kept) ∧
       (∀ p second n, st.activity = .mark (.full p) second n → r.landed = true → only p { page st p with state := .full }) ∧
       (∀ p second n, st.activity = .mark (.opening p) second n → r.landed = true →
         only p { page st p with state := .opened, serial := st.nextPageSerial }) ∧
       (∀ p second n, st.activity = .mark (.retiring p) second n → r.landed = true → only p { page st p with state := .retiring }) ∧
       (∀ p second n, st.activity = .mark (.wipe p) second n → r.landed = true → joined p (.wipeMark st.nextSerial true)) ∧
       (∀ p, st.activity = .erase p → (r.landed = true → only p .blank) ∧ (r.landed = false → kept)) ∧
       (∀ b, st.activity = .bankErase b →
         (r.landed = true → ∀ q, page t.core.store q = if q.val / 16 = b.val then .blank else page st q) ∧ (r.landed = false → kept))) ∧
  (∀ (s : State),
     (∀ tag, Handled (.resetUnit tag (some ())) s →
       exec (.resetUnit tag (some ())) s = .next { replied (.reply tag .ok .none) s.core s with
         front := { (replied (.reply tag .ok .none) s.core s).front with resetPending := true } }) ∧
     (∀ r, s.front.resetPending = false → exec (.requestReset r) s = .next s))

/-- During the start-up scan every request other than PING is answered BUSY with its own tag. A request that is not the one to be handled
joins the tail of the intake, or is answered BUSY when the intake holds 4. -/
def Obligations.RequestsAreTurnedAwayOrWait : Prop :=
  (∀ (i : Instr) (tag : Byte) (s : State), i.tag = some tag → (∀ a, i ≠ .ping tag a) → isHandledNow i s = true →
     s.core.store.state = .scanning → Replies i tag .busy .none s.core s) ∧
  (∀ (i : Instr) (tag : Byte) (s : State), i.tag = some tag → isHandledNow i s = false →
     (s.front.intake.length < 4 → exec i s = .next { s with front := { s.front with intake := s.front.intake ++ [i] } }) ∧
     (4 ≤ s.front.intake.length →
       exec i s = .next { s with front := { s.front with sent := s.front.sent ++ [.reply tag .busy .none] } }))

/-- A request whose body does not fit its fields is answered BAD_REQUEST. -/
def Obligations.MisfitRequestsAreBad : Prop :=
  ∀ (i : Instr) (tag : Byte) (s : State), i.tag = some tag → malformed i = true → Handled i s →
    Replies i tag .badRequest .none s.core s

/-- A request that is handled sends one frame with its tag, but for those that wait for the issue area. The bytes of the frames: a reply's
body begins with the code's value and is that byte alone for a reply of no fields; the batch and its notice records have the leading bytes of
Table 11.7-2, and at most 32 field bytes each (the field bytes are opaque, log 27). -/
def Obligations.OneFramePerRequest : Prop :=
  (∀ (i : Instr) (tag : Byte) (s : State), i.tag = some tag → isHandledNow i s = true →
    ∃ t, exec i s = .next t ∧
      ((∃ f : Frame, f.tag = tag ∧ t.front.sent = s.front.sent ++ [f] ∧ t.front.intake = s.front.intake.tail) ∨
        (writesIssue i = true ∧ t.front.sent = s.front.sent ∧ t.front.intake.head? = some i ∧
          t.core.access.issueWrite.isSome = true))) ∧
  (∀ (tag : Byte) (code : Code) (body : ReplyBody) (lost : Bool) (remaining : Nat) (l : List Notice) (n : Notice) (s : State),
     let byte := fun x : Nat => BitVec.ofNat 8 x
     let frame := fun (kind : Byte) (body : List Byte) =>
       let counted := kind :: tag :: byte body.length :: body
       0xA5#8 :: counted ++ [byte ((crc counted).toNat / 256), byte (crc counted).toNat]
     (Frame.reply tag code .none).bytes = frame 0x02#8 [byte code.value] ∧
     (∃ fields, fields.length ≤ 239 ∧ (Frame.reply tag code body).bytes = frame 0x02#8 (byte code.value :: fields)) ∧
     (Frame.batch tag lost remaining l).bytes =
       frame 0x03#8 ([0x00#8, (if lost = true then 1 else 0), byte remaining, byte l.length] ++ l.flatMap Notice.bytes) ∧
     (∃ fields, fields.length ≤ 32 ∧ n.bytes = [byte n.body.kindValue, (if n.network = true then 1 else 0), byte (n.stamp / 16777216),
       byte (n.stamp / 65536), byte (n.stamp / 256), byte n.stamp, byte fields.length] ++ fields) ∧
     lineBytes s = s.front.sent.flatMap Frame.bytes)

/-! ## The Message Link -/

/-- A whole frame that arrives on an idle receiver: the judgement of R214, and its offer to the intake. A frame that is cut short by the
100 ms limit, or whose body length byte exceeds 240, is answered BAD_FRAME with tag 0. -/
def Obligations.FramesAreJudged : Prop :=
  (∀ (kind tag : Byte) (body check : List Byte) (s : State), s.front.rx = [] → body.length ≤ 240 → check.length = 2 →
     let bytes := [0xA5#8, kind, tag, BitVec.ofNat 8 body.length] ++ body ++ check
     let holds := number check = (crc ([kind, tag, BitVec.ofNat 8 body.length] ++ body)).toNat
     let asked := requestOf (number (body.take 2)) tag (body.drop 2)
     let sends := fun f : Frame => exec (.frameReceived bytes) s = .next { s with front := { s.front with sent := s.front.sent ++ [f] } }
     (¬holds → sends (.reply 0 .badFrame .none)) ∧
     (holds → kind ≠ 0x01#8 ∨ tag = 0 ∨ body.length < 2 → sends (.reply tag .unknown .none)) ∧
     (holds → kind = 0x01#8 → tag ≠ 0 → 2 ≤ body.length →
       (asked = none → sends (.reply tag .unknown .none)) ∧
       (∀ i, asked = some i → 4 ≤ s.front.intake.length → sends (.reply tag .busy .none)) ∧
       (∀ i, asked = some i → s.front.intake.length < 4 →
         exec (.frameReceived bytes) s = .next { s with front := { s.front with intake := s.front.intake ++ [i] } }))) ∧
  (∀ s : State,
     let bad := { s with front := { s.front with rx := [], sent := s.front.sent ++ [.reply 0 .badFrame .none] } }
     (s.front.rx ≠ [] → exec .frameReceiveLimit s = .next bad) ∧ (s.front.rx = [] → exec .frameReceiveLimit s = .next s) ∧
     (∀ kind tag n : Byte, s.front.rx = [] → 240 < n.toNat → exec (.bodyLengthExceeded kind tag n) s = .next bad))

/-- PING is answered in every state and changes nothing; behind an issue-area write it waits. -/
def Obligations.PingAnswers : Prop :=
  ∀ (tag : Byte) (s : State),
    (isHandledNow (.ping tag (some ())) s = true →
      Replies (.ping tag (some ())) tag .ok
        (.ping 0x0460 Config.siliconRevision (s.core.store.state == .scanning) (Config.strapRate s.front.strap)) s.core s) ∧
    (s.core.access.issueWrite.isSome = true → s.front.intake ≠ [] → s.front.intake.length < 4 →
      exec (.ping tag (some ())) s = .next { s with front := { s.front with intake := s.front.intake ++ [.ping tag (some ())] } })

/-- TAKE NOTICES takes up to 6 of the oldest notices with the lost flag, and settles ATTN. -/
def Obligations.NoticesAreTaken : Prop :=
  ∀ (tag : Byte) (s : State), Handled (.takeNotices tag (some ())) s →
    let l := s.core.link
    let left := l.notices.drop 6
    let l' := { l with
      notices := left, lost := false,
      attn := if l.mode = .level then !left.isEmpty else l.attn
      gapTimer := if l.mode = .level then l.gapTimer
        else if left.isEmpty then { l.gapTimer with running := false } else { reload := l.gap, left := l.gap, running := true } }
    exec (.takeNotices tag (some ())) s =
      .next (replied (.batch tag l.lost (l.notices.length - 6) (l.notices.take 6)) { s.core with link := l' } s)

/-- A notice joins the tail with its stamp when fewer than 32 wait, and is discarded with the lost flag otherwise. The gap timer's expiry
is a pulse. -/
def Obligations.NoticesJoinAndPulse : Prop :=
  (∀ (b : NoticeBody) (c : Core),
     let l := c.link
     let n : Notice := ⟨c.clock.time.isSome, c.clock.time.getD l.refSeconds, b⟩
     (l.notices.length < 32 → post b c = { c with link := { l with
       notices := l.notices ++ [n]
       attn := l.attn || l.mode == .level
       pulses := if l.mode = .edge ∧ l.notices = [] then l.pulses + 1 else l.pulses } }) ∧
     (32 ≤ l.notices.length → post b c = { c with link := { l with lost := true } })) ∧
  (∀ s : State,
     let l := s.core.link
     (l.gapTimer.running = true → exec .gapTimer s = .next { s with core := { s.core with link := { l with
       gapTimer := { l.gapTimer with left := 0, running := false }, pulses := l.pulses + 1 } } }) ∧
     (l.gapTimer.running = false → exec .gapTimer s = .next s))

/-- A press posts KEYPRESS, and the power key asserts WAKE in STANDBY; any other report does nothing. -/
def Obligations.KeyReportsArePosted : Prop :=
  ∀ (code : Byte) (s : State),
    (code ≠ s.core.link.powerKey ∨ s.core.clock.power = .active →
      exec (.keyReport code .press) s = .next { s with core := post (.keypress code) s.core }) ∧
    (code = s.core.link.powerKey → s.core.clock.power = .standby →
      exec (.keyReport code .press) s = .next { s with core := { post (.keypress code) s.core with clock := { s.core.clock with
        wake := true, causes := { s.core.clock.causes with powerKey := true } } } }) ∧
    exec (.keyReport code .repeated) s = .next s ∧ exec (.keyReport code .other) s = .next s

/-- SET ATTENTION and SET KEYS: the table of R15 with one record of both, and ATTN settled for a new mode. -/
def Obligations.LinkSettings : Prop :=
  ∀ (tag : Byte) (s : State),
    let item := fun (m : AttnMode) (gap : Nat) (key : Byte) =>
      Item.mk ⟨.settings, 7⟩ [(⟨.settings, 7⟩, .link m gap key)] false
    (∀ a : AttentionReq, Handled (.setAttention tag (some a)) s →
      (a.mode ≠ 0 ∧ a.mode ≠ 1 ∨ a.gap = 0 ∨ 8 < a.gap → Replies (.setAttention tag (some a)) tag .badRequest .none s.core s) ∧
      (∀ m, (a.mode = 0 ∧ m = .level) ∨ (a.mode = 1 ∧ m = .edge) → 1 ≤ a.gap → a.gap ≤ 8 →
        SettingTable (.setAttention tag (some a)) tag (item m a.gap s.core.link.powerKey)
          (fun c => { c with link :=
            if c.link.mode = m then { c.link with gap := a.gap }
            else if m = .level then
              { c.link with mode := m, gap := a.gap, attn := !c.link.notices.isEmpty
                            gapTimer := { c.link.gapTimer with running := false } }
            else { c.link with mode := m, gap := a.gap, attn := false
                               gapTimer := if c.link.notices.isEmpty then c.link.gapTimer
                                 else { reload := a.gap, left := a.gap, running := true } } }) s.core s)) ∧
    (∀ n : Nat, Handled (.setKeys tag (some n)) s →
      (255 < n → Replies (.setKeys tag (some n)) tag .badRequest .none s.core s) ∧
      (n ≤ 255 → SettingTable (.setKeys tag (some n)) tag (item s.core.link.mode s.core.link.gap (BitVec.ofNat 8 n))
        (fun c => { c with link := { c.link with powerKey := BitVec.ofNat 8 n } }) s.core s))

/-! ## Status requests and their replies -/

/-- A status request whose values lie in their ranges is answered OK and changes nothing; then the fields that each reply gives (those of CHANNEL
INFO, ISSUE STATUS and CREDIT STATUS are statements of their own). The model's choice: the next position of the package grants (log 60). -/
def Obligations.StatusRequestsReadOnly : Prop :=
  (∀ (i : Instr) (tag : Byte) (s : State), i.tag = some tag → statusRequest s.core i = true → Handled i s →
    ∃ body, Replies i tag .ok body s.core s) ∧
  (∀ (tag : Byte) (s : State),
     let c := s.core
     let gives := fun (i : Instr) (body : ReplyBody) => Handled i s → Replies i tag .ok body c s
     let left := fun t : Timer => if t.running = true then some t.left else none
     let tuners : List (Fin 4) := [0, 1, 2, 3]
     let outputs := [Output.roomA, .roomB, .record1, .record2]
     let tunerRow := fun t : Fin 4 =>
       let u := tuner c t
       ({ state := u.state, carrier := u.carrier, number := u.number, holders := u.holders, lossExpired := u.state == .lost && !u.loss.running
          openSlots := allSlots.countP fun n => (slot c n).filter.any (·.tuner == t) } : TunerReport)
     let sessionRow := fun o : Output =>
       let x := session c o
       let room := match o with | .roomA => some (context c .a) | .roomB => some (context c .b) | _ => none
       ({ output := o, session := x, keyState := x.slot.map fun k => (keySlot c k).state, tunerState := x.tuner.map fun t => (tuner c t).state
          profile := room.map (·.active), savedPresent := (room.bind (·.saved)).isSome, grantPresent := (room.bind (·.grant)).isSome } : SessionReport)
     let keyRow := fun k : Fin 4 =>
       let x := keySlot c k
       let fields : KeyFields :=
         { carrier := x.carrier, number := x.carrier.bind (numberOf c), keyLane := x.keyLane
           outputs := outputs.filter fun o => (session c o).slot == some k, evenHeld := x.even.isSome, oddHeld := x.odd.isSome
           parity := x.parity, period := x.period, life := left x.life, filter := x.filter }
       if x.state = .empty then KeyReport.mk k .empty 0 none else .mk k x.state x.refs (some fields)
     (∀ a : ListChannelsReq, 1 ≤ a.start → a.start ≤ 9999 →
       let d := c.dir
       let l := d.map.filter fun e => a.start ≤ e.lcn && (a.hidden || !e.hidden)
       gives (.listChannels tag (some a)) (.channels d.version d.map.length d.carriers.length d.guideCarrier d.home
         (d.asmVersion.map fun v => (v, d.asmArea.length)) ((l.take 10).map fun e => ⟨e.lcn, e.kind, e.name, e.hidden, e.baseRating⟩)
         ((l.drop 10).head?.map (·.lcn)))) ∧
     gives (.tunerStatus tag (some ())) (.tuners (tuners.map tunerRow) (tuners.find? fun t => (tuner c t).state == .locked) c.arb.acqLimit) ∧
     gives (.sessionStatus tag (some none)) (.sessions (outputs.map sessionRow)) ∧
     (∀ n o, (n, o) ∈ [(0, Output.roomA), (1, .roomB), (2, .record1), (3, .record2)] →
       gives (.sessionStatus tag (some (some n))) (.sessions [sessionRow o])) ∧
     gives (.keyStatus tag (some none)) (.keys (tuners.map keyRow)) ∧
     (∀ k : Fin 4, gives (.keyStatus tag (some (some k.val))) (.keys [keyRow k]))) ∧
  (∀ (tag : Byte) (s : State),
     let c := s.core
     let a := c.access
     let gives := fun (i : Instr) (body : ReplyBody) => Handled i s → Replies i tag .ok body c s
     let locked := match a.issue with | .locked _ => true | _ => false
     let summary : AccessSummary := ⟨locked, a.cut, a.packages.length, a.events.length, c.clock.today, a.last, a.groupOwed⟩
     let valid := fun g : PackageGrant => c.clock.today.any fun d => (g.first : Int) ≤ d && d ≤ (g.last : Int)
     let w := c.guide.sweep
     let progress : GuideSummary :=
       { records := c.guide.records.length, state := w.state, remaining := if w.state = .idle then w.timer.left else w.limit.left, next := w.next
         blocks := allBlocks.map fun k => ((block c k).version, (block c k).complete) }
     let present := fun r : EventRecord => (presentEvent c r.lcn).any (·.event == r.event)
     (∀ position, 1 ≤ position → position ≤ 4095 →
       let l := if locked = true then a.packages.filter (position ≤ ·.id) else []
       gives (.accessStatus tag (some ⟨0, position⟩)) (.packages summary ((l.take 16).map fun g => (g, valid g)) ((l.drop 16).head?.map (·.id)))) ∧
     (∀ position, position ≤ 23 →
       let l := if locked = true then a.events.drop position else []
       gives (.accessStatus tag (some ⟨1, position⟩)) (.events summary (l.take 12) (if 12 < l.length then some (position + 12) else none))) ∧
     (∀ lcn start, 1 ≤ lcn → lcn ≤ 9999 →
       let l := c.guide.records.filter fun r => r.lcn == lcn && start < r.start + r.duration * 60
       gives (.guideQuery tag (some ⟨lcn, start⟩)) (.guide progress ((l.take 6).map fun r => (r, present r))
         (if 6 < l.length then (l.take 6).getLast?.map fun r => r.start + r.duration * 60 else none))) ∧
     (∀ lcn e, 1 ≤ lcn → lcn ≤ 9999 → findChannel c lcn = some e →
       let after := fun now : Nat => c.guide.records.find? fun r => r.lcn == lcn && now ≤ r.start && !present r
       gives (.nowNext tag (some lcn)) (.nowNext ((presentEvent c lcn).map fun p => (p, findRecord c lcn p.event)) (c.clock.time.bind after)
         ((c.guide.markers.find? (·.lcn == lcn)).map fun m => (m, channelCarrier c m.lcn == some m.carrier))))) ∧
  (∀ (tag : Byte) (s : State),
     let c := s.core
     let l := c.limits
     let p := c.purchase
     let u := c.uplink
     let k := c.clock
     let st := c.store
     let gives := fun (i : Instr) (body : ReplyBody) => Handled i s → Replies i tag .ok body c s
     let left := fun t : Timer => if t.running = true then some t.left else none
     let room := fun (r : Room) (o : Output) => RoomLimits.mk (context c r) ((session c o).lcn.map fun n => limitVerdict c r n (session c o).event)
     let pages := fun x : PageState => (allPages.filter fun q => (page st q).state == x).length
     let kinds := [RecordKind.package, .eventGrant, .bulletinNumbers, .credit, .purchase, .logAck, .profile, .pin, .lockList, .usedToday, .booking,
       .lastDay, .settings, .directoryPart]
     let needed := fun x : RecordKind => (liveNeeded st).filter fun y => y.2.key.kind == x
     gives (.limitStatus tag (some ())) (.limits
       { pinSet := l.pin.isSome, count := l.count, lockout := left l.lockout, failFlag := l.failFlag, owed := l.owed, profiles := l.profiles.toList
         lockList := l.lockList, roomA := room .a .roomA, roomB := room .b .roomB, minute := left l.minute }) ∧
     (∀ position, position ≤ 47 →
       let rest := p.log.drop position
       gives (.purchaseLog tag (some position)) (.purchaseLog
         { records := p.log.length, unreported := (p.log.filter fun r => !r.reported).length, nextSeq := p.nextSeq, acked := p.acked
           charged := p.charged, parity := u.parity, logAckOwed := p.logAckOwed, state := u.state, failures := u.failures, quiet := u.quiet
           release := u.release, pendingFlag := u.pendingFlag, mode := u.mode, interval := u.interval
           report := u.report.map fun r => (r, u.slotRetries)
           timers := [left u.answerWait, left u.retry, left u.ackWait, left u.backoff, left u.quietTimer, left u.reportTimer]
           page := rest.take 8, nextPosition := if 8 < rest.length then some (position + 8) else none })) ∧
     gives (.storeStatus tag (some ())) (.store
       { state := st.state, faultCause := st.faultCause, faultPage := st.faultPage, erased := pages .erased, opened := pages .opened
         full := pages .full, retiring := pages .retiring, openPage := openPage st
         bytesFree := ((openPage st).map fun q => pageFree (page st q)).getD 0, nextSerial := st.nextSerial, writing := st.job.map (·.item.key)
         urgent := (st.queue.filter (·.urgent)).length, nonUrgent := (st.queue.filter fun x => !x.urgent).length, keys := st.queue.map (·.key)
         run := st.run, suspended := st.suspended, served := st.served, eraseLeft := st.eraseLeft
         needed := kinds.map fun x => (x, (needed x).length, ((needed x).map fun y => recordSize y.2.length).sum) }) ∧
     (∀ position, position ≤ 31 →
       let rest := k.bookings.drop position
       gives (.listBookings tag (some position)) (.bookings k.bookings.length ((rest.take 6).map fun b => (b, k.owedBookings.contains b.id))
         (if 6 < rest.length then some (position + 6) else none))) ∧
     (Handled (.clockStatus tag (some ())) s →
       let point := fun b : Booking => match b.kind with
         | .recording => (b.start : Int) - k.wakeLead
         | .reminder => (b.start : Int) - b.lead * 60
       let waits := fun b : Booking => b ∈ k.bookings ∧ b.state = .waiting
       let here := k.time.map fun t => (t : Int) + k.zone.getD k.broadcast * 60
       ∃ due : Option (Nat × Nat),
         ((due = none ∧ ∀ b, ¬waits b) ∨ ∃ b, waits b ∧ due = some (b.id, b.start) ∧ ∀ x, waits x → point b ≤ point x) ∧
         Replies (.clockStatus tag (some ())) tag .ok (.clock
           { time := k.time, offset := k.zone.getD k.broadcast, broadcast := k.broadcast, zone := k.zone, localTime := here
             localDay := here.map fun t => Int.fdiv t 86400, localMinute := here.map fun t => (Int.fmod t 86400 / 60).toNat, today := k.today
             dayOwed := k.owedDay, lastCorrection := k.lastCorrection, wakeLead := k.wakeLead, alarm := k.alarm, power := k.power, wake := k.wake
             causes := k.causes, standbyCondition := standbyCondition c, watchTuner := heldTuner c .watch, hold := left k.hold
             counts := [BookingState.waiting, .due, .active, .done, .missed, .conflict].map fun x => (x, (k.bookings.filter (·.state == x)).length)
             nextDue := due }) c s))

/-- CHANNEL INFO is refused BAD_REQUEST out of range and NO_SUCH without an entry; else it gives the channel entry with its carrier,
and how that carrier stands to the guide and home carriers. -/
def Obligations.ChannelInfoReply : Prop :=
  ∀ (tag : Byte) (lcn : Nat) (s : State), Handled (.channelInfo tag (some lcn)) s →
    let d := s.core.dir
    let carrier := fun n : Nat => (d.carriers.find? (·.number == n)).map (·.carrier)
    let found := d.map.find? (·.lcn == lcn)
    (lcn = 0 ∨ 9999 < lcn → Replies (.channelInfo tag (some lcn)) tag .badRequest .none s.core s) ∧
    (1 ≤ lcn → lcn ≤ 9999 → found = none → Replies (.channelInfo tag (some lcn)) tag .noSuch .none s.core s) ∧
    (∀ e, 1 ≤ lcn → lcn ≤ 9999 → found = some e → ∃ guide home : Bool,
      Replies (.channelInfo tag (some lcn)) tag .ok (.channelInfo e (carrier e.carrierNo) guide home) s.core s ∧
      (guide = true ↔ ∃ n x, d.guideCarrier = some n ∧ carrier n = some x ∧ carrier e.carrierNo = some x) ∧
      (home = true ↔ ∃ x, d.home = some x ∧ carrier e.carrierNo = some x))

/-- ISSUE STATUS gives the condition of the issue record, and of a written or locked one its fields but for the key. -/
def Obligations.IssueStatusReply : Prop :=
  ∀ (tag : Byte) (s : State), isHandledNow (.issueStatus tag (some ())) s = true →
    let fields := fun f : IssueFields =>
      some (IssueReport.mk f.address ((List.range f.groups.length).map fun n => (n + 1, f.groups.getD n 0)) true)
    let gives := fun condition fields =>
      Replies (.issueStatus tag (some ())) tag .ok (.issue condition fields) s.core s
    (s.core.store.state = .scanning → Replies (.issueStatus tag (some ())) tag .busy .none s.core s) ∧
    (s.core.store.state ≠ .scanning → s.core.access.issue = .blank → gives .blank none) ∧
    (∀ f, s.core.store.state ≠ .scanning → s.core.access.issue = .written f → gives .written (fields f)) ∧
    (∀ f, s.core.store.state ≠ .scanning → s.core.access.issue = .locked f → gives .locked (fields f))

/-- CREDIT STATUS gives the credit, the purchase in flight, and whether the issue record is locked and the cut flag set. -/
def Obligations.CreditStatusReply : Prop :=
  ∀ (tag : Byte) (s : State), Handled (.creditStatus tag (some ())) s →
    let p := s.core.purchase
    let flight := match p.inFlight with
      | none => none
      | some f => some (FlightReport.mk f.seq f.room f.lcn f.event f.price f.profile)
    ∃ locked : Bool, (locked = true ↔ ∃ f, s.core.access.issue = .locked f) ∧
      Replies (.creditStatus tag (some ())) tag .ok (.credit p.balance p.limit p.charged flight locked s.core.access.cut) s.core s

/-! ## Settings of the directory, the tuners and the clock -/

/-- SET HOME CARRIER, SET TUNING, WAKE AT and SET ZONE: BAD_REQUEST out of range, the alarm alone at once, else the table of R15. -/
def Obligations.SettingsFollowTheQueue : Prop :=
  (∀ (tag : Byte) (s : State),
     let home := fun x : Option Carrier => Item.mk ⟨.settings, 1⟩ [(⟨.settings, 1⟩, .homeCarrier x)] false
     let putHome := fun (x : Option Carrier) (c : Core) => watchReclaim { c with dir := { c.dir with home := x } }
     (∀ f n, Handled (.setHomeCarrier tag (some (some ⟨f, n⟩))) s →
       (f < 48000 ∨ 1002000 < f ∨ 2 < n → Replies (.setHomeCarrier tag (some (some ⟨f, n⟩))) tag .badRequest .none s.core s) ∧
       (∀ sym, (n, sym) ∈ [(0, SymbolClass.a), (1, .b), (2, .c)] → 48000 ≤ f → f ≤ 1002000 →
         SettingTable (.setHomeCarrier tag (some (some ⟨f, n⟩))) tag (home (some ⟨f, sym⟩)) (putHome (some ⟨f, sym⟩)) s.core s)) ∧
     (Handled (.setHomeCarrier tag (some none)) s →
       SettingTable (.setHomeCarrier tag (some none)) tag (home none) (putHome none) s.core s) ∧
     (∀ n, Handled (.setTuning tag (some n)) s →
       (n < 200 ∨ 3000 < n ∨ n % 100 ≠ 0 → Replies (.setTuning tag (some n)) tag .badRequest .none s.core s) ∧
       (200 ≤ n → n ≤ 3000 → n % 100 = 0 →
         SettingTable (.setTuning tag (some n)) tag ⟨⟨.settings, 2⟩, [(⟨.settings, 2⟩, .acqLimit n)], false⟩
           (fun c => { c with arb := { c.arb with acqLimit := n } }) s.core s))) ∧
  (∀ (tag : Byte) (s : State),
     let k := s.core.clock
     let item := fun (z : Option Int) (lead : Nat) => Item.mk ⟨.settings, 6⟩ [(⟨.settings, 6⟩, .clock z lead)] false
     let late := fun alarm : Option Nat => ∃ now t, k.time = some now ∧ alarm = some t ∧ t ≤ now
     (∀ a : WakeAtReq, Handled (.wakeAt tag (some a)) s →
       (late a.alarm ∨ (∃ n, a.lead = some n ∧ (n < 30 ∨ 600 < n)) →
         Replies (.wakeAt tag (some a)) tag .badRequest .none s.core s) ∧
       (¬late a.alarm → a.lead = none →
         Replies (.wakeAt tag (some a)) tag .ok .none { s.core with clock := { k with alarm := a.alarm } } s) ∧
       (∀ n, ¬late a.alarm → a.lead = some n → 30 ≤ n → n ≤ 600 →
         SettingTable (.wakeAt tag (some a)) tag (item k.zone n)
           (fun c => { c with clock := { c.clock with alarm := a.alarm, wakeLead := n } }) s.core s)) ∧
     (∀ z : Option Int, Handled (.setZone tag (some z)) s →
       ((∃ n, z = some n ∧ (n < -720 ∨ 840 < n)) → Replies (.setZone tag (some z)) tag .badRequest .none s.core s) ∧
       ((∀ n, z = some n → -720 ≤ n ∧ n ≤ 840) →
         SettingTable (.setZone tag (some z)) tag (item z k.wakeLead)
           (fun c =>
             let c' := { c with clock := { c.clock with zone := z } }
             if z.getD k.broadcast = k.zone.getD k.broadcast then c' else offsetChanged c') s.core s)))

/-! ## Tuners, filters and cells -/

/-- A LOCK report of the tuner's count makes it LOCKED, from ACQUIRING and from LOST; any other changes nothing. From ACQUIRING the sessions
and a sweep that wait for the tuner are told, and its filters are opened; from LOST the outputs that hold it are told SIGNAL_REGAINED; then the
control tuner is settled and Clock and Bookings is told. A session told SIGNAL_REGAINED leaves DARK by its return state: OPENING with its wait
started, or CHECKING at once; CHECKING again; PRESENTING when the set recorded is empty and the key is there, else HELD with that set. The
order of the holders is the model's choice (log 66), and so are the cleared event id in OPENING (log 47), the one SESSION_STATE for a chain of
states, so that an OPENING passed through has none (log 13), and OPENING for a return to CHECKING that finds no lane-map entry (log 85). For the first statement no recording
runs on past its end, whose end could turn tuners off in the same event. -/
def Obligations.LockReportLocks : Prop :=
  (∀ (o : Output) (c : Core),
    let x := session c o
    let after := signalRegained o c
    let told := fun (st : SessionState) (r : Reasons) (outcome : ChangeOutcome) (rs : Option Reasons) (c : Core) =>
      if x.change = .absent then post (.sessionState o st r x.lcn x.event) c
      else
        let c := post (.changeDone o x.change.host outcome x.lcn rs) c
        match x.origin with
        | .host => c
        | .booking id => bookingOutcome id outcome c
    let back := fun (st : SessionState) (r : Reasons) => setSession o { x with
      state := st, reasons := r, ret := none, change := .absent, keyWait := { x.keyWait with running := false } } c
    let opened := setSession o { x with
      state := .opening, reasons := .none, event := none, ret := none, laneWait := ⟨2000, 2000, true⟩
      keyWait := { x.keyWait with running := false } } c
    (x.state ≠ .dark → after = c) ∧
    (x.state = .dark → x.ret = some .opening ∨ x.ret = some .checking → laneEntry c x = none →
      after = if x.change = .absent then post (.sessionState o .opening .none x.lcn none) opened else opened) ∧
    (∀ e, x.state = .dark → x.ret = some .opening → laneEntry c x = some e → after = enterChecking o e opened) ∧
    (∀ e, x.state = .dark → x.ret = some .checking → laneEntry c x = some e → after = enterChecking o e c) ∧
    (x.state = .dark → x.ret = some .presenting ∨ x.ret = some .held →
      let keyed := ∃ e, x.service = some e ∧ (e.keyLane = 0 ∨
        ∃ k, x.slot = some k ∧ ((keySlot c k).state = .ready ∨ (keySlot c k).state = .stale))
      (x.reasons = .none → keyed → after = told .presenting .none .presenting none (back .presenting .none)) ∧
      (x.reasons ≠ .none ∨ ¬keyed →
        let c1 := told .held x.reasons .held (some x.reasons) (back .held x.reasons)
        after = if x.reasons.noGrant = true then purchaseOffer o c1 else c1))) ∧
  ∀ (t : Fin 4) (n : BitVec 4) (s : State),
    let u := tuner s.core t
    let outputs := [Output.roomA, .roomB, .record1, .record2]
    let filters := fun c : Core => openFilter ⟨t, 5, .presentNext⟩ (openFilter ⟨t, 4, .laneMap⟩ c)
    let waiting := fun (c : Core) (o : Output) =>
      let x := session c o
      if x.state = .tuning ∧ x.tuner = some t then
        tryChecking o x (setSession o { x with
          state := .opening, reasons := .none, event := none, ret := none, laneWait := ⟨2000, 2000, true⟩
          keyWait := { x.keyWait with running := false } } c)
      else c
    let sweep := fun c : Core =>
      if u.holders.sweep = true ∧ c.guide.sweep.state = .tuning then
        openFilter ⟨t, 16, .schedule⟩ { c with guide := { c.guide with sweep := { c.guide.sweep with state := .collecting } } }
      else c
    let watch := fun c : Core => if (tuner c t).holders.hasOther = true then watchEnds c else c
    (n = u.count → u.state = .acquiring → exec (.lockReport t n) s = .next { s with core := watch (settleControl (filters (sweep
      (outputs.foldl waiting (setTuner t { u with state := .locked, acq := { u.acq with running := false } } s.core))))) }) ∧
    (n = u.count → u.state = .lost → exec (.lockReport t n) s = .next { s with core := watch (settleControl
      ((outputs.filter fun o => u.holders.has (.out o)).foldl (fun c o => signalRegained o c)
        (setTuner t { u with state := .locked, loss := { u.loss with running := false } } s.core))) }) ∧
    (n = u.count → u.state = .acquiring ∨ u.state = .lost → noneExtended s.core →
      ∃ c, exec (.lockReport t n) s = .next { s with core := c } ∧ TunersOnly s.core c ∧ (tuner c t).state = .locked ∧
        (tuner c t).carrier = u.carrier ∧ (tuner c t).count = u.count) ∧
    (n ≠ u.count ∨ u.state = .off ∨ u.state = .locked → exec (.lockReport t n) s = .next s)

/-- A LOSS report of the tuner's count makes a LOCKED tuner LOST with its loss timer at 5 s; any other changes nothing. The outputs that hold it
are told SIGNAL_LOST in the model's order (log 66), the segments in assembly are discarded, the markers of the carrier go, and standby watch is
tested. A session in OPENING, CHECKING, PRESENTING or HELD goes DARK with that state as its return state and its waits stopped; it posts
SESSION_STATE when no change is in flight, and any other session is not touched. The loss timer's expiry posts SIGNAL_LOST. -/
def Obligations.LossIsReported : Prop :=
  (∀ (o : Output) (c : Core),
     let x := session c o
     let dark := setSession o { x with
       state := .dark, ret := some x.state, laneWait := { x.laneWait with running := false }
       keyWait := { x.keyWait with running := false } } c
     let plays := x.state = .opening ∨ x.state = .checking ∨ x.state = .presenting ∨ x.state = .held
     (plays → signalLost o c = if x.change = .absent then post (.sessionState o .dark x.reasons x.lcn x.event) dark else dark) ∧
     (¬plays → signalLost o c = c)) ∧
  (∀ (t : Fin 4) (n : BitVec 4) (s : State),
     let u := tuner s.core t
     let outputs := [Output.roomA, .roomB, .record1, .record2]
     let told := (outputs.filter fun o => u.holders.has (.out o)).foldl (fun c o => signalLost o c)
       (setTuner t { u with state := .lost, loss := ⟨5000, 5000, true⟩ } s.core)
     let left := carrierUnlocked stopSession u.carrier (discardAssembly t (settleControl told))
     (n = u.count → u.state = .locked → exec (.lossReport t n) s = .next { s with
       core := if u.holders.hasOther = true then watchTest left else left }) ∧
     (n = u.count → u.state = .locked → noneExtended s.core →
       ∃ c, exec (.lossReport t n) s = .next { s with core := c } ∧ TunersOnly s.core c ∧ (tuner c t).state = .lost ∧
         (tuner c t).loss = ⟨5000, 5000, true⟩ ∧ (tuner c t).carrier = u.carrier ∧
         (∀ o, let x := session s.core o
           let after := session c o
           u.holders.has (.out o) = true → x.state = .opening ∨ x.state = .checking ∨ x.state = .presenting ∨ x.state = .held →
           after.state = .dark ∧ after.ret = some x.state ∧ after.lcn = x.lcn ∧ after.tuner = x.tuner ∧ after.slot = x.slot ∧
             after.service = x.service ∧ after.change = x.change ∧ after.laneWait = { x.laneWait with running := false } ∧
             after.keyWait = { x.keyWait with running := false })) ∧
     (n ≠ u.count ∨ u.state ≠ .locked → exec (.lossReport t n) s = .next s)) ∧
  (∀ (t : Fin 4) (s : State),
     let u := tuner s.core t
     (u.loss.running = true → exec (.lossTimer t) s = .next { s with
       core := post (.signalLost t u.number u.carrier)
         (setTuner t { u with loss := { u.loss with left := 0, running := false } } s.core) }) ∧
     (u.loss.running = false → exec (.lossTimer t) s = .next s))

/-- The acquisition limit: the tuner goes OFF with an off command and no holder, and every output that held it goes to IDLE. -/
def Obligations.AcquisitionFails : Prop :=
  ∀ (t : Fin 4) (s : State),
    let u := tuner s.core t
    (u.acq.running = true → u.state = .acquiring → noneExtended s.core →
      (u.holders.sweep = true → ∀ v, v ≠ t → (tuner s.core v).holders.sweep = false) →
      ∃ c, exec (.acquisitionLimit t) s = .next { s with core := c } ∧ TunersOnly s.core c ∧
        tuner c t = { u with state := .off, carrier := none, number := none, holders := .none, count := u.count + 1,
                             acq := { u.acq with running := false }, loss := { u.loss with running := false } } ∧
        c.arb.line = s.core.arb.line ++ [⟨t, u.count + 1, none⟩] ∧
        (∀ o, u.holders.has (.out o) = true → session c o = .idle)) ∧
    (u.acq.running = false ∨ u.state ≠ .acquiring → exec (.acquisitionLimit t) s = .next s)

/-- Standby watch, holding no tuner while the installation or the standby condition holds, claims the home carrier: it joins the tuner on it,
takes the lowest-numbered OFF tuner, or is refused, which starts the hold of 30 s in the standby condition; it never preempts. A home carrier that
changes under its claim is claimed anew, and the claim goes with it. When another claimant's tuner is LOCKED it gives its own up, alone on it with
the off command, and the hold stops; stated for an end while no recording runs on past its end. When the hold expires in the standby condition, it
claims again. -/
def Obligations.StandbyWatchClaims : Prop :=
  (∀ c : Core,
     let free := ∀ t, (tuner c t).state = .locked → (tuner c t).holders.put .watch false = .none
     let standby := c.clock.power = .standby ∧ free
     let due := ((c.dir.map = [] ∧ free) ∨ standby) ∧ heldTuner c .watch = none
     let after := watchTest c
     let hold := { c with clock := { c.clock with hold := ⟨30000, 30000, true⟩ } }
     (¬due ∨ c.dir.home = none → after = c) ∧
     (∀ x, due → c.dir.home = some x →
       (∀ t, tunerOn c x = some t → after = setTuner t { tuner c t with holders := (tuner c t).holders.put .watch true } c) ∧
       (∀ t, tunerOn c x = none → (tuner c t).state = .off → (∀ v, v < t → (tuner c v).state ≠ .off) →
         after = setTuner t { tuner c t with
           state := .acquiring, carrier := some x, number := numberOf c x, holders := Holders.none.put .watch true
           acq := ⟨c.arb.acqLimit, c.arb.acqLimit, true⟩, loss := { (tuner c t).loss with running := false }, count := (tuner c t).count + 1 }
           { c with arb := { c.arb with line := c.arb.line ++ [⟨t, (tuner c t).count + 1, some x⟩] } }) ∧
       (tunerOn c x = none → (∀ v, (tuner c v).state ≠ .off) → (standby → after = hold) ∧ (¬standby → after = c))) ∧
     (heldTuner c .watch = none → watchReclaim c = watchTest c) ∧
     (∀ t, heldTuner c .watch = some t → c.dir.home = none → watchReclaim c = release .watch c) ∧
     (∀ t x, heldTuner c .watch = some t → c.dir.home = some x →
       let plan := planClaim c .watch x .host
       (plan ≠ .refused → watchReclaim c = carryOut .watch x plan c) ∧
       (plan = .refused → (standby → watchReclaim c = hold) ∧ (¬standby → watchReclaim c = c)))) ∧
  (∀ c : Core,
     let after := watchEnds c
     let halted := fun c : Core => { c with clock := { c.clock with hold := { c.clock.hold with running := false } } }
     (heldTuner c .watch = none → after = halted c) ∧
     (∀ t, heldTuner c .watch = some t →
       let u := tuner c t
       (u.holders ≠ Holders.none.put .watch true →
         after = halted (setTuner t { u with holders := u.holders.put .watch false } c)) ∧
       (u.holders = Holders.none.put .watch true → noneExtended c →
         TunersOnly c after ∧ after.clock.hold.running = false ∧ after.arb.line = c.arb.line ++ [⟨t, u.count + 1, none⟩] ∧
         tuner after t = { u with state := .off, carrier := none, number := none, holders := .none, acq := { u.acq with running := false }
                                  loss := { u.loss with running := false }, count := u.count + 1 } ∧
         ∀ v, v ≠ t → tuner after v = tuner c v))) ∧
  ∀ s : State,
    let c0 := s.core
    let c1 := { c0 with clock := { c0.clock with hold := { c0.clock.hold with left := 0, running := false } } }
    let asked := c0.clock.hold.running = true ∧ standbyCondition c0 = true ∧ heldTuner c0 .watch = none
    (c0.clock.hold.running = false → exec .standbyWatchHold s = .next s) ∧
    (c0.clock.hold.running = true → standbyCondition c0 = false ∨ (heldTuner c0 .watch).isSome = true →
      exec .standbyWatchHold s = .next { s with core := c1 }) ∧
    (∀ x t, asked → c0.dir.home = some x → tunerOn c0 x = none → (tuner c0 t).state = .off →
      (∀ v, v < t → (tuner c0 v).state ≠ .off) →
      ∃ c, exec .standbyWatchHold s = .next { s with core := c } ∧
        c.arb.line = c0.arb.line ++ [⟨t, (tuner c0 t).count + 1, some x⟩] ∧
        (tuner c t).state = .acquiring ∧ (tuner c t).carrier = some x ∧ (tuner c t).holders = Holders.none.put .watch true ∧
        (tuner c t).acq = ⟨c0.arb.acqLimit, c0.arb.acqLimit, true⟩ ∧ (tuner c t).count = (tuner c0 t).count + 1 ∧
        (∀ v, v ≠ t → tuner c v = tuner c0 v) ∧ c = { c1 with arb := c.arb }) ∧
    (∀ x, asked → c0.dir.home = some x → tunerOn c0 x = none → (∀ v, (tuner c0 v).state ≠ .off) →
      exec .standbyWatchHold s = .next { s with core := { c0 with clock := { c0.clock with hold := ⟨30000, 30000, true⟩ } } })

/-- Cells that are not taken: a tuner that is not LOCKED, filler, or the reserved parity. A media cell reaches the outputs that present its
lane: as it is when it is clear, and deciphered with its slot's key of its parity when that key is present. A slot that handles an
enciphered cell takes its parity; without the key nothing reaches its outputs, a READY or STALE slot goes to MISSING, and the sessions are
re-evaluated, once for the cell (the model's choice, log 57). -/
def Obligations.CellsAreRouted : Prop :=
  (∀ (t : Fin 4) (header : BitVec 32) (payload : List Byte) (reading : TableBody) (s : State),
     (tuner s.core t).state ≠ .locked ∨ (cellHeader header).lane = 0 ∨ (cellHeader header).parity = .reserved →
     exec (.cellArrival t header payload reading) s = .next s) ∧
  (∀ (t : Fin 4) (header : BitVec 32) (payload : List Byte) (reading : TableBody) (s : State),
     let c0 := s.core
     let h := cellHeader header
     let goes := fun o : Output => (session c0 o).state = .presenting ∧ (session c0 o).tuner = some t ∧
       ∃ e, (session c0 o).service = some e ∧ h.lane ∈ e.lanes
     let at' := fun (c : Core) (o : Output) => c.rooms.cells.get (Output.idx o)
     let cell := fun p : List Byte => OutCell.mk h.lane h.unitStart h.count p
     (tuner c0 t).state = .locked → h.lane ≠ 0 → slotOn c0 t h.lane = none →
     (h.parity = .clear → ∃ c, exec (.cellArrival t header payload reading) s = .next { s with core := c } ∧
       (∀ o, goes o → at' c o = at' c0 o ++ [cell payload]) ∧ (∀ o, ¬goes o → at' c o = at' c0 o) ∧
       c = { c0 with rooms := { c0.rooms with cells := c.rooms.cells } }) ∧
     (∀ p, parityKey h.parity = some p →
       let handles := fun k : Fin 4 => ∃ o, goes o ∧ cellSlot c0 o = some k
       let lacks := fun k : Fin 4 => (keySlot c0 k).key p = none
       let cleared := fun k : Fin 4 => (keySlot c0 k).state = .ready ∨ (keySlot c0 k).state = .stale
       ∃ c, c = { c0 with rooms := { c0.rooms with cells := c.rooms.cells }, keys := c.keys } ∧
         ((∀ k, handles k → lacks k → ¬cleared k) → exec (.cellArrival t header payload reading) s = .next { s with core := c }) ∧
         (∀ k, handles k → lacks k → cleared k →
           exec (.cellArrival t header payload reading) s = .next { s with core := reevaluate c }) ∧
         (∀ o k key, goes o → cellSlot c0 o = some k → (keySlot c0 k).key p = some key →
           at' c o = at' c0 o ++ [cell (Config.decipherPayload key payload)]) ∧
         (∀ o, ¬goes o ∨ cellSlot c0 o = none ∨ (∃ k, cellSlot c0 o = some k ∧ lacks k) → at' c o = at' c0 o) ∧
         (∀ k, handles k →
           (¬lacks k ∨ ¬cleared k → keySlot c k = { keySlot c0 k with parity := some p }) ∧
           (lacks k → cleared k → keySlot c k = { keySlot c0 k with parity := some p, state := .missing })) ∧
         (∀ k, ¬handles k → keySlot c k = keySlot c0 k)))

/-- A slot assembles a segment: a unit-start cell begins it in a FREE buffer, the cells of the counts expected continue it, and an enciphered
cell or another count discards it. A segment with all its bytes is handed or waits when its check holds and its kind is the consumer's; else its
buffer is FREE and the slot idle (idle by the model's choice, log 58). A consumer that releases at once takes the handed segment and leaves the
buffer FREE. A waiting segment is handed when its slot has none handed. A kept grant bulletin that passes its tests is released and applied at
the retest. That the reading stored with a complete buffer and handed on is the command's operand (log 3), and that the collector hands it on
before the Key Table clears the cell (log 25), are the model's choices. -/
def Obligations.SegmentsAreHandedOver : Prop :=
  (∀ (x z : Slot) (h : CellHeader) (payload : List Byte) (reading : TableBody) (old : Buffer) (put : Buffer → Slot),
     let after := x.takeCell h payload reading
     let total := (segmentHeader payload).length + 8
     let emptied := fun b : Buffer => if b.state = .filling then Buffer.free else b
     let y : Slot := { x with a := emptied x.a, b := emptied x.b }
     let begins := h.parity = .clear ∧ h.unitStart = true ∧
       (((x.asm = .idle ∨ x.asm = .skipping) ∧ z = x) ∨ ((∃ n k, x.asm = .collecting n k) ∧ z = y))
     let inBuffer := fun (z : Slot) (st : BufferState) =>
       (z.a.state = st ∧ old = z.a ∧ put = fun b => { z with a := b }) ∨
         (z.a.state ≠ st ∧ z.b.state = st ∧ old = z.b ∧ put = fun b => { z with b := b })
     let completes := fun (z : Slot) (bs : List Byte) =>
       let sound := number (bs.drop (bs.length - 2)) = (crc (bs.take (bs.length - 2))).toNat ∧
         ∃ f, z.filter = some f ∧ (segmentHeader bs).kind = f.consumer.tableKind
       let full := fun st : BufferState => Buffer.mk st bs (max z.a.stamp z.b.stamp + 1) (some reading)
       let handed := z.a.state = .handed ∨ z.b.state = .handed
       (sound → handed → after = { put (full .waiting) with asm := .idle }) ∧
       (sound → ¬handed → after = { put (full .handed) with asm := .idle }) ∧ (¬sound → after = { put .free with asm := .idle })
     (h.parity ≠ .clear → after = { y with asm := .skipping }) ∧
     (h.parity = .clear → h.unitStart = false → x.asm = .idle ∨ x.asm = .skipping → after = x) ∧
     (begins → 1024 < total ∨ (z.a.state ≠ .free ∧ z.b.state ≠ .free) → after = { z with asm := .skipping }) ∧
     (begins → inBuffer z .free → 156 < total → total ≤ 1024 →
       after = { put { old with state := .filling, bytes := payload.take total } with asm := .collecting (total - 156) (h.count + 1) }) ∧
     (begins → inBuffer z .free → total ≤ 156 → completes z (payload.take total)) ∧
     (∀ needed next, h.parity = .clear → h.unitStart = false → x.asm = .collecting needed next →
       (h.count ≠ next → after = { y with asm := .skipping }) ∧
       (h.count = next → inBuffer x .filling → 156 < needed →
         after = { put { old with bytes := old.bytes ++ payload.take needed } with asm := .collecting (needed - 156) (h.count + 1) }) ∧
       (h.count = next → inBuffer x .filling → needed ≤ 156 → completes x (old.bytes ++ payload.take needed)))) ∧
  (∀ (t : Fin 4) (header : BitVec 32) (payload : List Byte) (reading : TableBody) (i : Fin 16) (s : State),
     let h := cellHeader header
     let x := slot s.core i
     let after := x.takeCell h payload reading
     let handed := fun x : Slot => x.a.state = .handed ∨ x.b.state = .handed
     (tuner s.core t).state = .locked → h.lane ≠ 0 → h.parity ≠ .reserved → slotOn s.core t h.lane = some i →
     (handed x ∨ ¬handed after →
       (∀ o e, (session s.core o).tuner = some t → (session s.core o).service = some e → h.lane ∉ e.lanes) →
       exec (.cellArrival t header payload reading) s = .next { s with core := setSlot i after s.core }) ∧
     (¬handed x → handed after → exec (.cellArrival t header payload reading) s =
       .next { s with core := clearCell t h payload (handOver 3 i (setSlot i after s.core)) })) ∧
  (∀ (i : Fin 16) (c : Core) (t : Fin 4) (lane : Nat) (k : Consumer),
     let x := slot c i
     let h := segmentHeader x.a.bytes
     let c1 := setSlot i { x with a := .free } c
     x.filter = some ⟨t, lane, k⟩ → x.a.state = .handed → x.b.state ≠ .handed →
     (∀ g cs es, k = .directory → x.a.reading = some (.directory g cs es) → takeHanded i c = (takeDirectory h g cs es c1, false)) ∧
     (∀ n z, k = .time → x.a.reading = some (.time n z) → takeHanded i c = (takeTime n z c1, false)) ∧
     (∀ es, k = .laneMap → x.a.reading = some (.laneMap es) → takeHanded i c = (takeLaneMap t h es c1, false)) ∧
     (∀ es, k = .presentNext → x.a.reading = some (.presentNext es) → takeHanded i c = (takePresentNext t es c1, false)) ∧
     (∀ rs, k = .schedule → x.a.reading = some (.schedule rs) → takeHanded i c = (takeSchedule h rs c1, false))) ∧
  (∀ (i : Fin 16) (s : State),
     let x := slot s.core i
     (∀ t lane b g k, x.filter = some ⟨t, lane, .keys⟩ → x.a = b → b.state = .waiting → b.reading = some (.keys g) → x.b = .free →
       keySlotAt s.core t lane = some k →
       exec (.bufferHandOver i) s = .next { s with core := takeKeys k g (setSlot i { x with a := .free } s.core) }) ∧
     ((x.a.state = .handed ∨ x.b.state = .handed) ∨ (x.a.state ≠ .waiting ∧ x.b.state ≠ .waiting) →
       exec (.bufferHandOver i) s = .next s)) ∧
  (∀ s : State,
     ((∀ i, (slot s.core i).feeds .grants = false ∨ (slot s.core i).hasHanded = false) →
       exec .keptBulletinRetest s = .next s) ∧
     (∀ (i : Fin 16) (t : Fin 4) (lane : Nat) (b : Buffer) (g : GrantBulletin),
       (slot s.core i) = { filter := some ⟨t, lane, .grants⟩, a := b, b := .free, asm := .idle } → b.state = .handed →
       b.reading = some (.grants g) → (∀ j, j ≠ i → (slot s.core j).feeds .grants = false) →
       (judgeBulletin g s.core = .kept → exec .keptBulletinRetest s = .next s) ∧
       (judgeBulletin g s.core = .released → exec .keptBulletinRetest s = .next { s with
         core := setSlot i { slot s.core i with a := .free } s.core }) ∧
       (∀ k, judgeBulletin g s.core = .applied k → exec .keptBulletinRetest s = .next { s with
         core := applyBulletin k g (setSlot i { slot s.core i with a := .free } s.core) })))

/-! ## Rooms and channel changes -/

/-- SELECT CHANNEL is refused by the first check that fails. -/
def Obligations.SelectionIsRefused : Prop :=
  ∀ (tag : Byte) (a : SelectReq) (s : State), Handled (.selectChannel tag (some a)) s →
    let c := s.core
    let answers := fun code => Replies (.selectChannel tag (some a)) tag code .none c s
    let formed := a.output ≤ 3 ∧ 1 ≤ a.lcn ∧ a.lcn ≤ 9999
    (¬formed → answers .badRequest) ∧
    (formed → findChannel c a.lcn = none → answers .noSuch) ∧
    (formed → (findChannel c a.lcn).isSome = true → a.output ≤ 1 → c.clock.power = .standby → answers .standby) ∧
    (∀ o id, formed → (findChannel c a.lcn).isSome = true → (a.output, o) ∈ [(2, Output.record1), (3, .record2)] →
      (session c o).origin = .booking id → answers .booked)

/-- A claim keeps or joins the tuner that is on its carrier, else takes the lowest-numbered OFF tuner, else retunes the tuner it alone holds,
else takes the lowest-numbered tuner of the first class it may take, else is refused. Carried out, a join or a tune command makes the claimant
a holder, and the tuner it held before is released, going OFF when no holder is left; a tuner that leaves its carrier closes its filters, loses
its lane map, takes the markers of its carrier with it and is told to standby watch. Each holder that a preemption removes is told TUNER_TAKEN,
after the tune command (the model's reading, log 51) and in the model's order (log 66): a session is HELD with it, the sweep ends, standby
watch holds. The order of the session's fields and the releases is the model's choice (log 14), and a report that stands before what the
release sets off (log 38). An accepted selection with no change in flight, of a channel whose carrier is on no tuner while the output holds
none: the lowest-numbered OFF tuner is tuned to it and the session waits in TUNING; with every tuner in use by claimants it may not take, the
change ends NO_TUNER, whose notice carries the LCN selected (the model's choice, log 70). A selection on a room ends its unlock grant, with no
re-evaluation where the session stays (the model's reading, log 48). A selection over a change in flight, or of a carrier on a tuner, is covered
by the claim's plan and what carrying it out does. -/
def Obligations.SelectionStartsChange : Prop :=
  (∀ (x : Claimant) (car : Carrier) (m : ClaimMode) (c : Core),
     let held := fun t : Fin 4 => (tuner c t).holders
     let plan := planClaim c x car m
     let background := fun h : Holders => decide ((h.sweep = true ∨ h.watch = true) ∧
       h.roomA = false ∧ h.roomB = false ∧ h.record1 = false ∧ h.record2 = false)
     let rooms := [fun h : Holders => decide (h = Holders.none.put (.out .roomB) true), fun h => decide (h = Holders.none.put (.out .roomA) true),
       fun h => decide (h = (Holders.none.put (.out .roomA) true).put (.out .roomB) true)]
     let records := x = .out .record1 ∨ x = .out .record2
     let classes := fun l : List (Holders → Bool) =>
       ((records ∧ m = .booking true) ∧ l = background :: rooms) ∨
       (((records ∧ m ≠ .booking true) ∨ x = .out .roomA ∨ x = .out .roomB) ∧ l = [background]) ∨
       ((x = .sweep ∨ x = .watch) ∧ l = [])
     (∀ t, tunerOn c car = some t → plan = if (held t).has x = true then .keep t else .join t) ∧
     (tunerOn c car = none →
       (∀ t, (tuner c t).state = .off → (∀ v, v < t → (tuner c v).state ≠ .off) → plan = .take t) ∧
       ((∀ v, (tuner c v).state ≠ .off) →
         (∀ t, held t = Holders.none.put x true → (∀ v, v < t → held v ≠ Holders.none.put x true) → plan = .retune t) ∧
         (∀ l, classes l → (∀ v, held v ≠ Holders.none.put x true) →
           (∀ before p after t, l = before ++ p :: after → (∀ q ∈ before, ∀ v, q (held v) = false) →
             p (held t) = true → (∀ v, v < t → p (held v) = false) → plan = .preempt t) ∧
           ((∀ p ∈ l, ∀ v, p (held v) = false) → plan = .refused))))) ∧
  (∀ (x : Claimant) (car : Carrier) (t : Fin 4) (c : Core),
     let u := tuner c t
     let old := heldTuner c x
     let quit := fun (t : Fin 4) (u : Tuner) (d : Core) =>
       let d := setLaneMap t .empty (settleControl (closeTunerSlots t d))
       let d := if u.state = .locked ∨ u.state = .lost then carrierUnlocked stopSession u.carrier d else d
       if u.state = .locked ∧ u.holders.hasOther = true then watchTest d else d
     let tuned := setTuner t { u with
         state := .acquiring, carrier := some car, number := numberOf c car, holders := Holders.none.put x true
         acq := ⟨c.arb.acqLimit, c.arb.acqLimit, true⟩, loss := { u.loss with running := false }, count := u.count + 1 }
       { c with arb := { c.arb with line := c.arb.line ++ [⟨t, u.count + 1, some car⟩] } }
     let joined := setTuner t { u with holders := u.holders.put x true } c
     let leave := fun d : Core => match old with
       | none => d
       | some v =>
         let w := tuner d v
         if v = t then d
         else if w.holders = Holders.none.put x true then
           quit v w (setTuner v { w with
               state := .off, carrier := none, number := none, holders := .none, acq := { w.acq with running := false }
               loss := { w.loss with running := false }, count := w.count + 1 }
             { d with arb := { d.arb with line := d.arb.line ++ [⟨v, w.count + 1, none⟩] } })
         else setTuner v { w with holders := w.holders.put x false } d
     let removed := [Claimant.out .roomA, .out .roomB, .out .record1, .out .record2, .sweep, .watch].filter u.holders.has
     carryOut x car (.keep t) c = c ∧ carryOut x car .refused c = c ∧
     (carryOut x car (.join t) c =
       let d := leave joined
       if x ≠ .watch ∧ (tuner d t).state = .locked ∧ (tuner d t).holders.watch = true then watchEnds d else d) ∧
     carryOut x car (.take t) c = leave tuned ∧ carryOut x car (.retune t) c = quit t u tuned ∧
     carryOut x car (.preempt t) c = leave (quit t u (removed.foldl tellTaken tuned))) ∧
  (∀ (o : Output) (c : Core),
     let x := session c o
     let taken := { Reasons.none with tunerTaken := true }
     let gone := setSession o { x with
       state := .held, reasons := taken, tuner := none, service := none, slot := none, event := none, ret := none, change := .absent
       laneWait := { x.laneWait with running := false }, keyWait := { x.keyWait with running := false } } (unbindKey o c)
     tellTaken c .sweep = endSweep c ∧ tellTaken c .watch = startHold c ∧
     (heldTuner c (.out o) = none → tellTaken c (.out o) =
       if x.change = .absent then post (.sessionState o .held taken x.lcn none) gone
       else
         let told := post (.changeDone o x.change.host .held x.lcn (some taken)) gone
         match x.origin with
         | .host => told
         | .booking id => bookingOutcome id .held told)) ∧
  ∀ (tag : Byte) (n lcn : Nat) (o : Output) (e : ChannelEntry) (x : Carrier) (s : State),
    let i := Instr.selectChannel tag (some ⟨n, lcn⟩)
    let c0 := s.core
    Handled i s → (n, o) ∈ [(0, Output.roomA), (1, .roomB), (2, .record1), (3, .record2)] → 1 ≤ lcn → lcn ≤ 9999 →
    findChannel c0 lcn = some e → resolve c0 e.carrierNo = some x → c0.clock.power = .active → (session c0 o).origin = .host →
    (session c0 o).change = .absent → tunerOn c0 x = none → heldTuner c0 (.out o) = none →
    (∀ t, (tuner c0 t).state = .off → (∀ v, v < t → (tuner c0 v).state ≠ .off) →
      ∃ c, Replies i tag .accepted .none c s ∧
        (session c o) = { session c0 o with
          state := .tuning, lcn := some lcn, carrier := some x, tuner := some t, service := none, change := .tag tag,
          origin := .host, reasons := .none, event := none, ret := none,
          laneWait := { (session c0 o).laneWait with running := false },
          keyWait := { (session c0 o).keyWait with running := false } } ∧
        tuner c t = { tuner c0 t with
          state := .acquiring, carrier := some x, number := numberOf c0 x, holders := Holders.none.put (.out o) true,
          acq := ⟨c0.arb.acqLimit, c0.arb.acqLimit, true⟩, loss := { (tuner c0 t).loss with running := false },
          count := (tuner c0 t).count + 1 } ∧
        c.arb.line = c0.arb.line ++ [⟨t, (tuner c0 t).count + 1, some x⟩] ∧ (∀ v, v ≠ t → tuner c v = tuner c0 v) ∧
        (∀ p, p ≠ o → session c p = session c0 p) ∧
        (∀ r, context c r = if Room.output r = o then { context c0 r with grant := none } else context c0 r) ∧
        c = { c0 with arb := c.arb, rooms := c.rooms }) ∧
    ((∀ t, (tuner c0 t).state ≠ .off ∧ (tuner c0 t).holders.background = false) →
      ∃ c, Replies i tag .accepted .none c s ∧
        c = post (.changeDone o (some tag) .noTuner (some lcn) none) { c0 with rooms := { c0.rooms with contexts := c.rooms.contexts } } ∧
        (∀ r, context c r = if Room.output r = o then { context c0 r with grant := none } else context c0 r))

/-- STOP OUTPUT: BOOKED for an output a booking holds, else OK with the session IDLE; STOPPED or SESSION_STATE is posted at once
when the output holds no tuner. -/
def Obligations.OutputIsStopped : Prop :=
  ∀ (tag : Byte) (n : Nat) (s : State),
    let i := Instr.stopOutput tag (some n)
    let c0 := s.core
    Handled i s →
    (3 < n → Replies i tag .badRequest .none c0 s) ∧
    (∀ o id, (n, o) ∈ [(2, Output.record1), (3, .record2)] → (session c0 o).origin = .booking id →
      Replies i tag .booked .none c0 s) ∧
    (∀ o, (n, o) ∈ [(0, Output.roomA), (1, .roomB), (2, .record1), (3, .record2)] →
      (n ≤ 1 ∨ (session c0 o).origin = .host) → noneExtended c0 →
      ∃ c, Replies i tag .ok .none c s ∧ session c o = .idle ∧ TunersOnly c0 c ∧
        (heldTuner c0 (.out o) = none → (session c0 o).slot = none →
          c = if (session c0 o).change ≠ .absent then
              post (.changeDone o (ChangeTag.host (session c0 o).change) .stopped (session c0 o).lcn none) (setSession o .idle c0)
            else if (session c0 o).state ≠ .idle then
              post (.sessionState o .idle .none none none) (setSession o .idle c0)
            else setSession o .idle c0))

/-- A lane map takes a segment: nothing of the complete version or of numbers out of range; an entry is dropped, replaced, added, or finds 64
held; a version with every number becomes complete, and the entries of other versions go. A session whose entry goes waits in OPENING, its
service field kept (the model's reading, log 39) and its present event id cleared (the model's reading, log 47), and one whose entry is
replaced takes it. The lane-map wait's expiry ends OPENING in HELD with NO_SERVICE; the key wait's ends CHECKING in HELD with NO_KEY. -/
def Obligations.SessionWaitsEnd : Prop :=
  (∀ (t : Fin 4) (version : Nat) (e : LaneEntry) (c : Core),
     let m := laneMap c t
     let after := laneMap (takeLaneEntry t version c e) t
     let e' := { e with version := version }
     let bad := fun n : Nat => (1 ≤ n ∧ n ≤ 5) ∨ n = 16
     let taken := e.service ≠ 0 ∧ e.lanes ≠ [] ∧ (∀ n ∈ e.lanes, n ≠ 0 ∧ ¬bad n) ∧ ¬bad e.keyLane
     (¬taken → takeLaneEntry t version c e = c) ∧
     (taken → (∃ x ∈ m.entries, x.service = e.service) →
       after = { m with entries := m.entries.map fun x => if x.service = e.service then e' else x }) ∧
     (taken → (∀ x ∈ m.entries, x.service ≠ e.service) →
       (m.entries.length < 64 → after = { m with entries := insertBy (fun a b => a.service < b.service) e' m.entries }) ∧
       (64 ≤ m.entries.length → takeLaneEntry t version c e = c))) ∧
  (∀ (t : Fin 4) (h : SegmentHeader) (entries : List LaneEntry) (c : Core),
     let m := laneMap c t
     let begun := if m.working = some h.version then m else { m with working := some h.version, seen := [] }
     let read := entries.foldl (takeLaneEntry t h.version) (setLaneMap t begun c)
     let m' := laneMap read t
     let seen := if h.number ∈ begun.seen then begun.seen else h.number :: begun.seen
     let after := laneMap (takeLaneMap t h entries c) t
     let all := ∀ n, n ≤ h.last → n ∈ seen
     (m.complete = some h.version ∨ 8 ≤ h.last ∨ h.last < h.number → takeLaneMap t h entries c = c) ∧
     (m.complete ≠ some h.version → h.last < 8 → h.number ≤ h.last →
       (¬all → takeLaneMap t h entries c = setLaneMap t { m' with seen := seen } read) ∧
       (all → after = { entries := m'.entries.filter (·.version == h.version), complete := some h.version, working := none, seen := seen }))) ∧
  (∀ (t : Fin 4) (e : LaneEntry) (c : Core) (o : Output),
     let x := session c o
     let on := x.tuner = some t ∧ (x.state = .checking ∨ x.state = .presenting ∨ (x.state = .held ∧ x.reasons.terminal = false)) ∧
       ∃ f, x.service = some f ∧ f.service = e.service
     let opened := setSession o { x with
       state := .opening, reasons := .none, event := none, ret := none, laneWait := ⟨2000, 2000, true⟩
       keyWait := { x.keyWait with running := false } } c
     (on → laneEntryRemoved t e.service c o =
       if x.change = .absent then post (.sessionState o .opening .none x.lcn none) opened else opened) ∧
     (¬on → laneEntryRemoved t e.service c o = c) ∧
     (∀ f, on → x.service = some f → f.keyLane = e.keyLane → laneEntryChanged t e c o = setSession o { x with service := some e } c) ∧
     (∀ f, on → x.service = some f → f.keyLane ≠ e.keyLane →
       laneEntryChanged t e c o = reevaluate (bindService o e (setSession o { x with service := some e } c))) ∧
     (x.tuner = some t → x.state = .opening → (∃ l y, x.lcn = some l ∧ findChannel c l = some y ∧ y.service = e.service) →
       laneEntryChanged t e c o = enterChecking o e c)) ∧
  ∀ (o : Output) (s : State),
    let c0 := s.core
    let x := session c0 o
    (x.laneWait.running = false → exec (.laneMapWait o) s = .next s) ∧
    (x.laneWait.running = true → x.state = .opening → noneExtended c0 →
      ∃ c, exec (.laneMapWait o) s = .next { s with core := c } ∧ TunersOnly c0 c ∧
        session c o = { x with
          state := .held, reasons := { Reasons.none with noService := true }, tuner := none, service := none, slot := none,
          event := none, ret := none, change := .absent, laneWait := { x.laneWait with left := 0, running := false },
          keyWait := { x.keyWait with running := false } }) ∧
    (x.keyWait.running = false → exec (.keyWait o) s = .next s) ∧
    (x.keyWait.running = true → x.state = .checking →
      ∃ c, exec (.keyWait o) s = .next { s with core := c } ∧ SessionsOnly c0 c ∧
        session c o = { x with
          state := .held, reasons := { Reasons.none with noKey := true }, ret := none, change := .absent,
          keyWait := { x.keyWait with left := 0, running := false } })

/-- The entry into CHECKING takes the lane-map entry, binds or unbinds the key slot, takes the present event, and goes on by the verdict set
computed then: to HELD, to PRESENTING with a key at hand, or to wait 2500 ms for a WAITING slot; the states passed through are not posted (the
model's choice, log 13). A room session that comes to hold NO_GRANT posts PURCHASE_OFFER for a priced event that can be bought. A directory's
change report, session by session: VANISHED holds it with NO_SERVICE (its own report before what the release sets off, the model's reading,
log 38), MOVED claims the new carrier as the host would (the model's reading, log 24), RENUMBERED looks its service up anew (in OPENING too, the
model's reading, log 34, with the event id cleared, log 47).
Re-evaluation takes the sessions in the order of the outputs. Of one session: CHECKING goes to HELD with a set that is not empty, where a
WAITING slot counts as NO_KEY, to PRESENTING with an empty set and a key at hand, and waits on for a WAITING slot; PRESENTING and HELD
follow the verdict set computed anew, DARK keeps it for the return of signal, and a session before CHECKING or HELD for good is not
touched. -/
def Obligations.SessionsFollowVerdictsAndReports : Prop :=
  (∀ (o : Output) (e : LaneEntry) (c : Core),
     let x := session c o
     let taken := setSession o { x with state := .checking, service := some e, laneWait := { x.laneWait with running := false }, reasons := .none, ret := none } c
     let bound := bindService o e taken
     let y := session bound o
     let event := (x.lcn.bind (presentEvent bound)).map (·.event)
     let entered := setSession o { y with event := event } bound
     let v := verdictSet entered o
     let after := enterChecking o e c
     let keyState := fun st : KeyState => ∃ k, y.slot = some k ∧ (keySlot bound k).state = st
     let clear := e.keyLane = 0 ∨ keyState .ready ∨ keyState .stale
     let told := fun (st : SessionState) (r : Reasons) (outcome : ChangeOutcome) (rs : Option Reasons) (c : Core) =>
       if x.change = .absent then post (.sessionState o st r x.lcn event) c
       else
         let c := post (.changeDone o x.change.host outcome x.lcn rs) c
         match x.origin with
         | .host => c
         | .booking id => bookingOutcome id outcome c
     let arrived := fun (st : SessionState) (r : Reasons) => setSession o { y with
       state := st, event := event, reasons := r, ret := none, change := .absent, keyWait := { y.keyWait with running := false } } bound
     (e.keyLane = 0 → bound = unbindKey o taken) ∧
     (∀ car t, e.keyLane ≠ 0 → x.carrier = some car → x.tuner = some t → bound = bindKey o car e.keyLane t taken) ∧
     (∀ r, v ≠ .none → (keyState .waiting ∧ e.keyLane ≠ 0 ∧ r = { v with noKey := true }) ∨ (¬(keyState .waiting ∧ e.keyLane ≠ 0) ∧ r = v) →
       let held := told .held r .held (some r) (arrived .held r)
       after = if r.noGrant = true then purchaseOffer o held else held) ∧
     (v = .none → clear → after = told .presenting .none .presenting none (arrived .presenting .none)) ∧
     (v = .none → ¬clear →
       let waits := setSession o { y with event := event, keyWait := ⟨2500, 2500, true⟩ } bound
       after = if x.change = .absent then post (.sessionState o .checking .none x.lcn event) waits else waits)) ∧
  (∀ (o : Output) (c : Core),
     let x := session c o
     let offers := fun (r : Room) (lcn ev price : Nat) (rec : EventRecord) =>
       (o, r) ∈ [(Output.roomA, Room.a), (.roomB, .b)] ∧ x.lcn = some lcn ∧ x.event = some ev ∧
       (∃ e, findChannel c lcn = some e ∧ e.kind = .eventPaid) ∧ findRecord c lcn ev = some rec ∧ rec.price = some price ∧
       (∃ f, c.access.issue = .locked f) ∧ c.access.cut = false ∧
       (∀ f, c.purchase.inFlight = some f → f.lcn = lcn → f.event ≠ ev) ∧ (∀ y ∈ c.purchase.log, y.lcn = lcn → y.event ≠ ev)
     (∀ r lcn ev price rec, offers r lcn ev price rec →
       purchaseOffer o c = post (.purchaseOffer r lcn ev price (rec.start + rec.duration * 60)) c) ∧
     ((∀ r lcn ev price rec, ¬offers r lcn ev price rec) → purchaseOffer o c = c)) ∧
  (∀ (cls : Nat → ChangeClass × Option Carrier × Option Carrier) (o : Output) (l : Nat) (c : Core),
     let x := session c o
     let after := reportSession cls c o
     let reached := x.lcn = some l ∧ x.state ≠ .idle ∧ ¬(x.state = .held ∧ x.reasons.terminal = true)
     let told := fun (tag : ChangeTag) (outcome : ChangeOutcome) (c : Core) =>
       let c := post (.changeDone o tag.host outcome (some l) none) c
       match x.origin with
       | .host => c
       | .booking id => bookingOutcome id outcome c
     let waiting := { x with
       state := .opening, reasons := .none, event := none, ret := none, laneWait := ⟨2000, 2000, true⟩
       keyWait := { x.keyWait with running := false } }
     reportToSessions cls c = reevaluate ([Output.roomA, .roomB, .record1, .record2].foldl (reportSession cls) c) ∧
     (x.lcn = none ∨ x.state = .idle ∨ (x.state = .held ∧ x.reasons.terminal = true) → after = c) ∧
     (reached → (cls l).1 = .altered ∨ (cls l).1 = .added ∨ (cls l).1 = .unchanged → after = c) ∧
     (reached → (cls l).1 = .vanished →
       let lost := { Reasons.none with noService := true }
       let gone := unbindKey o c
       let held := setSession o { session gone o with
         state := .held, reasons := lost, tuner := none, service := none, event := none, ret := none, change := .absent
         laneWait := { x.laneWait with running := false }, keyWait := { x.keyWait with running := false } } gone
       after = release (.out o) (if x.change = .absent then post (.sessionState o .held lost x.lcn none) held else told x.change .noService held)) ∧
     (∀ a b, reached → cls l = (.moved, some a, some b) →
       let posted := post (.channelMoved o l (some a) (some b)) c
       let tag := if x.change = .absent then .untagged else x.change
       let plan := planClaim posted (.out o) b .host
       let begun := fun (st : SessionState) (t : Fin 4) (ret : Option SessionState) (wait : Timer) => setSession o { x with
         state := st, lcn := some l, carrier := some b, tuner := some t, service := none, change := tag, reasons := .none, event := none
         ret := ret, laneWait := wait, keyWait := { x.keyWait with running := false } } posted
       let stopped := { x.laneWait with running := false }
       (plan = .refused → after = told tag .noTuner (release (.out o) (setSession o .idle (unbindKey o posted)))) ∧
       (∀ t, plan = .take t ∨ plan = .retune t ∨ plan = .preempt t → after = carryOut (.out o) b plan (begun .tuning t none stopped)) ∧
       (∀ t, plan = .keep t ∨ plan = .join t →
         ((tuner c t).state = .acquiring → after = carryOut (.out o) b plan (begun .tuning t none stopped)) ∧
         ((tuner c t).state = .lost → after = carryOut (.out o) b plan (begun .dark t (some .opening) stopped)) ∧
         ((tuner c t).state = .locked → after = tryChecking o x (carryOut (.out o) b plan (begun .opening t none ⟨2000, 2000, true⟩))))) ∧
     (reached → (cls l).1 = .renumbered →
       (x.state = .tuning → after = c) ∧
       (x.state = .dark → after = setSession o { x with ret := some .opening } c) ∧
       (x.state = .opening → laneEntry c x = none → after = c) ∧
       (∀ e, x.state = .opening → laneEntry c x = some e → after = enterChecking o e c) ∧
       (x.state = .checking ∨ x.state = .presenting ∨ x.state = .held →
         (laneEntry c x = none → after =
           if x.change = .absent then post (.sessionState o .opening .none x.lcn none) (setSession o waiting c) else setSession o waiting c) ∧
         (∀ e, laneEntry c x = some e → after = enterChecking o e (setSession o waiting c))))) ∧
  ∀ (o : Output) (c : Core),
    let x := session c o
    let v := verdictSet c o
    let after := session (reevalOne c o) o
    let keyState := fun st : KeyState => ∃ e k, x.service = some e ∧ e.keyLane ≠ 0 ∧ x.slot = some k ∧ (keySlot c k).state = st
    let clear := (∃ e, x.service = some e ∧ e.keyLane = 0) ∨ keyState .ready ∨ keyState .stale
    SessionsOnly c (reevalOne c o) ∧
    reevaluate c = reevalOne (reevalOne (reevalOne (reevalOne c .roomA) .roomB) .record1) .record2 ∧
    (x.state = .checking → v ≠ .none → after.state = .held ∧ after.change = .absent ∧ after.keyWait = { x.keyWait with running := false } ∧
      (keyState .waiting → after.reasons = { v with noKey := true }) ∧ (¬keyState .waiting → after.reasons = v)) ∧
    (x.state = .checking → v = .none → clear → after.state = .presenting ∧ after.reasons = .none ∧ after.change = .absent ∧
      after.keyWait = { x.keyWait with running := false }) ∧
    (x.state = .checking → v = .none → ¬clear → reevalOne c o = c) ∧
    (x.state = .presenting → v = .none → reevalOne c o = c) ∧
    (x.state = .presenting → v ≠ .none → after.state = .held ∧ after.reasons = v ∧ after.change = .absent) ∧
    (x.state = .held → x.reasons.terminal = false → v = .none → after.state = .presenting ∧ after.reasons = .none) ∧
    (x.state = .held → x.reasons.terminal = false → v ≠ .none → after.state = .held ∧ after.reasons = v) ∧
    (x.state = .dark → reevalOne c o = setSession o { x with reasons := v } c) ∧
    (x.state = .idle ∨ x.state = .tuning ∨ x.state = .opening ∨ (x.state = .held ∧ x.reasons.terminal = true) → reevalOne c o = c)

/-! ## Keys and grants -/

/-- A bind request keeps the session's slot of its pair, joins the slot in use that holds the pair, reuses the session's old slot when no other
session is bound to it, or takes the lowest-numbered EMPTY slot; the key filter is opened when the slot has none, and the old slot is given up
last. A slot given up loses a reference, and with the last one its filter is closed and it is EMPTY; a tuner's filters close under the slots.
What a key bulletin does to a slot that is in use: nothing when it is malformed, or repeats the period in force; DENIED with its keys gone
when its criterion is not met; else its keys are deciphered, and it is READY when it holds the key of its parity. The key-life timer's
expiry posts KEY_STALE, and a READY slot goes STALE, which re-evaluates the sessions. -/
def Obligations.KeysAreTakenAndGoStale : Prop :=
  (∀ (o : Output) (x : Carrier) (lane : Nat) (t : Fin 4) (c : Core),
     let old := (session c o).slot
     let pair := fun k : Fin 4 => (keySlot c k).state ≠ .empty ∧ (keySlot c k).carrier = some x ∧ (keySlot c k).keyLane = some lane
     let fresh : KeySlot := { carrier := some x, keyLane := some lane, refs := 1, state := .waiting, even := none, odd := none
                              parity := none, period := none, life := .stopped, filter := none }
     let filtered := fun (k : Fin 4) (c : Core) =>
       if (keySlot c k).filter = none ∧ 5 < lane ∧ lane ≠ 16 ∧ slotOn c t lane = none then
         setKeySlot k { keySlot c k with filter := some t } (openFilter ⟨t, lane, .keys⟩ c)
       else c
     let bound := fun (k : Fin 4) (y : KeySlot) =>
       filtered k (setSession o { session c o with slot := some k } (setKeySlot k y c))
     let after := bindKey o x lane t c
     (∀ k, pair k → (∀ v, v < k → ¬pair v) →
       let more := { keySlot c k with refs := (keySlot c k).refs + 1 }
       (old = some k → after = filtered k c) ∧ (old = none → after = bound k more) ∧
       (∀ q, old = some q → q ≠ k → after = dropRef q (bound k more))) ∧
     ((∀ k, ¬pair k) →
       (∀ q, old = some q → (keySlot c q).refs ≤ 1 → after = filtered q (setKeySlot q fresh (closeKeyFilter q c))) ∧
       (∀ e, (keySlot c e).state = .empty → (∀ v, v < e → (keySlot c v).state ≠ .empty) →
         (old = none → after = bound e fresh) ∧
         (∀ q, old = some q → 2 ≤ (keySlot c q).refs → after = dropRef q (bound e fresh))))) ∧
  (∀ (k : Fin 4) (c : Core),
     let x := keySlot c k
     let d := closeKeyFilter k c
     (x.refs ≤ 1 → dropRef k c = setKeySlot k .empty d) ∧ (2 ≤ x.refs → dropRef k c = setKeySlot k { x with refs := x.refs - 1 } c) ∧
     (x.filter = none → d = c) ∧
     (∀ t lane, x.filter = some t → x.keyLane = some lane →
       d = { c with keys := d.keys, slots := d.slots } ∧ keySlot d k = { x with filter := none } ∧
       (∀ v, v ≠ k → keySlot d v = keySlot c v) ∧
       (∀ n, slot d n = if (slot c n).filter = some ⟨t, lane, .keys⟩ then .closed else slot c n))) ∧
  (∀ (o : Output) (c : Core),
     let x := session c o
     (x.slot = none → unbindKey o c = c) ∧
     (∀ k, x.slot = some k → unbindKey o c = setSession o { x with slot := none } (dropRef k c))) ∧
  (∀ (t : Fin 4) (c : Core),
     let d := closeTunerSlots t c
     d = { c with keys := d.keys, slots := d.slots } ∧
     (∀ n, slot d n = if (∃ f, (slot c n).filter = some f ∧ f.tuner = t) then .closed else slot c n) ∧
     (∀ k, keySlot d k = if (keySlot c k).filter = some t then { keySlot c k with filter := none } else keySlot c k)) ∧
  (∀ (k : Fin 4) (b : KeyBulletin) (lane : Nat) (c : Core),
     let x := keySlot c k
     let after := keySlot (takeKeys k b c) k
     let plain := fun key : Key => Config.decipherKey (systemKey c) key
     let even := match b.even with | some e => some (plain e) | none => x.even
     let odd := match b.odd with | some e => some (plain e) | none => x.odd
     x.keyLane = some lane →
     (KeyBulletin.formed b lane = false → takeKeys k b c = c) ∧
     (KeyBulletin.formed b lane = true → criterionMet c k b.criterion = false → x.state ≠ .denied →
       after = { x with even := none, odd := none, period := none, life := { x.life with running := false }, state := .denied }) ∧
     (KeyBulletin.formed b lane = true → criterionMet c k b.criterion = true → x.period = some b.period → takeKeys k b c = c) ∧
     (KeyBulletin.formed b lane = true → criterionMet c k b.criterion = true → x.period ≠ some b.period →
       after = { x with
         even := even, odd := odd, period := some b.period, life := ⟨30000, 30000, true⟩
         state := match x.parity with
           | none => .ready
           | some .even => if even.isSome then .ready else .missing
           | some .odd => if odd.isSome then .ready else .missing }) ∧
     SessionsOnly { c with keys := (takeKeys k b c).keys } (takeKeys k b c)) ∧
  (∀ (k : Fin 4) (s : State),
     let x := keySlot s.core k
     let c1 := fun st : KeyState => setKeySlot k { x with life := { x.life with left := 0, running := false }, state := st }
       (post (.keyStale k x.carrier x.keyLane x.period) s.core)
     (x.life.running = false → exec (.keyLife k) s = .next s) ∧
     (x.life.running = true → x.state = .ready → exec (.keyLife k) s = .next { s with core := reevaluate (c1 .stale) }) ∧
     (x.life.running = true → x.state ≠ .ready → exec (.keyLife k) s = .next { s with core := c1 x.state }))

/-- ISSUE and LOCK ISSUE: their refusals, and the issue-area writes they begin. -/
def Obligations.IssueRecordIsWritten : Prop :=
  ∀ (tag : Byte) (s : State),
    let c := s.core
    let writes := fun (i : Instr) (w : IssueWrite) => exec i s = .next { withHead i s with
      core := { c with access := { c.access with issueWrite := some w } } }
    (∀ a : IssueReq, Handled (.issue tag (some a)) s →
      let formed := 1 ≤ a.address ∧ a.address ≤ 0xFFFFFFFF ∧ a.groups.length ≤ 4 ∧ (∀ g ∈ a.groups, 1 ≤ g ∧ g ≤ 65535) ∧
        a.groups.Nodup ∧ a.key.length = 16
      (¬formed → Replies (.issue tag (some a)) tag .badRequest .none c s) ∧
      (∀ f, formed → c.access.issue = .locked f → Replies (.issue tag (some a)) tag .issueLocked .none c s) ∧
      (formed → (∀ f, c.access.issue ≠ .locked f) →
        writes (.issue tag (some a)) (.issue ⟨a.address, a.groups, BitVec.ofNat 128 (number a.key)⟩))) ∧
    (Handled (.lockIssue tag (some ())) s →
      (c.access.issue = .blank → Replies (.lockIssue tag (some ())) tag .notIssued .none c s) ∧
      (∀ f, c.access.issue = .locked f → Replies (.lockIssue tag (some ())) tag .issueLocked .none c s) ∧
      (∀ f, c.access.issue = .written f → writes (.lockIssue tag (some ())) .lockFlag))

/-- The end of an issue-area write answers the request that waits for it: a verified ISSUE leaves the record written and a failed
one blank; a verified LOCK ISSUE locks it with no last bulletin number, and a failed one leaves it written. An end with no issue-area write
in progress changes nothing (the model's reading, log 1). -/
def Obligations.IssueWriteEnds : Prop :=
  ∀ (tag : Byte) (s : State),
    let c := s.core
    let leaves := fun (i : Instr) (code : Code) (x : Issue) (last : Vector (Option Seq) 5) =>
      ∃ c', exec i s = .next (replied (.reply tag code .none) c' s) ∧
        c'.access = { c.access with issue := x, issueWrite := none, last := last } ∧ SessionsOnly { c with access := c'.access } c'
    (∀ f a, c.access.issueWrite = some (.issue f) → s.front.intake.head? = some (.issue tag a) →
      leaves (.issueWriteDone true) .ok (.written f) c.access.last ∧
        leaves (.issueWriteDone false) .storeFault .blank c.access.last) ∧
    (∀ f a, c.access.issueWrite = some .lockFlag → c.access.issue = .written f → s.front.intake.head? = some (.lockIssue tag a) →
      leaves (.lockIssueWriteDone true) .ok (.locked f) (Vector.replicate 5 none) ∧
        leaves (.lockIssueWriteDone false) .storeFault (.written f) c.access.last) ∧
    (c.access.issueWrite = none → (∀ ok, exec (.issueWriteDone ok) s = .next s ∧ exec (.lockIssueWriteDone ok) s = .next s))

/-- The limit verdict of a room: RATING by the rating in force over the ceiling and CHANNEL_LOCKED by the lock list, each but for an unlock grant
that covers the channel and event; WINDOW outside the profile's windows and while the clock is UNSET; ALLOWANCE when it is spent. The access
verdict by the channel's kind. -/
def Obligations.AccessAndLimitVerdicts : Prop :=
  (∀ (c : Core) (r : Room) (lcn : Nat) (event : Option Nat) (p : Profile), profileOf c (context c r).active = some p →
     let v := limitVerdict c r lcn event
     let covered := ∃ g, (context c r).grant = some g ∧ g.lcn = lcn ∧ (g.event = none ∨ g.event = event)
     let offset := c.clock.zone.getD c.clock.broadcast
     (∀ n, (∃ id rec, event = some id ∧ findRecord c lcn id = some rec ∧ n = rec.rating) ∨
         ((∀ id, event = some id → findRecord c lcn id = none) ∧ ∃ e, findChannel c lcn = some e ∧ n = e.baseRating) →
       (v.rating = true ↔ p.ceiling < n ∧ ¬covered)) ∧
     (v.channelLocked = true ↔ lcn ∈ c.limits.lockList ∧ ¬covered) ∧
     (v.window = true ↔ p.windows ≠ [] ∧ ∀ now, c.clock.time = some now →
       ∀ w ∈ p.windows, ¬((w.start : Int) ≤ Int.fmod (now + offset * 60) 86400 / 60 ∧ Int.fmod (now + offset * 60) 86400 / 60 < (w.stop : Int))) ∧
     (v.allowance = true ↔ p.used = p.allowance ∧ p.allowance < 1440) ∧
     v = { v with noGrant := false, noKey := false, tunerTaken := false, noService := false }) ∧
  ∀ (c : Core) (lcn : Nat) (event : Option Nat),
    let granted := accessGranted c lcn event = true
    let paid := (∃ f, c.access.issue = .locked f) ∧ c.access.cut = false
    (findChannel c lcn = none → ¬granted) ∧
    (∀ e, findChannel c lcn = some e → e.kind = .free → granted) ∧
    (∀ e, findChannel c lcn = some e → e.kind = .subscribed →
      (granted ↔ paid ∧ ∃ g ∈ c.access.packages, ∃ day, c.clock.today = some day ∧ g.id ∈ e.packages ∧
        (g.first : Int) ≤ day ∧ day ≤ (g.last : Int))) ∧
    (∀ e, findChannel c lcn = some e → e.kind = .eventPaid →
      (granted ↔ paid ∧ ∃ id, event = some id ∧ ∃ g ∈ c.access.events, g.lcn = lcn ∧ g.event = id))

/-- The tests of a grant bulletin: the issue record locked, the form, the address, the number, and the room in the commit queue. An accepted one
applies its operations in their order, each as its row of Table 5.3-2 says, a purchase acknowledgement with what it does to the log, the report
that waits for it and the report timer; then its number is the last of its address, its group is posted, and, when a grant or the cut flag has
changed, GRANTS_CHANGED is posted and the sessions are re-evaluated. The group holds CREDIT when the credit before the first and after the last
operation differ (the model's choice, log 61), and keeps it when an owed or a waiting group held it (the model's reading, log 17); it is owed on a
full queue, and not during a wipe (the model's reading, log 16) or after a refusal with STORE_FULL or STORE_FAULT. Package grants that have ended go at a rollover and event
grants at their expiry, each with GRANTS_CHANGED and the group. -/
def Obligations.GrantBulletinIsJudged : Prop :=
  (∀ (today : Int) (c : Core),
     let a := c.access
     let kept := a.packages.filter fun g => decide (today ≤ (g.last : Int))
     ((∀ g ∈ a.packages, today ≤ (g.last : Int)) → expirePackages today c = c) ∧
     ((∃ g ∈ a.packages, (g.last : Int) < today) → expirePackages today c =
       commitGroup false (post (.grantsChanged .expiry kept.length a.events.length a.cut) { c with access := { a with packages := kept } }))) ∧
  (∀ (now : Nat) (c : Core),
     let a := c.access
     let kept := a.events.filter fun g => decide (now < g.expiry)
     ((∀ g ∈ a.events, now < g.expiry) → expireEvents now c = c) ∧
     ((∃ g ∈ a.events, g.expiry ≤ now) → expireEvents now c =
       reevaluate (commitGroup false (post (.grantsChanged .expiry a.packages.length kept.length a.cut) { c with access := { a with events := kept } })))) ∧
  (∀ (c : Core),
     let a := c.access
     let p := c.purchase
     let packages := fun l : List PackageGrant => { c with access := { a with packages := l } }
     let events := fun l : List EventGrant => { c with access := { a with events := l } }
     (∀ id first last,
       ((∃ g ∈ a.packages, g.id = id) →
         applyOp c (.addPackage id first last) = packages (a.packages.map fun g => if g.id = id then ⟨id, first, last⟩ else g)) ∧
       ((∀ g ∈ a.packages, g.id ≠ id) →
         (a.packages.length < 48 →
           applyOp c (.addPackage id first last) = packages (insertBy (fun x y => x.id < y.id) ⟨id, first, last⟩ a.packages)) ∧
         (48 ≤ a.packages.length → applyOp c (.addPackage id first last) = c))) ∧
     (∀ id, applyOp c (.dropPackage id) = packages (a.packages.filter (·.id != id))) ∧
     (∀ lcn event expiry,
       let others := a.events.filter fun x => !(x.lcn == lcn && x.event == event)
       let put := fun g : EventGrant => events (insertBy EventGrant.before g others)
       let past := ∃ now, c.clock.time = some now ∧ expiry ≤ now
       let place := a.events.length < if p.inFlight = none then 24 else 23
       (past → applyOp c (.addEvent lcn event expiry) = c) ∧
       (∀ g, ¬past → a.events.find? (fun x => x.lcn == lcn && x.event == event) = some g →
         applyOp c (.addEvent lcn event expiry) = put { g with expiry := max g.expiry expiry }) ∧
       (¬past → (∀ g ∈ a.events, g.lcn = lcn → g.event ≠ event) →
         (place → applyOp c (.addEvent lcn event expiry) = put ⟨lcn, event, expiry, .bulletin⟩) ∧
         (¬place → applyOp c (.addEvent lcn event expiry) = c))) ∧
     (∀ n, applyOp c (.creditLimit n) = { c with purchase := { p with limit := n, balance := min p.balance n } }) ∧
     (∀ n, applyOp c (.creditTopUp n) = { c with purchase := { p with balance := min (p.balance + n) p.limit } }) ∧
     applyOp c .unknown = c ∧ applyOp c .cut = { c with access := { a with cut := true } } ∧ applyOp c .restore = { c with access := { a with cut := false } } ∧
     (∀ s, let kept := p.log.dropWhile fun r => !seqAfter r.seq s
       let removed := (p.log.takeWhile fun r => !seqAfter r.seq s).getLast?.map (·.seq)
       let c1 := { c with purchase := { p with log := kept, acked := removed <|> p.acked } }
       let covers := c.uplink.state = .waitAck ∧ ∃ x r, c.uplink.report = some x ∧ x.records.getLast? = some r ∧ seqAfter r.seq s = false
       (¬covers → applyOp c (.purchaseAck s) = dueTest (stopIfReported (commitLogAck c1))) ∧
       (covers → applyOp c (.purchaseAck s) = dueTest (stopIfReported (commitLogAck { c1 with uplink := { c.uplink with
         state := .idle, report := none, parity := !c.uplink.parity, failures := 0
         ackWait := { c.uplink.ackWait with running := false }, answerWait := { c.uplink.answerWait with running := false } } }))))) ∧
  (∀ (k : Fin 5) (b : GrantBulletin) (c : Core),
     let done := b.ops.foldl applyOp c
     let numbered := { done with access := { done.access with last := done.access.last.set k.val (some b.number) k.isLt } }
     let credit := done.purchase.balance ≠ c.purchase.balance ∨ done.purchase.limit ≠ c.purchase.limit
     let posted := commitGroup (decide credit) numbered
     let x := numbered.access
     let changed := x.packages ≠ c.access.packages ∨ x.events ≠ c.access.events ∨ x.cut ≠ c.access.cut
     (¬changed → applyBulletin k b c = posted) ∧
     (changed → applyBulletin k b c = reevaluate
       (post (.grantsChanged (.bulletin k b.number) x.packages.length x.events.length x.cut) posted))) ∧
  (∀ (asked : Bool) (c : Core),
     let a := c.access
     let p := c.purchase
     let waits := ∃ i ∈ c.store.queue, i.key = ⟨.bulletinNumbers, 0⟩ ∧ ∃ r ∈ i.records, r.1.kind = .credit
     let credit := decide (asked = true ∨ waits ∨ (a.groupOwed = true ∧ a.groupOwedCredit = true))
     let item := Item.mk ⟨.bulletinNumbers, 0⟩
       ([(⟨.package, 0⟩, .packages a.packages), (⟨.eventGrant, 0⟩, .eventGrants a.events),
         (⟨.bulletinNumbers, 0⟩, .bulletinNumbers a.cut a.last)] ++
         if credit then [(⟨.credit, 0⟩, .credit p.balance p.limit p.charged)] else []) credit
     let owed := fun (x y : Bool) (c : Core) => { c with access := { a with groupOwed := x, groupOwedCredit := y } }
     (∀ c', Takes item c c' → commitGroup asked c = owed false false c') ∧
     ((offer item c).1 = .queueFull → commitGroup asked c = owed true credit c) ∧
     ((offer item c).1 = .duringWipe → commitGroup asked c = c) ∧
     ((offer item c).1 = .storeFull ∨ (offer item c).1 = .storeFault → commitGroup asked c = owed false false c)) ∧
  ∀ (b : GrantBulletin) (f : IssueFields) (c : Core),
    ((∀ g, c.access.issue ≠ .locked g) → judgeBulletin b c = .released) ∧
    (c.access.issue = .locked f →
      (bulletinFormed b = false → judgeBulletin b c = .released) ∧
      (addressSlot f b.address = none → judgeBulletin b c = .released) ∧
      (∀ k last, addressSlot f b.address = some k → c.access.last.get k = some last →
        ((b.number - last).toNat = 0 ∨ 32768 ≤ (b.number - last).toNat) → judgeBulletin b c = .released) ∧
      (∀ k, bulletinFormed b = true → addressSlot f b.address = some k →
        (∀ last, c.access.last.get k = some last → 1 ≤ (b.number - last).toNat ∧ (b.number - last).toNat ≤ 32767) →
        judgeBulletin b c = if roomFor b c.store then .applied k else .kept))

/-! ## The programme guide -/

/-- An inserted record displaces those of its event and of its span, and in a full store the eviction candidate; it is handed to the bookings
linked to it, whose start and end follow it. A test of the present events: a session whose event has changed posts EVENT_CHANGED, takes the event,
loses an unlock grant tied to the old one, and all are re-evaluated; one that holds NO_GRANT before and after is offered the new event. After a
withdrawal the reading of a present/next segment goes on (the model's choice, log 63). A present/next entry of the
tuner's carrier offers its next record, then its present one, and sets or removes its channel's marker; it is stated while no recording runs on
past its end. The present event of a channel: its marker's event while the map puts the channel on the marker's carrier, else the event whose
span contains network time, else none. -/
def Obligations.PresentEventIsDecided : Prop :=
  (∀ (n : EventRecord) (c : Core),
     let l := c.guide.records
     let after := (insertRecord n c).guide.records
     let displaced := fun r : EventRecord => r.lcn = n.lcn ∧
       (r.event = n.event ∨ (n.start < r.start + r.duration * 60 ∧ r.start < n.start + n.duration * 60))
     let held := (l.filter fun r => decide ¬displaced r).length
     let named := fun r : EventRecord => ∃ m, c.guide.markers.find? (·.lcn == r.lcn) = some m ∧
       channelCarrier c m.lcn = some m.carrier ∧ m.event = r.event
     (insertRecord n c = c ∨ insertRecord n c = recordInserted n { c with guide := { c.guide with records := after } }) ∧
     (held ≤ 2047 → insertRecord n c = recordInserted n { c with guide := { c.guide with records := after } }) ∧
     (held ≤ 2047 → ∀ r, r ∈ after ↔ r = n ∨ (r ∈ l ∧ ¬displaced r)) ∧
     (∀ x, 2048 ≤ held → x ∈ l → ¬named x → (∀ r ∈ l, r.lcn = x.lcn → r.event = x.event → r = x) →
       (∀ r ∈ l, ¬named r → r = x ∨ r.start < x.start ∨ (r.start = x.start ∧ r.lcn < x.lcn)) →
       (x.start < n.start → insertRecord n c = c) ∧
       (n.start ≤ x.start → ∀ r, r ∈ after ↔ r = n ∨ (r ∈ l ∧ ¬displaced r ∧ r ≠ x)))) ∧
  (∀ (r : EventRecord) (c : Core),
     let stop := r.start + r.duration * 60
     let linked := fun b : Booking => decide (b.lcn = r.lcn ∧ b.link = some r.event ∧ b.state ≠ .done ∧ b.state ≠ .missed ∧ b.state ≠ .conflict)
     recordInserted r c = ((c.clock.bookings.filter linked).map (·.id)).foldl (followRecord r) c ∧
     (∀ b, findBooking c b.id = some b →
       (b.start = r.start → b.finish = stop → followRecord r c b.id = c) ∧
       (b.start ≠ r.start ∨ b.finish ≠ stop → followRecord r c b.id = commitBooking b.id { c with clock := { c.clock with
         bookings := insertBy (fun x y => x.start < y.start || (x.start == y.start && x.id < y.id)) { b with start := r.start, finish := stop }
           (c.clock.bookings.filter (·.id != b.id)) } }))) ∧
  (∀ (o : Output) (c : Core),
     let x := session c o
     let tested := x.state = .checking ∨ x.state = .presenting ∨ x.state = .dark ∨ (x.state = .held ∧ x.reasons.terminal = false)
     let after := testSession c o
     testPresent c = testSession (testSession (testSession (testSession c .roomA) .roomB) .record1) .record2 ∧
     (¬tested ∨ x.lcn = none → after = c) ∧
     (∀ l, tested → x.lcn = some l →
       let now := presentEvent c l
       let event := now.map (·.event)
       let told := post (.eventChanged o l x.event event ((now.map (·.byMarker)).getD false)) c
       let replaced := setSession o { x with event := event } told
       let ended := match o with
         | .roomA => if ((context c .a).grant.bind (·.event)).isSome = true then setContext .a { context c .a with grant := none } replaced else replaced
         | .roomB => if ((context c .b).grant.bind (·.event)).isSome = true then setContext .b { context c .b with grant := none } replaced else replaced
         | _ => replaced
       let renewed := reevaluate ended
       let y := session renewed o
       (event = x.event → after = c) ∧
       (event ≠ x.event → after = if x.state = .held ∧ x.reasons.noGrant = true ∧ y.state = .held ∧ y.reasons.noGrant = true then
         purchaseOffer o renewed else renewed))) ∧
  (∀ (r : OfferedRecord) (source : Source) (c : Core),
     let formed := 1 ≤ r.lcn ∧ r.lcn ≤ 9999 ∧ 1 ≤ r.duration ∧ r.duration ≤ 1440 ∧ r.rating ≤ 7 ∧ r.title.length ≤ 40 ∧
       ∀ p, r.price = some p → 1 ≤ p ∧ p ≤ 1000000
     (formed → offerRecord source c r = insertRecord ⟨r.lcn, r.event, r.start, r.duration, r.rating, r.title, r.price, source⟩ c) ∧
     (¬formed → offerRecord source c r = c)) ∧
  (∀ (x : Carrier) (e : PresentNextEntry) (c : Core),
     let after := takePresentEntry x c e
     let c1 := match e.next with | some r => offerRecord .now c r | none => c
     let c2 := match e.present with | some r => offerRecord .now c1 r | none => c1
     (channelCarrier c e.lcn ≠ some x → after = c) ∧
     (channelCarrier c e.lcn = some x → noneExtended c → after.guide.records = c2.guide.records ∧ after.arb = c.arb ∧
       (∀ r, e.present = some r → ∀ m, m ∈ after.guide.markers ↔
         m = ⟨e.lcn, r.event, x⟩ ∨ (m ∈ c.guide.markers ∧ m.lcn ≠ e.lcn)) ∧
       (e.present = none → ∀ m, m ∈ after.guide.markers ↔ m ∈ c.guide.markers ∧ m.lcn ≠ e.lcn))) ∧
  (∀ (t : Fin 4) (x : Carrier) (es : List PresentNextEntry) (c : Core), (tuner c t).carrier = some x →
     takePresentNext t es c = testPresent (es.foldl (takePresentEntry x) c)) ∧
  ∀ (c : Core) (lcn : Nat),
    (∀ m, c.guide.markers.find? (·.lcn == lcn) = some m → channelCarrier c m.lcn = some m.carrier →
      presentEvent c lcn = some ⟨m.event, true⟩) ∧
    ((∀ m, c.guide.markers.find? (·.lcn == lcn) = some m → channelCarrier c m.lcn ≠ some m.carrier) →
      (c.clock.time = none → presentEvent c lcn = none) ∧
      (∀ now, c.clock.time = some now →
        (∀ p, presentEvent c lcn = some p → p.byMarker = false ∧ ∃ r ∈ c.guide.records, r.lcn = lcn ∧ r.event = p.event ∧
          r.start ≤ now ∧ now < r.start + r.duration * 60) ∧
        (presentEvent c lcn = none → ∀ r ∈ c.guide.records, r.lcn = lcn → ¬(r.start ≤ now ∧ now < r.start + r.duration * 60))))

/-- The guide sweep. REFRESH GUIDE settles its interval and begins a sweep in IDLE, as the sweep timer's expiry does: the sweep waits for its
tuner on the guide carrier, or ends with the retry in 600 s when there is no such carrier or no tuner for it. The sweep limit ends a sweep and
releases its tuner, which goes OFF when the sweep alone held it, stated while no recording runs on past its end. A schedule segment joins its
block, a complete block prunes its stale records, and a sweep with all eight blocks complete ends with GUIDE_READY. -/
def Obligations.GuideSweepRuns : Prop :=
  (∀ (tag : Byte) (s : State),
    let c0 := s.core
    let w := c0.guide.sweep
    let ms := c0.guide.interval * 60000
    let refresh := Instr.refreshGuide tag (some none)
    let collected := fun c : Core =>
      c.guide.interval = c0.guide.interval ∧ c.guide.records = c0.guide.records ∧ c.guide.markers = c0.guide.markers ∧
        ∀ k, (block c k).version = (block c0 k).version ∧ (block c k).last = (block c0 k).last ∧
          (w.next = .fresh → (block c k).seen = [] ∧ (block c k).complete = false) ∧ (w.next = .resume → block c k = block c0 k)
    let begun := fun (timer : Timer) (x : Carrier) (t : Fin 4) (c : Core) =>
      c = { c0 with guide := c.guide, arb := c.arb } ∧
        c.guide.sweep = { w with state := .tuning, tuner := some t, timer := timer, limit := ⟨120000, 120000, true⟩ } ∧
        collected c ∧
        (tuner c t).state = .acquiring ∧ (tuner c t).carrier = some x ∧ (tuner c t).holders = Holders.none.put .sweep true ∧
        (∀ v, v ≠ t → tuner c v = tuner c0 v) ∧ c.arb.line = c0.arb.line ++ [⟨t, (tuner c0 t).count + 1, some x⟩]
    let starts := fun (x : Carrier) (t : Fin 4) => guideCarrier c0 = some x ∧ tunerOn c0 x = none ∧ (tuner c0 t).state = .off ∧
      (∀ v, v < t → (tuner c0 v).state ≠ .off) ∧ heldTuner c0 .sweep = none
    let failed := fun c : Core => c = { c0 with guide := c.guide, slots := c.slots } ∧
      c.guide.sweep = ⟨.idle, ⟨ms, 600000, true⟩, { w.limit with running := false }, .resume, none⟩ ∧ collected c ∧
      (∀ i, (slot c i).feeds .schedule = false ∧ ((slot c0 i).feeds .schedule = false → slot c i = slot c0 i))
    let fails := heldTuner c0 .sweep = none ∧ (guideCarrier c0 = none ∨
      ∃ x, guideCarrier c0 = some x ∧ tunerOn c0 x = none ∧ ∀ v, (tuner c0 v).state ≠ .off ∧ (tuner c0 v).holders.only .sweep = false)
    (∀ n, Handled (.refreshGuide tag (some (some n))) s →
      (n < 60 ∨ 720 < n → Replies (.refreshGuide tag (some (some n))) tag .badRequest .none c0 s) ∧
      (60 ≤ n → n ≤ 720 → SettingTable (.refreshGuide tag (some (some n))) tag
        ⟨⟨.settings, 3⟩, [(⟨.settings, 3⟩, .sweepInterval n)], false⟩
        (fun c => refreshSweep { c with guide := { c.guide with
          interval := n, sweep := { c.guide.sweep with timer := { c.guide.sweep.timer with reload := n * 60000 } } } }) c0 s)) ∧
    (Handled refresh s →
      (w.state ≠ .idle → Replies refresh tag .ok .none c0 s) ∧
      (∀ x t, w.state = .idle → starts x t → ∃ c, Replies refresh tag .ok .none c s ∧ begun ⟨ms, ms, false⟩ x t c) ∧
      (w.state = .idle → fails → ∃ c, Replies refresh tag .ok .none c s ∧ failed c)) ∧
    (w.timer.running = false ∨ w.state ≠ .idle → exec .sweepTimer s = .next s) ∧
    (∀ x t, w.timer.running = true → w.state = .idle → starts x t →
      ∃ c, exec .sweepTimer s = .next { s with core := c } ∧ begun { w.timer with left := 0, running := false } x t c) ∧
    (w.timer.running = true → w.state = .idle → fails → ∃ c, exec .sweepTimer s = .next { s with core := c } ∧ failed c) ∧
    (w.limit.running = false ∨ w.state = .idle → exec .sweepLimit s = .next s) ∧
    (w.limit.running = true → w.state ≠ .idle →
      let ended : Sweep := ⟨.idle, ⟨ms, 600000, true⟩, { w.limit with left := 0, running := false }, .resume, none⟩
      (heldTuner c0 .sweep = none → ∃ c, exec .sweepLimit s = .next { s with core := c } ∧
        c = { c0 with guide := { c0.guide with sweep := ended }, slots := c.slots } ∧
        (∀ i, (slot c i).feeds .schedule = false ∧ ((slot c0 i).feeds .schedule = false → slot c i = slot c0 i))) ∧
      (∀ t, heldTuner c0 .sweep = some t → (tuner c0 t).holders.only .sweep = false →
        ∃ c, exec .sweepLimit s = .next { s with core := c } ∧
          c = setTuner t { tuner c0 t with holders := (tuner c0 t).holders.put .sweep false }
            { c0 with guide := { c0.guide with sweep := ended }, slots := c.slots } ∧
          (∀ i, (slot c i).feeds .schedule = false ∧ ((slot c0 i).feeds .schedule = false → slot c i = slot c0 i))) ∧
      (∀ t, heldTuner c0 .sweep = some t → (tuner c0 t).holders.only .sweep = true → noneExtended c0 →
        ∃ c more, exec .sweepLimit s = .next { s with core := c } ∧ c.guide.sweep = ended ∧ c.guide.records = c0.guide.records ∧
          c.guide.blocks = c0.guide.blocks ∧ c.guide.interval = c0.guide.interval ∧ (tuner c t).holders.has .sweep = false ∧
          c.arb.line = c0.arb.line ++ ⟨t, (tuner c0 t).count + 1, none⟩ :: more ∧
          ((tuner c0 t).state ≠ .locked ∨ c0.dir.home = none → more = [] ∧ (tuner c t).state = .off ∧ (tuner c t).carrier = none ∧
            (tuner c t).holders = .none ∧ ∀ v, v ≠ t → tuner c v = tuner c0 v)))) ∧
  (∀ (h : SegmentHeader) (rs : List OfferedRecord) (k : Fin 8) (c : Core),
    let x := block c k
    let same := x.version = some h.version ∧ x.last = some h.last
    let begun : BlockState := if same then x else ⟨some h.version, some h.last, [], false⟩
    let offered := rs.foldl (offerRecord (.block h.block h.version)) (setBlock k begun c)
    let joined := testPresent (setBlock k { begun with seen := h.number :: begun.seen } offered)
    let all := ∀ n, n ≤ h.last → n ∈ h.number :: begun.seen
    (7 < h.block ∨ h.last < h.number → takeSchedule h rs c = c) ∧
    (h.block = k.val → h.number ≤ h.last → h.number ∈ begun.seen → takeSchedule h rs c = c) ∧
    (h.block = k.val → h.number ≤ h.last → h.number ∉ begun.seen →
      (¬all → takeSchedule h rs c = joined) ∧ (all → takeSchedule h rs c = completeBlock k h.version joined))) ∧
  (∀ (k : Fin 8) (version : Nat) (c : Core),
    let stale := fun r : EventRecord => ∃ v, r.source = .block k.val v ∧ v ≠ version
    ∃ pruned, pruned.guide.records.Sublist c.guide.records ∧ block pruned k = { block c k with complete := true } ∧ (∀ j, j ≠ k → block pruned j = block c j) ∧
      pruned = { c with guide := { c.guide with records := pruned.guide.records, blocks := pruned.guide.blocks } } ∧
      (∀ r, r ∈ pruned.guide.records ↔ r ∈ c.guide.records ∧ ¬stale r) ∧
      (c.guide.sweep.state ≠ .collecting ∨ (∃ j, (block pruned j).complete = false) → completeBlock k version c = testPresent pruned) ∧
      (c.guide.sweep.state = .collecting → (∀ j, (block pruned j).complete = true) →
        completeBlock k version c = completeSweep (testPresent pruned))) ∧
  (∀ c : Core, noneExtended c →
    let g := c.guide
    let ms := g.interval * 60000
    ∃ c1, completeSweep c = post (.guideReady g.records.length ((List.finRange 8).map fun k => (block c k).version)) c1 ∧
      c1.guide.records = g.records ∧ c1.guide.blocks = g.blocks ∧
      c1.guide.sweep = ⟨.idle, ⟨ms, ms, true⟩, { g.sweep.limit with running := false }, .fresh, none⟩ ∧
      (heldTuner c .sweep = none → c1 = { c with guide := { g with sweep := c1.guide.sweep }, slots := c1.slots }) ∧
      (∀ t, heldTuner c .sweep = some t → (tuner c1 t).holders.has .sweep = false) ∧
      (∀ t, heldTuner c .sweep = some t → (tuner c t).holders.only .sweep = false →
        c1 = setTuner t { tuner c t with holders := (tuner c t).holders.put .sweep false }
          { c with guide := { g with sweep := c1.guide.sweep }, slots := c1.slots }))

/-! ## Parental limits -/

/-- The PIN check, by the first line of its table that applies. A comparison of a wrong PIN raises the count and posts its PIN commit, whose
taking sets the failure-commit flag, and the third starts the lockout; a correct one clears a count of 1 or 2. -/
def Obligations.PinCheckIsSettled : Prop :=
  (∀ (p : Option Pin) (c : Core),
     let l := c.limits
     let open1 := c.store.state ≠ .wiping
     let open2 := open1 ∧ l.failFlag = false
     let open3 := open2 ∧ l.lockout.running = false
     let full := c.store.queue.length = 16 ∧ ∀ it ∈ c.store.queue, it.key ≠ ⟨.pin, 0⟩
     c.store.queue.length ≤ 16 →
     (¬open1 → pinCheck p c = (.busy, c)) ∧
     (open1 → l.failFlag = true → pinCheck p c = (.busy, c)) ∧
     (open2 → l.lockout.running = true → pinCheck p c = (.lockedOut, c)) ∧
     (open3 → l.pin = none → pinCheck p c = (.pass, c)) ∧
     (open3 → l.pin.isSome = true → p = none → pinCheck p c = (.wrong, c)) ∧
     (open3 → l.pin.isSome = true → p.isSome = true → full → pinCheck p c = (.busy, c)) ∧
     (open3 → l.pin.isSome = true → p = l.pin → ¬full → (pinCheck p c).1 = .pass ∧ (l.count = 0 → (pinCheck p c).2 = c)) ∧
     (∀ x, open3 → l.pin.isSome = true → p = some x → p ≠ l.pin → ¬full → (pinCheck p c).1 = .wrong)) ∧
  (∀ (x pin : Pin) (c c' : Core),
     let l := c.limits
     let item := fun n : Nat => Item.mk ⟨.pin, 0⟩ [(⟨.pin, 0⟩, .pin (some pin) n)] true
     c.store.state ≠ .wiping → l.failFlag = false → l.lockout.running = false → l.pin = some pin →
     (c.store.queue.length < 16 ∨ ∃ it ∈ c.store.queue, it.key = ⟨.pin, 0⟩) →
     (x ≠ pin → l.count < 3 → Takes (item (l.count + 1)) { c with limits := { l with count := l.count + 1 } } c' →
       (pinCheck (some x) c).1 = .wrong ∧ (pinCheck (some x) c).2.limits.count = l.count + 1 ∧
       (pinCheck (some x) c).2.limits.failFlag = true ∧ (pinCheck (some x) c).2.store = c'.store ∧
       (pinCheck (some x) c).2.limits.lockout = (if l.count = 2 then ⟨900000, 900000, true⟩ else l.lockout) ∧
       (pinCheck (some x) c).2.link = (if l.count = 2 then (post (.pinLockout .failures 15) c).link else c.link)) ∧
     (x = pin → l.count = 1 ∨ l.count = 2 → Takes (item 0) { c with limits := { l with count := 0 } } c' →
       pinCheck (some x) c = (.pass, { c' with limits := { c'.limits with owed := l.owed.filter (· != .pin) } })))

/-- A PIN check that does not pass answers each request that makes one and leaves its own work undone: SET PIN, WIPE ACCOUNT, SWITCH PROFILE to
profile 0, SET PROFILE, SET ROOM DEFAULT, LOCK CHANNEL, UNLOCK CHANNEL, PURCHASE above the purchase ceiling and UNLOCK ROOM. UNLOCK ROOM: BAD_REQUEST for another output, NO_SUCH
without a channel, and after a PIN check that passes the room's unlock grant is its channel with its present event. -/
def Obligations.UnlockNeedsThePin : Prop :=
  (∀ (tag : Byte) (p : Option Pin) (a : PinAnswer) (code : Code) (c : Core) (s : State),
     (a, code) ∈ [(PinAnswer.wrong, Code.pinWrong), (.lockedOut, .pinLockedOut), (.busy, .busy)] → pinCheck p s.core = (a, c) →
     (∀ room o lcn, (room, o) ∈ [(0, Output.roomA), (1, .roomB)] → (session s.core o).lcn = some lcn →
       Handled (.unlockRoom tag (some ⟨room, p⟩)) s → Replies (.unlockRoom tag (some ⟨room, p⟩)) tag code .none c s) ∧
     (∀ new, new = none ∨ (∃ d, new = some d ∧ pinFormed d = true) → Handled (.setPin tag (some ⟨p, new⟩)) s →
       Replies (.setPin tag (some ⟨p, new⟩)) tag code .none c s) ∧
     (p = none ∨ (∃ d, p = some d ∧ pinFormed d = true) → Handled (.wipeAccount tag (some p)) s →
       Replies (.wipeAccount tag (some p)) tag code .none c s) ∧
     (∀ n, n ≤ 1 → s.core.clock.power = .active → (profileOf s.core 0).isSome = true → Handled (.switchProfile tag (some ⟨n, 0, p⟩)) s →
       Replies (.switchProfile tag (some ⟨n, 0, p⟩)) tag code .none c s) ∧
     (∀ q f, 1 ≤ q → q ≤ 5 → f.ceiling ≤ 7 → f.allowance ≤ 1440 → f.windows.length ≤ 4 → f.purchaseCeiling ≤ 1000000 →
       (∀ w ∈ f.windows, w.start ≤ 1439 ∧ w.stop ≤ 1440 ∧ w.start < w.stop) → Handled (.setProfile tag (some ⟨q, some f, p⟩)) s →
       Replies (.setProfile tag (some ⟨q, some f, p⟩)) tag code .none c s) ∧
     (∀ q, 1 ≤ q → q ≤ 5 → (profileOf s.core q).isSome = true → Handled (.setProfile tag (some ⟨q, none, p⟩)) s →
       Replies (.setProfile tag (some ⟨q, none, p⟩)) tag code .none c s) ∧
     (∀ n q, n ≤ 1 → q ≤ 5 → (profileOf s.core q).isSome = true → Handled (.setRoomDefault tag (some ⟨n, q, p⟩)) s →
       Replies (.setRoomDefault tag (some ⟨n, q, p⟩)) tag code .none c s) ∧
     (∀ lcn, 1 ≤ lcn → lcn ≤ 9999 → (findChannel s.core lcn).isSome = true →
       lcn ∈ s.core.limits.lockList ∨ s.core.limits.lockList.length < 64 → Handled (.lockChannel tag (some ⟨lcn, p⟩)) s →
       Replies (.lockChannel tag (some ⟨lcn, p⟩)) tag code .none c s) ∧
     (∀ lcn, 1 ≤ lcn → lcn ≤ 9999 → lcn ∈ s.core.limits.lockList → Handled (.unlockChannel tag (some ⟨lcn, p⟩)) s →
       Replies (.unlockChannel tag (some ⟨lcn, p⟩)) tag code .none c s) ∧
     (∀ n r lcn ev e rec price now f, (n, r) ∈ [(0, Room.a), (1, .b)] → 1 ≤ lcn → lcn ≤ 9999 → ev ≤ 65535 →
       s.core.access.issue = .locked f → s.core.access.cut = false → s.core.purchase.inFlight = none →
       findChannel s.core lcn = some e → e.kind = .eventPaid → findRecord s.core lcn ev = some rec → rec.price = some price →
       (∀ g ∈ s.core.access.events, ¬(g.lcn = lcn ∧ g.event = ev)) → (∀ x ∈ s.core.purchase.log, ¬(x.lcn = lcn ∧ x.event = ev)) →
       s.core.clock.time = some now → now + 300 ≤ rec.finish → price ≤ s.core.purchase.balance → s.core.purchase.log.length < 48 →
       s.core.access.events.length < 24 → (∀ g ∈ s.core.access.events, now < g.expiry) →
       (activeProfile s.core r).purchaseCeiling < price → Handled (.purchase tag (some ⟨n, .event lcn ev, p⟩)) s →
       Replies (.purchase tag (some ⟨n, .event lcn ev, p⟩)) tag code .none c s)) ∧
  (∀ (tag : Byte) (n : Nat) (pin : Option Pin) (s : State), Handled (.unlockRoom tag (some ⟨n, pin⟩)) s →
     let i := Instr.unlockRoom tag (some ⟨n, pin⟩)
     (1 < n → Replies i tag .badRequest .none s.core s) ∧
     (∀ r, (n, r) ∈ [(0, Room.a), (1, .b)] →
       ((session s.core (Room.output r)).lcn = none → Replies i tag .noSuch .none s.core s) ∧
       (∀ lcn c, (session s.core (Room.output r)).lcn = some lcn → PinPasses pin s.core c →
         Replies i tag .ok .none (reevaluate (setContext r { context s.core r with
           grant := some ⟨lcn, (session s.core (Room.output r)).event⟩ } c)) s)))

/-- RELOCK ROOM and RELOCK ALL end unlock grants without a PIN. -/
def Obligations.RelockEndsGrants : Prop :=
  ∀ (tag : Byte) (s : State),
    let c := s.core
    let held := fun r => (context c r).grant ≠ none
    let kept := fun r => ∃ v, (context c r).saved = some v ∧ v.grant ≠ none
    let relocked := fun r => { context c r with
      grant := none, saved := match (context c r).saved with | some v => some { v with grant := none } | none => none }
    (∀ n, Handled (.relockRoom tag (some n)) s →
      (1 < n → Replies (.relockRoom tag (some n)) tag .badRequest .none c s) ∧
      (∀ r, (n, r) ∈ [(0, Room.a), (1, .b)] →
        (held r → Replies (.relockRoom tag (some n)) tag .ok .none (reevaluate (setContext r { context c r with grant := none } c)) s) ∧
        (¬held r → Replies (.relockRoom tag (some n)) tag .ok .none c s))) ∧
    (Handled (.relockAll tag (some ())) s →
      (held .a ∨ held .b ∨ kept .a ∨ kept .b → Replies (.relockAll tag (some ())) tag .ok .none
        (reevaluate (setContext .b (relocked .b) (setContext .a (relocked .a) c))) s) ∧
      (¬(held .a ∨ held .b ∨ kept .a ∨ kept .b) → Replies (.relockAll tag (some ())) tag .ok .none c s))

/-- SWITCH PROFILE saves the context before the first switch, with the PIN check for profile 0; RETURN PROFILE restores it, the
unlock grant only while it covers the room's channel and present event. -/
def Obligations.ProfileIsSwitchedAndReturned : Prop :=
  ∀ (tag : Byte) (n : Nat) (r : Room) (s : State), (n, r) ∈ [(0, Room.a), (1, .b)] →
    let c := s.core
    let x := context c r
    let saved := match x.saved with | some v => v | none => ⟨x.active, x.grant⟩
    let switched := fun (c : Core) (q : Nat) => reevaluate (setContext r { x with saved := some saved, active := q, grant := none } c)
    let y := session c (Room.output r)
    (∀ q pin, Handled (.switchProfile tag (some ⟨n, q, pin⟩)) s →
      let i := Instr.switchProfile tag (some ⟨n, q, pin⟩)
      (5 < q → Replies i tag .badRequest .none c s) ∧
      (q ≤ 5 → profileOf c q = none → Replies i tag .noSuch .none c s) ∧
      ((profileOf c q).isSome = true → q ≤ 5 → c.clock.power = .standby → Replies i tag .standby .none c s) ∧
      ((profileOf c q).isSome = true → 1 ≤ q → q ≤ 5 → c.clock.power = .active → Replies i tag .ok .none (switched c q) s) ∧
      (∀ c', q = 0 → (profileOf c q).isSome = true → c.clock.power = .active → PinPasses pin c c' →
        Replies i tag .ok .none (switched c' 0) s)) ∧
    (Handled (.returnProfile tag (some n)) s →
      (x.saved = none → Replies (.returnProfile tag (some n)) tag .notSwitched .none c s) ∧
      (∀ v grant, x.saved = some v →
        (grant = v.grant ∧ (∃ g lcn, v.grant = some g ∧ y.lcn = some lcn ∧ g.lcn = lcn ∧ (g.event = none ∨ g.event = y.event))) ∨
          (grant = none ∧ ¬∃ g lcn, v.grant = some g ∧ y.lcn = some lcn ∧ g.lcn = lcn ∧ (g.event = none ∨ g.event = y.event)) →
        Replies (.returnProfile tag (some n)) tag .ok .none
          (reevaluate (setContext r { x with active := v.profile, grant := grant, saved := none } c)) s))

/-- SET ROOM DEFAULT, SET PROFILE, SET PIN, LOCK CHANNEL and UNLOCK CHANNEL: their refusals, and after a PIN check that passes the table of
R15, whose STORE_FULL and STORE_FAULT clear the owed mark of the record that SET ROOM DEFAULT, SET PIN and the lock list share with it. -/
def Obligations.LimitSettings : Prop :=
  (∀ (tag : Byte) (pin : Option Pin) (c : Core) (s : State),
     let unowed := fun (k : LimitCommit) (c : Core) => { c with limits := { c.limits with owed := c.limits.owed.filter (· != k) } }
     (∀ n r q, (n, r) ∈ [(0, Room.a), (1, .b)] → Handled (.setRoomDefault tag (some ⟨n, q, pin⟩)) s →
       let i := Instr.setRoomDefault tag (some ⟨n, q, pin⟩)
       let a := if r = .a then q else (context c .a).default
       let b := if r = .b then q else (context c .b).default
       (5 < q → Replies i tag .badRequest .none s.core s) ∧
       (q ≤ 5 → profileOf s.core q = none → Replies i tag .noSuch .none s.core s) ∧
       (q ≤ 5 → (profileOf s.core q).isSome = true → PinPasses pin s.core c →
         OwedSettingTable i tag ⟨⟨.settings, 4⟩, [(⟨.settings, 4⟩, .roomDefaults a b)], false⟩
           (fun c => { setContext r { context c r with default := q } c with
             limits := { c.limits with owed := c.limits.owed.filter (· != .settings) } }) (unowed .settings) c s)) ∧
     (∀ q (f : ProfileFields), Handled (.setProfile tag (some ⟨q, some f, pin⟩)) s →
       let i := Instr.setProfile tag (some ⟨q, some f, pin⟩)
       let p : Profile := ⟨f.ceiling, f.allowance, min (((profileOf c q).map (·.used)).getD 0) f.allowance, f.windows, f.purchaseCeiling⟩
       let formed := 1 ≤ q ∧ q ≤ 5 ∧ f.ceiling ≤ 7 ∧ f.allowance ≤ 1440 ∧ f.windows.length ≤ 4 ∧ f.purchaseCeiling ≤ 1000000 ∧
         (∀ w ∈ f.windows, w.start ≤ 1439 ∧ w.stop ≤ 1440 ∧ w.start < w.stop)
       (¬formed → Replies i tag .badRequest .none s.core s) ∧
       (formed → PinPasses pin s.core c → SettingTable i tag ⟨⟨.profile, q⟩, [(⟨.profile, q⟩, .profile (some p))], false⟩
         (fun c =>
           let used := ((profileOf c q).map (·.used)).getD 0
           let c' := putProfile q (some p) c
           reevaluate (if p.used < used then commitLimit' .usedToday c' else c')) c s)) ∧
     (∀ q, Handled (.setProfile tag (some ⟨q, none, pin⟩)) s →
       let i := Instr.setProfile tag (some ⟨q, none, pin⟩)
       (q = 0 ∨ 5 < q → Replies i tag .badRequest .none s.core s) ∧
       (1 ≤ q → q ≤ 5 → profileOf s.core q = none → Replies i tag .noSuch .none s.core s) ∧
       (1 ≤ q → q ≤ 5 → (profileOf s.core q).isSome = true → PinPasses pin s.core c →
         SettingTable i tag ⟨⟨.profile, q⟩, [(⟨.profile, q⟩, .profile none)], false⟩ (fun c => reevaluate (removeProfile q c)) c s)) ∧
     (∀ new, Handled (.setPin tag (some ⟨pin, new⟩)) s →
       let i := Instr.setPin tag (some ⟨pin, new⟩)
       let formed := ∀ d, new = some d → 4 ≤ d.length ∧ d.length ≤ 8 ∧ ∀ b ∈ d, 0x30 ≤ b.toNat ∧ b.toNat ≤ 0x39
       (¬formed → Replies i tag .badRequest .none s.core s) ∧
       (formed → PinPasses pin s.core c → OwedSettingTable i tag ⟨⟨.pin, 0⟩, [(⟨.pin, 0⟩, .pin new 0)], true⟩
         (fun c => { c with limits := { c.limits with
           pin := new, count := 0, owed := c.limits.owed.filter (· != .pin) } }) (unowed .pin) c s))) ∧
  (∀ (tag : Byte) (lcn : Nat) (pin : Option Pin) (c : Core) (s : State), 1 ≤ lcn → lcn ≤ 9999 →
     let l := s.core.limits.lockList
     let on := Instr.lockChannel tag (some ⟨lcn, pin⟩)
     let off := Instr.unlockChannel tag (some ⟨lcn, pin⟩)
     let item := fun l : List Nat => Item.mk ⟨.lockList, 0⟩ [(⟨.lockList, 0⟩, .lockList l)] false
     let unowed := fun c : Core => { c with limits := { c.limits with owed := c.limits.owed.filter (· != .lockList) } }
     let put := fun (l : List Nat) (c : Core) => reevaluate { c with limits := { c.limits with
       lockList := l, owed := c.limits.owed.filter (· != .lockList) } }
     (Handled on s →
       (findChannel s.core lcn = none → Replies on tag .noSuch .none s.core s) ∧
       ((findChannel s.core lcn).isSome = true → lcn ∈ l → PinPasses pin s.core c → Replies on tag .ok .none c s) ∧
       ((findChannel s.core lcn).isSome = true → lcn ∉ l → 64 ≤ l.length → Replies on tag .full .none s.core s) ∧
       ((findChannel s.core lcn).isSome = true → lcn ∉ l → l.length < 64 → PinPasses pin s.core c →
         OwedSettingTable on tag (item (insertBy (fun a b => a < b) lcn l)) (put (insertBy (fun a b => a < b) lcn l)) unowed c s)) ∧
     (Handled off s →
       (lcn ∉ l → Replies off tag .noSuch .none s.core s) ∧
       (lcn ∈ l → PinPasses pin s.core c →
         OwedSettingTable off tag (item (l.filter (· != lcn))) (put (l.filter (· != lcn))) unowed c s)))

/-- The lockout's end clears the count and posts its PIN commit, owed when the queue is full; during a wipe it is neither taken nor owed
(the model's reading, log 16). The allowance minute restarts at 60 s and
charges a minute to each profile below its allowance that is active in a room that is PRESENTING, one profile with its marks after the other (the
model's choice, log 64). A charge's marks: ALLOWANCE_LOW 10 minutes before the allowance, a re-evaluation at it, a USED_TODAY commit at it and at
each multiple of 5, owed when the queue is full; the commit names no day while today is absent (the model's choice, log 72). A day rollover clears
what was used, commits it and re-evaluates. -/
def Obligations.LimitTimersAndRollover : Prop :=
  (∀ (s : State),
     let l := s.core.limits
     let c1 := { s.core with limits := { l with lockout := { l.lockout with left := 0, running := false }, count := 0 } }
     let item := Item.mk ⟨.pin, 0⟩ [(⟨.pin, 0⟩, .pin l.pin 0)] true
     let goes := fun (c : Core) (owed : List LimitCommit) =>
       exec .lockoutTimer s = .next { s with core := { c with limits := { c1.limits with owed := owed } } }
     (l.lockout.running = false → exec .lockoutTimer s = .next s) ∧
     (∀ a c, l.lockout.running = true → offer item c1 = (a, c) →
       (a = .taken ∨ a = .storeFull ∨ a = .storeFault → goes c (l.owed.filter (· != .pin))) ∧
       (a = .queueFull → goes c (if .pin ∈ l.owed then l.owed else l.owed ++ [.pin])) ∧
       (a = .duringWipe → goes c l.owed))) ∧
  (∀ s : State,
     let l := s.core.limits
     let restarted := { s.core with limits := { l with minute := ⟨60000, 60000, true⟩ } }
     let charges := fun n : Fin 6 => ∃ r p, (context s.core r).active = n.val ∧ (session s.core (Room.output r)).state = .presenting ∧
       l.profiles.get n = some p ∧ p.allowance < 1440 ∧ p.used < p.allowance
     (∀ n : Fin 6, charged s.core n.val = true ↔ charges n) ∧
     (l.minute.running = false → exec .allowanceMinute s = .next s) ∧
     (l.minute.running = true →
       exec .allowanceMinute s = .next { s with core := ([0, 1, 2, 3, 4, 5].filter (charged s.core)).foldl charge restarted }) ∧
     (l.minute.running = true → (∀ n, ¬charges n) → exec .allowanceMinute s = .next { s with core := restarted }) ∧
     (∀ n p, l.minute.running = true → charges n → (∀ m, m ≠ n → ¬charges m) → l.profiles.get n = some p →
       p.used + 1 ≠ p.allowance → (p.used + 1) % 5 ≠ 0 →
       let after := { restarted with limits := { restarted.limits with
         profiles := l.profiles.set n.val (some { p with used := p.used + 1 }) n.isLt } }
       let told := if p.used + 11 = p.allowance then post (.allowanceLow n.val (p.used + 1) p.allowance) after else after
       exec .allowanceMinute s = .next { s with core := told })) ∧
  (∀ (n : Fin 6) (p : Profile) (c : Core), c.limits.profiles.get n = some p →
     let used := p.used + 1
     let after := { c with limits := { c.limits with profiles := c.limits.profiles.set n.val (some { p with used := used }) n.isLt } }
     let low := if used + 10 = p.allowance then post (.allowanceLow n.val used p.allowance) after else after
     let reached := if used = p.allowance then reevaluate low else low
     charge c n.val = if used % 5 = 0 ∨ used = p.allowance then commitLimit' .usedToday reached else reached) ∧
  (∀ c : Core,
     let l := c.limits
     let used := fun n : Fin 6 => match l.profiles.get n with | some p => p.used | none => 0
     let item := Item.mk ⟨.usedToday, 0⟩ [(⟨.usedToday, 0⟩, .usedToday #v[used 0, used 1, used 2, used 3, used 4, used 5] c.clock.today)] false
     let owes := fun (c : Core) (owed : List LimitCommit) => { c with limits := { l with owed := owed } }
     (∀ a d, offer item c = (a, d) →
       (a = .taken ∨ a = .storeFull ∨ a = .storeFault → commitLimit' .usedToday c = owes d (l.owed.filter (· != .usedToday))) ∧
       (a = .queueFull → commitLimit' .usedToday c = owes d (if .usedToday ∈ l.owed then l.owed else l.owed ++ [.usedToday])) ∧
       (a = .duringWipe → commitLimit' .usedToday c = c))) ∧
  (∀ c : Core,
     limitRollover c = reevaluate (commitLimit' .usedToday { c with limits := { c.limits with
       profiles := c.limits.profiles.map fun p => p.map fun x => { x with used := 0 } } }))

/-! ## Purchases and the return path -/

/-- PURCHASE of a named event: the first check of Table 8.3-1 that fails gives the reply. -/
def Obligations.PurchaseIsRefused : Prop :=
  ∀ (tag : Byte) (room lcn ev : Nat) (pin : Option Pin) (s : State), room ≤ 1 → 1 ≤ lcn → lcn ≤ 9999 → ev ≤ 65535 →
    let i := Instr.purchase tag (some ⟨room, .event lcn ev, pin⟩)
    let c := s.core
    let answers := fun code => Replies i tag code .none c s
    let issued := ∃ f, c.access.issue = .locked f
    let ok1 := issued ∧ c.access.cut = false
    let ok2 := ok1 ∧ c.purchase.inFlight = none
    Handled i s →
    (¬issued → answers .notIssued) ∧ (issued → c.access.cut = true → answers .cut) ∧
    (ok1 → c.purchase.inFlight ≠ none → answers .busy) ∧
    (ok2 → (∀ e r price, findChannel c lcn = some e → findRecord c lcn ev = some r → r.price = some price → e.kind ≠ .eventPaid) →
      answers .noSuch) ∧
    (∀ e r price, ok2 → findChannel c lcn = some e → e.kind = .eventPaid → findRecord c lcn ev = some r → r.price = some price →
      let owned := (∃ g ∈ c.access.events, g.lcn = lcn ∧ g.event = ev) ∨ (∃ x ∈ c.purchase.log, x.lcn = lcn ∧ x.event = ev)
      (owned → answers .already) ∧ (¬owned → c.clock.time = none → answers .tooLate) ∧
      (∀ now, ¬owned → c.clock.time = some now → r.finish < now + 300 → answers .tooLate) ∧
      (∀ now, ¬owned → c.clock.time = some now → now + 300 ≤ r.finish → c.purchase.balance < price → answers .noCredit) ∧
      (∀ now, ¬owned → c.clock.time = some now → now + 300 ≤ r.finish → price ≤ c.purchase.balance → 48 ≤ c.purchase.log.length →
        answers .logFull) ∧
      (∀ now, ¬owned → c.clock.time = some now → now + 300 ≤ r.finish → price ≤ c.purchase.balance → c.purchase.log.length < 48 →
        24 ≤ c.access.events.length → (∀ g ∈ c.access.events, now < g.expiry) → answers .noRoom))

/-- A PURCHASE that passes its checks, the PIN check among them when its price exceeds the profile's purchase ceiling, offers its record with
the charge made: taken, it is in flight and ACCEPTED. One whose record is written completes: its record joins the log, its price is charged,
its grant is installed and PURCHASE_DONE is posted; one whose record fails ends with nothing charged. -/
def Obligations.PurchaseIsAccepted : Prop :=
  (∀ (tag : Byte) (n : Nat) (r : Room) (lcn ev now price : Nat) (pin : Option Pin) (e : ChannelEntry) (rec : EventRecord)
     (f : IssueFields) (c1 c2 : Core) (s : State),
     let i := Instr.purchase tag (some ⟨n, .event lcn ev, pin⟩)
     let c := s.core
     let p := c.purchase
     let profile := (context c r).active
     let expiry := rec.finish + 3600
     let body := RecordBody.purchase ⟨p.nextSeq, lcn, ev, price, now, profile, false⟩ ⟨lcn, ev, expiry, .purchase⟩ (p.balance - price) p.limit
     let key : StoreKey := ⟨.purchase, p.nextSeq.toNat⟩
     Handled i s → (n, r) ∈ [(0, Room.a), (1, .b)] → 1 ≤ lcn → lcn ≤ 9999 → ev ≤ 65535 →
     c.access.issue = .locked f → c.access.cut = false → p.inFlight = none → findChannel c lcn = some e → e.kind = .eventPaid →
     findRecord c lcn ev = some rec → rec.price = some price → (∀ g ∈ c.access.events, ¬(g.lcn = lcn ∧ g.event = ev)) →
     (∀ x ∈ p.log, ¬(x.lcn = lcn ∧ x.event = ev)) → c.clock.time = some now → now + 300 ≤ rec.finish → price ≤ p.balance →
     p.log.length < 48 → c.access.events.length < 24 → (∀ g ∈ c.access.events, now < g.expiry) →
     (price ≤ (activeProfile c r).purchaseCeiling ∧ c1 = c) ∨ ((activeProfile c r).purchaseCeiling < price ∧ PinPasses pin c c1) →
     (Takes ⟨key, [(key, body)], true⟩ c1 c2 → Replies i tag .accepted .none
       { c2 with purchase := { p with inFlight := some ⟨p.nextSeq, r, lcn, ev, price, now, profile, expiry⟩ } } s) ∧
     ((offer ⟨key, [(key, body)], true⟩ c1).1 = .queueFull ∨ (offer ⟨key, [(key, body)], true⟩ c1).1 = .duringWipe → Replies i tag .busy .none c1 s) ∧
     ((offer ⟨key, [(key, body)], true⟩ c1).1 = .storeFull → Replies i tag .storeFull .none c1 s) ∧
     ((offer ⟨key, [(key, body)], true⟩ c1).1 = .storeFault → Replies i tag .storeFault .none c1 s)) ∧
  (∀ (f : InFlight) (c : Core), c.purchase.inFlight = some f →
     let p := c.purchase
     let written := purchaseWritten c
     written.purchase = { p with
       inFlight := none, log := p.log ++ [⟨f.seq, f.lcn, f.event, f.price, f.time, f.profile, false⟩], nextSeq := p.nextSeq + 1
       balance := p.balance - f.price, charged := some f.seq } ∧
     (∃ g ∈ written.access.events, g.lcn = f.lcn ∧ g.event = f.event ∧ g.source = .purchase ∧ f.expiry ≤ g.expiry) ∧
     (c.link.notices.length < 32 →
       ∃ n ∈ written.link.notices, n.body = .purchaseDone f.seq true f.room f.lcn f.event) ∧
     purchaseFailed c = post (.purchaseDone f.seq false f.room f.lcn f.event) { c with purchase := { p with inFlight := none } })

/-- UPLINK NOW sets the pending flag and makes the due test; UPLINK RELEASE sets the release flag in SILENT, and recovery is
tested. -/
def Obligations.UplinkRequestsAct : Prop :=
  ∀ (tag : Byte) (s : State),
    let c := s.core
    let u := c.uplink
    let now := Instr.uplinkNow tag (some ())
    let release := Instr.uplinkRelease tag (some ())
    let flagged := { c with uplink := { u with pendingFlag := true } }
    (Handled now s →
      (u.state = .idle → c.purchase.log ≠ [] → Replies now tag .ok .none { c with uplink := sendBegun c } s) ∧
      (u.state = .idle → c.purchase.log = [] → Replies now tag .ok .none { c with uplink := { u with pendingFlag := false } } s) ∧
      (u.state ≠ .idle → Replies now tag .ok .none flagged s)) ∧
    (Handled release s →
      (u.state = .silent → Replies release tag .ok .none (testRecovery { c with uplink := { u with release := true } }) s) ∧
      (u.state = .silent → u.quiet < 32 → Replies release tag .ok .none { c with uplink := { u with release := true } } s) ∧
      (u.state ≠ .silent → Replies release tag .notSilent .none c s))

/-- SET UPLINK: BAD_REQUEST out of range, else the table of R15; the report interval in force is the report timer's reload, the timer starts
when it is stopped with a record unreported, and stops at 0; recovery follows the mode in force. -/
def Obligations.UplinkSetting : Prop :=
  ∀ (tag : Byte) (mode n : Nat) (s : State),
    let i := Instr.setUplink tag (some ⟨mode, n⟩)
    let formed := mode ≤ 1 ∧ (n = 0 ∨ (15 ≤ n ∧ n ≤ 1440))
    Handled i s →
    (¬formed → Replies i tag .badRequest .none s.core s) ∧
    (∀ m, formed → (mode = 0 ∧ m = Recovery.auto) ∨ (mode = 1 ∧ m = .hold) →
      SettingTable i tag ⟨⟨.settings, 5⟩, [(⟨.settings, 5⟩, .uplink m n)], false⟩
        (fun c => testRecovery { c with uplink := { c.uplink with
          mode := m, interval := n
          reportTimer :=
            if n = 0 then { c.uplink.reportTimer with reload := 0, running := false }
            else if (∃ r ∈ c.purchase.log, r.reported = false) ∧ c.uplink.reportTimer.running = false then ⟨n * 60000, n * 60000, true⟩
            else { c.uplink.reportTimer with reload := n * 60000 } } }) s.core s)

/-- REPORT_TIMER and SEND_BEGIN make the due test; a report is due in IDLE with 8 unreported records, or with the pending flag over a
log that is not empty. -/
def Obligations.DueReportsAreSent : Prop :=
  ∀ s : State,
    let c := s.core
    let u := c.uplink
    let timed := { c with uplink := { u with reportTimer := { u.reportTimer with left := 0, running := false } } }
    let goes := fun (i : Instr) (c : Core) => exec i s = .next { s with core := c }
    (u.reportTimer.running = false → exec .reportTimer s = .next s) ∧
    (u.reportTimer.running = true → u.state = .idle → c.purchase.log ≠ [] →
      goes .reportTimer { c with uplink := sendBegun timed }) ∧
    (u.reportTimer.running = true → u.state = .idle → c.purchase.log = [] →
      goes .reportTimer { c with uplink := { timed.uplink with pendingFlag := false } }) ∧
    (u.reportTimer.running = true → u.state ≠ .idle → goes .reportTimer { c with uplink := { timed.uplink with pendingFlag := true } }) ∧
    (u.state ≠ .idle → exec .sendBegin s = .next s) ∧
    (u.state = .idle → 8 ≤ (unreported c.purchase).length ∨ (u.pendingFlag = true ∧ c.purchase.log ≠ []) →
      goes .sendBegin { c with uplink := sendBegun c }) ∧
    (u.state = .idle → c.purchase.log = [] → u.pendingFlag = true →
      goes .sendBegin { c with uplink := { u with pendingFlag := false } }) ∧
    (u.state = .idle → (unreported c.purchase).length < 8 → u.pendingFlag = false → exec .sendBegin s = .next s)

/-- The modem's answers and the retry timer: SENT marks the report's records reported and waits for their acknowledgement, NO_SLOT
retries after 2 s, and the same report is handed again with the attempt number raised. An answer that is not awaited is discarded. -/
def Obligations.ModemAnswersAct : Prop :=
  ∀ (attempt answer : Byte) (s : State),
    let c := s.core
    let u := c.uplink
    let quiet := { u with answerWait := { u.answerWait with running := false } }
    let awaited := u.state = .sending ∧ u.answerWait.running = true ∧ attempt = u.attempt
    let marked := fun (r : Report) (y : PurchaseRecord) =>
      if y.seq ∈ r.records.map (·.seq) then { y with reported := true } else y
    (¬awaited ∨ answer = 0 ∨ 4 < answer.toNat → exec (.modemAnswer attempt answer) s = .next s) ∧
    (∀ r x, awaited → answer = 0x01#8 → u.report = some r → x ∈ c.purchase.log → x.seq ∈ r.records.map (·.seq) →
      ∃ c', exec (.modemAnswer attempt answer) s = .next { s with core := c' } ∧
        c'.purchase = { c.purchase with log := c.purchase.log.map (marked r) } ∧
        { c'.uplink with reportTimer := u.reportTimer } = { quiet with state := .waitAck, ackWait := ⟨1800000, 1800000, true⟩ } ∧
        c' = { c with purchase := c'.purchase, uplink := c'.uplink }) ∧
    (awaited → answer = 0x02#8 → u.slotRetries < 4 → exec (.modemAnswer attempt answer) s = .next { s with core := { c with
      uplink := { quiet with slotRetries := u.slotRetries + 1, retry := ⟨2000, 2000, true⟩ } } }) ∧
    (u.retry.running = false → exec .retryTimer s = .next s) ∧
    (∀ r, u.retry.running = true → u.report = some r → exec .retryTimer s = .next { s with core := { c with
      uplink := handed r.records r.parity { c with uplink := { u with retry := { u.retry with left := 0, running := false } } } } })

/-- A failure ends the report in flight and raises the count: BACKOFF for 60 s below 16, SILENT at 16 with UPLINK_STATE posted. The
answer wait, the ack wait, and the modem's refusals are failures. -/
def Obligations.FailuresBackOffAndFallSilent : Prop :=
  ∀ (i : Instr) (s : State),
    let c := s.core
    let u := c.uplink
    let sent := match u.report with | some r => r.records.map PurchaseRecord.seq | none => []
    let unmarked := fun y : PurchaseRecord => if y.seq ∈ sent then { y with reported := false } else y
    (i = .answerWait ∧ u.answerWait.running = true) ∨ (i = .ackWait ∧ u.ackWait.running = true) ∨
      (∃ x, x ∈ [0x03#8, 0x04#8] ∧ i = .modemAnswer u.attempt x ∧ u.state = .sending ∧ u.answerWait.running = true) ∨
      (i = .modemAnswer u.attempt 0x02#8 ∧ u.state = .sending ∧ u.answerWait.running = true ∧ 4 ≤ u.slotRetries) →
    ∃ c', exec i s = .next { s with core := c' } ∧
      c'.uplink.report = none ∧ c'.uplink.failures = u.failures + 1 ∧ c'.uplink.pendingFlag = true ∧
      c'.uplink.answerWait.running = false ∧ c'.uplink.retry.running = false ∧ c'.uplink.ackWait.running = false ∧
      c'.uplink.line = u.line ∧ c'.uplink.parity = u.parity ∧
      c'.purchase = { c.purchase with log := c.purchase.log.map unmarked } ∧
      (u.failures < 15 → c'.uplink.state = .backoff ∧ c'.uplink.backoff = ⟨60000, 60000, true⟩ ∧
        c' = { c with purchase := c'.purchase, uplink := c'.uplink }) ∧
      (15 ≤ u.failures → c'.uplink.state = .silent ∧ c'.uplink.quiet = 0 ∧ c'.uplink.release = false ∧
        c'.uplink.quietTimer = ⟨60000, 60000, true⟩ ∧
        c' = { post (.uplinkState .silent .failures (some (u.failures + 1)) c.purchase.log.length) c with
          purchase := c'.purchase, uplink := c'.uplink })

/-- The uplink's waits that are not running change nothing at their expiry; the backoff ends in IDLE with the due test, and a quiet minute
raises the quiet count, to at most 32, with recovery tested. Recovery ends a silence whose quiet count is 32, in HOLD mode with the release
flag set, and the due test follows. -/
def Obligations.UplinkWaitsEnd : Prop :=
  (∀ s : State,
     let c := s.core
     let u := c.uplink
     let rested := { u with backoff := { u.backoff with left := 0, running := false }, state := .idle }
     let minute := { u with quiet := min (u.quiet + 1) 32, quietTimer := ⟨60000, 60000, true⟩ }
     (u.answerWait.running = false → exec .answerWait s = .next s) ∧ (u.ackWait.running = false → exec .ackWait s = .next s) ∧
     (u.backoff.running = false → exec .backoffTimer s = .next s) ∧ (u.quietTimer.running = false → exec .quietTimer s = .next s) ∧
     (u.backoff.running = true → c.purchase.log ≠ [] → u.pendingFlag = true →
       exec .backoffTimer s = .next { s with core := { c with uplink := sendBegun { c with uplink := rested } } }) ∧
     (u.backoff.running = true → c.purchase.log = [] →
       exec .backoffTimer s = .next { s with core := { c with uplink := { rested with pendingFlag := false } } }) ∧
     (u.quietTimer.running = true → u.quiet < 31 → exec .quietTimer s = .next { s with core := { c with uplink := minute } }) ∧
     (u.quietTimer.running = true → 31 ≤ u.quiet → exec .quietTimer s = .next { s with core := testRecovery { c with uplink := minute } })) ∧
  (∀ c : Core,
     let u := c.uplink
     let ready := u.state = .silent ∧ u.quiet = 32 ∧ (u.mode = .auto ∨ u.release = true)
     (ready → testRecovery c = dueTest (post (.uplinkState .idle .recovered none c.purchase.log.length) { c with uplink := { u with
       state := .idle, failures := 0, quiet := 0, release := false, quietTimer := { u.quietTimer with running := false } } })) ∧
     (¬ready → testRecovery c = c))

/-! ## The Account Store -/

/-- The five answers to an offered commit, and the place of a taken item: in place of the waiting item of its key, behind the last
urgent item, or at the tail. An urgent item that arrives suspends an erase, whose remaining time is a free value (log 9). -/
def Obligations.CommitQueueAnswers : Prop :=
  ∀ (it : Item) (c : Core),
    let st := c.store
    let works := st.state ∈ [StoreState.idle, .writing, .compactingCopy, .erasing, .eraseSuspended, .writingInSuspend]
    let behindUrgent := fun q : List Item => q.takeWhile (·.urgent) ++ it :: q.dropWhile (·.urgent)
    let leaves := fun q : List Item => offer it c = (.taken, { c with store := { st with queue := q } })
    let suspends := st.state = .erasing ∧ st.suspended = false
    let arrives := fun q : List Item =>
      (¬suspends → leaves q) ∧
      (suspends → ∃ c' left, offer it c = (.taken, c') ∧ (∀ n, st.eraseLeft = some n → left ≤ n) ∧
        c'.store = { st with queue := q, state := .eraseSuspended, activity := .none, suspended := true, served := 0,
                             eraseLeft := some left } ∧
        c' = { c with store := c'.store, free := c.free + 1 })
    let absent := ∀ x ∈ st.queue, x.key ≠ it.key
    (works → absent → 16 ≤ st.queue.length → offer it c = (.queueFull, c)) ∧
    (works → absent → st.queue.length < 16 →
      (it.urgent = false → leaves (st.queue ++ [it])) ∧ (it.urgent = true → arrives (behindUrgent st.queue))) ∧
    (∀ old, works → old ∈ st.queue → old.key = it.key → (st.queue.map (·.key)).Nodup →
      (it.urgent = true → old.urgent = false → arrives (behindUrgent (st.queue.filter fun x => x.key ≠ it.key))) ∧
      (it.urgent = false ∨ old.urgent = true →
        leaves (st.queue.map fun x => if x.key = it.key then { it with urgent := old.urgent } else x))) ∧
    (st.state = .scanning ∨ st.state = .wiping → offer it c = (.duringWipe, c)) ∧
    (st.state = .storeFull → offer it c = (.storeFull, c)) ∧ (st.state = .fault → offer it c = (.storeFault, c))

/-- ITEM_WRITE_BEGIN and ITEM_WRITE_DONE for an item of one record: the write begins when the record fits on the open page, the record
stands on the page when it verifies, is voided and written again when it does not, and FAULT is entered after the second failure, with a run
left where it stands. A begin that cannot occur and a done of no write in progress change nothing (the model's reading, log 1); the lengths are
the command's operand (the model's choice, log 4). -/
def Obligations.ItemsAreWritten : Prop :=
  ∀ (lengths : List Nat) (s : State),
    let c0 := s.core
    let st := c0.store
    let begin' := Instr.itemWriteBegin lengths
    (st.queue = [] ∨ st.state ∉ [StoreState.idle, .eraseSuspended] → exec begin' s = .next s) ∧
    (∀ it rest k b p n, st.state = .idle → st.run = none → st.queue = it :: rest → it.records = [(k, b)] → lengths = [n] →
      1 ≤ n → n ≤ 480 → openPage st = some p → recordSize n ≤ pageFree (page st p) →
      ∃ c, exec begin' s = .next { s with core := c } ∧ c.store.state = .writing ∧ c.store.activity = .item false ∧
        c.store.job = some ⟨it, [n], st.nextSerial, 0⟩ ∧ c.store.nextSerial = st.nextSerial + 1 ∧ c.store.pages = st.pages ∧
        (nothingOwed c0 → noneKept c0 → c = { c0 with store := { c.store with queue := rest }, limits := { c0.limits with
          failWriting := if it.key.kind = .pin then c0.limits.failFlag else c0.limits.failWriting } })) ∧
    (∀ ok, (∀ second, st.activity ≠ .item second) → exec (.itemWriteDone ok) s = .next s) ∧
    (∀ second j k b p, st.activity = .item second → st.job = some j → j.item.records = [(k, b)] → j.done = 0 →
      openPage st = some p →
      let r : Record := { key := k, serial := j.serial, body := b, length := j.lengths.getD 0 1, member := 1, members := 1
                          voided := false, torn := false }
      let entered := fun voided : Bool => (setPage p { page st p with
        entries := (page st p).entries ++ [.record { r with voided := voided }] } st).pages
      (st.state = .writing → st.run = none → 4 ≤ erasedCount st → j.item.key.kind ≠ .purchase → j.item.key.kind ≠ .pin →
        exec (.itemWriteDone true) s = .next { s with core := { c0 with store := { st with
          pages := entered false, job := none, activity := .none, state := .idle } } }) ∧
      (∃ c, exec (.itemWriteDone true) s = .next { s with core := c } ∧ c.store.pages = entered false) ∧
      (second = false → recordSize r.length ≤ pageFree (page { st with pages := entered true } p) →
        exec (.itemWriteDone false) s = .next { s with core := { c0 with store := { st with
          pages := entered true, activity := .item true } } }) ∧
      (second = true → st.state ≠ .wiping → ∃ c, exec (.itemWriteDone false) s = .next { s with core := c } ∧
        c.store = { st with pages := entered true, state := .fault, faultCause := some .write, faultPage := some p, queue := [],
                            job := none, activity := .none }))

/-- Marks, copies and erases. A mark takes effect when it verifies, is written again once, and FAULT follows a second failure (log
21); a copy stands on the open page, the next copy or the retiring mark follows, an urgent head goes first; an erased page is blank,
and the run ends, goes on with the oldest full page, or ends in STORE_FULL. An erase's remaining time is a free value (log 9). The pause in
IDLE at an urgent head between two copies is the model's reading (log 22), and so is a done of no such write or erase, which changes nothing
(log 1). -/
def Obligations.PagesAreCompacted : Prop :=
  ∀ s : State,
    let c0 := s.core
    let st := c0.store
    let goes := fun (i : Instr) (st' : Store) => exec i s = .next { s with core := { c0 with store := st' } }
    let put := fun (p : PageNo) (x : Page) => (setPage p x st).pages
    let marked := fun (p : PageNo) (x : PageState) => put p { page st p with state := x }
    let urgentHead := ∃ it, st.queue.head? = some it ∧ it.urgent = true
    ((∀ m b n, st.activity ≠ .mark m b n) → ∀ ok, exec (.markWriteDone ok) s = .next s) ∧
    (∀ m n, st.activity = .mark m false n → goes (.markWriteDone false) { st with activity := .mark m true n }) ∧
    (∀ m n, st.activity = .mark m true n → st.state ≠ .wiping → ∃ c, exec (.markWriteDone false) s = .next { s with core := c } ∧
      c.store.state = .fault ∧ c.store.faultCause = some .write ∧ c.store.pages = st.pages) ∧
    (∀ p q b w, st.activity = .mark (.full p) b (.item w) → st.state ≠ .wiping → (page st p).state = .opened →
      (∀ x, (page st x).state = .opened → x = p) → nextErased st = some q → goes (.markWriteDone true) { st with
        pages := marked p .full, activity := .mark (.opening q) false (.item w) }) ∧
    (∀ q b w j, st.activity = .mark (.opening q) b (.item w) → st.state ≠ .wiping → (∀ x, (page st x).state ≠ .opened) →
      page st q = .blank → st.job = some j → recordSize (j.lengths.getD j.done 1) ≤ 496 → goes (.markWriteDone true) { st with
        pages := put q ⟨.opened, st.nextPageSerial, []⟩, nextPageSerial := st.nextPageSerial + 1, lastOpened := some q
        activity := .item w }) ∧
    (∀ p b, st.activity = .mark (.retiring p) b .retire → st.state ≠ .wiping → ∃ left,
      exec (.markWriteDone true) s = .next { s with core := { c0 with free := c0.free + 1, store := { st with
        pages := marked p .retiring, state := .erasing, activity := .erase p, suspended := false, served := 0
        eraseLeft := some left } } }) ∧
    ((∀ r b, st.activity ≠ .copy r b) → ∀ ok, exec (.copyWriteDone ok) s = .next s) ∧
    (∀ r b p, st.activity = .copy r b → openPage st = some p →
      let entered := fun voided : Bool => put p { page st p with
        entries := (page st p).entries ++ [.record { r with voided := voided }] }
      let st' := { st with pages := entered false }
      (∀ ok, ∃ c, exec (.copyWriteDone ok) s = .next { s with core := c } ∧ c.store.pages = entered (!ok)) ∧
      (b = false → recordSize r.length ≤ pageFree (page { st with pages := entered true } p) →
        goes (.copyWriteDone false) { st with pages := entered true, activity := .copy r true }) ∧
      (∀ run q, st.state ≠ .wiping → st.run = some run → run.page = some q →
        (urgentHead → goes (.copyWriteDone true) { st' with state := .idle, activity := .none }) ∧
        (¬urgentHead → nextCopy st' q = none →
          goes (.copyWriteDone true) { st' with state := .compactingCopy, activity := .mark (.retiring q) false .retire }) ∧
        (∀ x, ¬urgentHead → nextCopy st' q = some x → recordSize x.length ≤ pageFree (page st' p) →
          goes (.copyWriteDone true) { st' with state := .compactingCopy, activity := .copy x false }))) ∧
    ((∀ p, st.activity ≠ .erase p) → ∀ blank, exec (.pageEraseDone blank) s = .next s) ∧
    (∀ p run, st.activity = .erase p → st.run = some run →
      let st' := { st with pages := put p .blank, activity := .none, suspended := false, served := 0, eraseLeft := none }
      (4 ≤ erasedCount st' → goes (.pageEraseDone true) { st' with run := none, state := .idle }) ∧
      (∀ q, erasedCount st' < 4 → run.compacted + 1 < run.fullAtStart → ¬urgentHead → oldestFull st' = some q →
        ∃ c, exec (.pageEraseDone true) s = .next { s with core := c } ∧ c.store.pages = st'.pages ∧
          c.store.state = .compactingCopy ∧ c.store.run = some ⟨run.fullAtStart, run.compacted + 1, some q⟩) ∧
      (erasedCount st' < 4 → run.fullAtStart ≤ run.compacted + 1 →
        ∃ c, exec (.pageEraseDone true) s = .next { s with core := c } ∧ c.store.pages = st'.pages ∧
          c.store.state = .storeFull ∧ c.store.run = none) ∧
      (∃ c, exec (.pageEraseDone false) s = .next { s with core := c } ∧ c.store.pages = st.pages ∧
        c.store.state = .fault ∧ c.store.faultCause = some .erase ∧ c.store.faultPage = some p))

/-- WIPE ACCOUNT and BANK_ERASE_DONE: after a PIN check that passes the store is WIPING, its mark is written first when a page has
room for it, and the banks are erased one after another; the last erase leaves every page blank and the owners at their defaults, each row of Table 9.7-1 in its order: the
directory kept in memory with the home carrier absent and its snapshot owed in full, which ends standby watch's claim (the model's choice, log
65); the acquisition limit; no grants, the cut flag clear and the last numbers absent, with GRANTS_CHANGED posted; the purchases and the uplink;
the limits and the room contexts, with the one re-evaluation behind them (the model's choice, log 71, and so an offer may stand for an event of
the log that is emptied, log 73); the sweep interval; the clock and the link. A bulletin kept during the wipe is retested at the end, so the
values of grants, credit and uplink are stated for none kept. The model's readings: a bank not found blank is blank after it (log 46), and an
end of no bank erase in progress changes nothing (log 1). -/
def Obligations.WipeErasesBanks : Prop :=
  (∀ c : Core,
     let a := c.access
     let p := c.purchase
     let u := c.uplink
     let l := c.limits
     let w := c.guide.sweep
     let failed := c.store.wipeFailed
     let state := if failed = true then StoreState.fault else .idle
     let erased := { c with store := { c.store with
       pages := Vector.replicate 128 .blank, state := state, activity := .none, job := none, banks := [], wipeFailed := false, whole := [], floor := 0
       faultCause := if failed = true then some .wiped else none } }
     let posted := post (.storeState state (some .wiped) (erasedCount erased.store) none none) erased
     let limited := fun c : Core => { c with arb := { c.arb with acqLimit := 800 } }
     let idle := if u.state = .silent then u else { u with
       state := .idle, report := none, answerWait := { u.answerWait with running := false }, retry := { u.retry with running := false }
       ackWait := { u.ackWait with running := false }, backoff := { u.backoff with running := false } }
     completeWipe c =
       retestKept (wipeLink (wipeClock (wipeGuide (wipeLimits (wipePurchases (wipeAccess (limited (wipeDirectory posted)))))))) ∧
     wipeDirectory c = startSnapshot (watchReclaim { c with dir := { c.dir with home := none } }) ∧
     wipeAccess c = post (.grantsChanged .wipe 0 0 false) { c with access := { a with
       packages := [], events := [], cut := false, last := #v[none, none, none, none, none], groupOwed := false, groupOwedCredit := false } } ∧
     wipePurchases c = testRecovery { c with
       purchase := { balance := 0, limit := 0, log := [], nextSeq := 1, acked := none, charged := none, inFlight := p.inFlight, logAckOwed := false }
       uplink := { idle with
         mode := .auto, interval := 360, parity := false, pendingFlag := false
         reportTimer := { u.reportTimer with reload := 21600000, running := false } } } ∧
     wipeLimits c = reevaluate (setContext .b ⟨0, 0, none, none⟩ (setContext .a ⟨0, 0, none, none⟩ { c with limits := {
       profiles := #v[some ⟨7, 1440, 0, [], 1000000⟩, none, none, none, none, none], pin := none, count := 0
       lockout := { l.lockout with running := false }, failFlag := false, failWriting := false, lockList := [], minute := l.minute, owed := [] } })) ∧
     wipeGuide c = { c with guide := { c.guide with interval := 240, sweep := { w with timer := { w.timer with reload := 14400000 } } } }) ∧
  ∀ (tag : Byte) (pin : Option Pin) (s : State),
    let i := Instr.wipeAccount tag (some pin)
    let st := s.core.store
    (Handled i s →
      (∀ d, pin = some d → ¬(4 ≤ d.length ∧ d.length ≤ 8 ∧ ∀ b ∈ d, 0x30 ≤ b.toNat ∧ b.toNat ≤ 0x39) →
        Replies i tag .badRequest .none s.core s) ∧
      (∀ c1, (∀ d, pin = some d → 4 ≤ d.length ∧ d.length ≤ 8 ∧ ∀ b ∈ d, 0x30 ≤ b.toNat ∧ b.toNat ≤ 0x39) →
        PinPasses pin s.core c1 →
        ∃ c, Replies i tag .accepted .none c s ∧ c.store.state = .wiping ∧ c.store.queue = [] ∧ c.store.run = none ∧
          c.store.pages = st.pages ∧
          ((∃ b, c1.store.activity = .item b) ∨ (∃ r b, c1.store.activity = .copy r b) ∨ (∃ m b n, c1.store.activity = .mark m b n) →
            c.store.activity = c1.store.activity) ∧
          (∀ p, c1.store.activity = .none → openPage st = some p → 16 ≤ pageFree (page st p) →
            c.store.activity = .mark (.wipe p) false .wipe) ∧
          (c1.store.activity = .none → openPage st = none → nextErased st = none →
            c.store.activity = .bankErase 0 ∧ c.store.banks = [1, 2, 3, 4, 5, 6, 7]))) ∧
    ((∀ b, st.activity ≠ .bankErase b) → ∀ blank, exec (.bankEraseDone blank) s = .next s) ∧
    (∀ b x rest blank, st.activity = .bankErase b → st.banks = x :: rest → ∃ c, exec (.bankEraseDone blank) s = .next { s with core := c } ∧
      c = { s.core with store := c.store } ∧ c.store.activity = .bankErase x ∧ c.store.banks = rest ∧
      c.store.wipeFailed = (st.wipeFailed || !blank) ∧
      (∀ p : PageNo, page c.store p = if p.val / 16 = b.val then .blank else page st p)) ∧
    (∀ b blank, st.activity = .bankErase b → st.banks = [] → ∃ c, exec (.bankEraseDone blank) s = .next { s with core := c } ∧
      c.store.state = (if blank = true ∧ st.wipeFailed = false then .idle else .fault) ∧ (∀ p, page c.store p = .blank) ∧
      c.dir.home = none ∧ c.dir.map = s.core.dir.map ∧ c.dir.carriers = s.core.dir.carriers ∧ c.dir.guideCarrier = s.core.dir.guideCarrier ∧
      c.dir.version = s.core.dir.version ∧ c.arb.acqLimit = 800 ∧ c.access.issue = s.core.access.issue ∧
      (noneKept s.core → c.access.packages = [] ∧ c.access.events = [] ∧ c.access.cut = false ∧
        c.access.last = #v[none, none, none, none, none] ∧ c.access.groupOwed = false ∧
        c.purchase = { balance := 0, limit := 0, log := [], nextSeq := 1, acked := none, charged := none
                       inFlight := s.core.purchase.inFlight, logAckOwed := false } ∧
        c.uplink.mode = .auto ∧ c.uplink.interval = 360 ∧ c.uplink.parity = false ∧ c.uplink.pendingFlag = false ∧
        c.uplink.report = (if s.core.uplink.state = .silent then s.core.uplink.report else none) ∧
        c.uplink.reportTimer = { s.core.uplink.reportTimer with reload := 21600000, running := false }) ∧
      c.limits = { profiles := #v[some ⟨7, 1440, 0, [], 1000000⟩, none, none, none, none, none], pin := none, count := 0
                   lockout := { s.core.limits.lockout with running := false }, failFlag := false, failWriting := false, lockList := []
                   minute := s.core.limits.minute, owed := [] } ∧
      (∀ r, context c r = ⟨0, 0, none, none⟩) ∧ c.guide.interval = 240 ∧ c.guide.sweep.timer.reload = 14400000 ∧
      c.guide.records = s.core.guide.records ∧ c.clock.zone = none ∧ c.clock.wakeLead = 120 ∧ c.clock.bookings = [] ∧ c.clock.lastId = 0 ∧
      c.clock.owedBookings = [] ∧ (s.core.clock.time = none → c.clock.today = none) ∧
      (∀ t, s.core.clock.time = some t → c.clock.today = s.core.clock.today) ∧ c.clock.power = s.core.clock.power ∧
      c.clock.wake = s.core.clock.wake ∧ c.clock.causes = s.core.clock.causes ∧ c.clock.alarm = s.core.clock.alarm ∧
      c.link.mode = .level ∧ c.link.gap = 4 ∧ c.link.powerKey = 0x0C#8)

/-- The end of the start-up scan: READY is the oldest notice, the store leaves SCANNING, and with no wipe mark the RETIRING pages are
erased while ERASED and FULL pages stand. With one, the records below it are live no more, and the store is WIPING at the first bank that is not
blank. The owners then load in the order of R189, each from the live records and at its defaults without
them: the clock with the bookings, the directory when its snapshot is whole, the acquisition limit and the sweep interval, the grants when the
issue record is locked, the purchases with their replay, and none of the credit and the log while the record is not locked (what is loaded then is the model's reading,
log 59), the limits with the minute started,
the link; standby watch is tested last. READY before the notices of the loads and standby watch's claim after them are the model's reading
(log 41), and an end of the scan outside SCANNING changes nothing (log 1). -/
def Obligations.ScanEnds : Prop :=
  (∀ c : Core,
     let st := c.store
     let k := (loadClock c).clock
     loadClock c = { c with clock := { c.clock with
       today := k.today, zone := k.zone, wakeLead := k.wakeLead, bookings := k.bookings, lastId := k.lastId } } ∧
     (∀ d, liveBody st .lastDay 0 = some (.lastDay d) → k.today = some d) ∧
     ((∀ d, liveBody st .lastDay 0 ≠ some (.lastDay d)) → k.today = c.clock.today) ∧
     (∀ z n, liveBody st .settings 6 = some (.clock z n) → k.zone = z ∧ k.wakeLead = n) ∧
     ((∀ z n, liveBody st .settings 6 ≠ some (.clock z n)) → k.zone = c.clock.zone ∧ k.wakeLead = c.clock.wakeLead) ∧
     (∀ b, b ∈ k.bookings ↔ ∃ n x, 1 ≤ n ∧ n ≤ 255 ∧ liveBody st .booking n = some (.booking (some x)) ∧
       b = if x.state = .active then { x with inUse := none, extended := false } else x) ∧
     k.bookings.Pairwise (fun a b => a.start < b.start ∨ (a.start = b.start ∧ a.id ≤ b.id)) ∧
     (∀ b ∈ k.bookings, b.id ≤ k.lastId) ∧ (k.lastId = 0 ∨ ∃ b ∈ k.bookings, b.id = k.lastId)) ∧
  (∀ c : Core,
     let st := c.store
     let d := (loadDirectory c).dir
     let header := fun v cs g n => liveBody st .directoryPart 0 = some (.directoryHeader v cs g n)
     loadDirectory c = { c with dir := { c.dir with
       map := d.map, carriers := d.carriers, guideCarrier := d.guideCarrier, version := d.version, home := d.home } } ∧
     (∀ v cs g n (parts : List (List ChannelEntry)), header v cs g n → parts.length = n →
       (∀ p es, parts[p]? = some es → liveBody st .directoryPart (p + 1) = some (.directoryPart v es)) →
       d.map = parts.flatten ∧ d.carriers = cs ∧ d.guideCarrier = g ∧ d.version = v) ∧
     ((∀ v cs g n, header v cs g n → ∃ p, 1 ≤ p ∧ p ≤ n ∧ ∀ es, liveBody st .directoryPart p ≠ some (.directoryPart v es)) →
       d.map = c.dir.map ∧ d.carriers = c.dir.carriers ∧ d.guideCarrier = c.dir.guideCarrier ∧ d.version = c.dir.version) ∧
     (∀ h, liveBody st .settings 1 = some (.homeCarrier h) → d.home = h) ∧
     ((∀ h, liveBody st .settings 1 ≠ some (.homeCarrier h)) → d.home = c.dir.home)) ∧
  (∀ c : Core,
     let st := c.store
     let after := loadSettings c
     let w := c.guide.sweep
     after = { c with arb := { c.arb with acqLimit := after.arb.acqLimit }, guide := after.guide } ∧
     (∀ n, liveBody st .settings 2 = some (.acqLimit n) → after.arb.acqLimit = n) ∧
     ((∀ n, liveBody st .settings 2 ≠ some (.acqLimit n)) → after.arb.acqLimit = c.arb.acqLimit) ∧
     (∀ n, liveBody st .settings 3 = some (.sweepInterval n) → after.guide = { c.guide with
       interval := n, sweep := { w with timer := { w.timer with reload := n * 60000 } } }) ∧
     ((∀ n, liveBody st .settings 3 ≠ some (.sweepInterval n)) → after.guide = c.guide)) ∧
  (∀ c : Core,
     let st := c.store
     let a := c.access
     let x := (loadAccess c).access
     ((∀ f, a.issue ≠ .locked f) → loadAccess c = c) ∧
     (∀ f, a.issue = .locked f →
       loadAccess c = { c with access := { a with packages := x.packages, events := x.events, cut := x.cut, last := x.last } } ∧
       (∀ l, liveBody st .package 0 = some (.packages l) → x.packages = l) ∧
       ((∀ l, liveBody st .package 0 ≠ some (.packages l)) → x.packages = a.packages) ∧
       (∀ l, liveBody st .eventGrant 0 = some (.eventGrants l) → x.events = l) ∧
       ((∀ l, liveBody st .eventGrant 0 ≠ some (.eventGrants l)) → x.events = a.events) ∧
       (∀ cut last, liveBody st .bulletinNumbers 0 = some (.bulletinNumbers cut last) → x.cut = cut ∧ x.last = last) ∧
       ((∀ cut last, liveBody st .bulletinNumbers 0 ≠ some (.bulletinNumbers cut last)) → x.cut = a.cut ∧ x.last = a.last))) ∧
  (∀ c : Core,
     let st := c.store
     let u := c.uplink
     let d := loadCredit c
     let p := d.purchase
     let stored := storedPurchases st
     let locked := ∃ f, c.access.issue = .locked f
     let loaded := loadedPurchases c
     let again := loaded.filter fun x => afterOpt x.1.seq p.charged
     let unacked := loaded.filter fun x => afterOpt x.1.seq p.acked
     let replayed := again.foldl replay d
     let newest := stored.getLast?.map (·.1.seq)
     let done := { replayed with purchase := { replayed.purchase with
       log := unacked.map fun x => { x.1 with reported := false }, nextSeq := ((newest <|> p.acked).map (· + 1)).getD 1 } }
     (∀ m n, liveBody st .settings 5 = some (.uplink m n) → d.uplink.mode = m ∧ d.uplink.interval = n ∧ d.uplink.reportTimer.reload = n * 60000) ∧
     ((∀ m n, liveBody st .settings 5 ≠ some (.uplink m n)) → d.uplink = { u with parity := d.uplink.parity }) ∧
     (∀ b l x, locked → liveBody st .credit 0 = some (.credit b l x) → p.balance = b ∧ p.limit = l ∧ p.charged = x) ∧
     (¬locked ∨ (∀ b l x, liveBody st .credit 0 ≠ some (.credit b l x)) → p = { c.purchase with acked := p.acked }) ∧
     (∀ a y, liveBody st .logAck 0 = some (.logAck a y) → p.acked = a ∧ d.uplink.parity = y) ∧
     ((∀ a y, liveBody st .logAck 0 ≠ some (.logAck a y)) → p.acked = c.purchase.acked ∧ d.uplink.parity = u.parity) ∧
     d = { c with purchase := p, uplink := d.uplink } ∧ (locked → loaded = stored) ∧ (¬locked → loaded = []) ∧
     (∀ y ∈ allRecords st, ∀ r g b l, y.2.body = .purchase r g b l → liveIn st (allRecords st) y.2.key = some y → (r, g) ∈ stored) ∧
     (∀ x ∈ stored, ∃ y ∈ allRecords st, ∃ b l, y.2.body = .purchase x.1 x.2 b l ∧ liveIn st (allRecords st) y.2.key = some y) ∧
     (∀ r g e, (replay e (r, g)).purchase = { e.purchase with balance := e.purchase.balance - r.price, charged := some r.seq } ∧
       replay e (r, g) = { e with purchase := (replay e (r, g)).purchase, access := { e.access with events := (replay e (r, g)).access.events } } ∧
       (e.access.events.length < 24 ∨ (∃ x ∈ e.access.events, x.lcn = g.lcn ∧ x.event = g.event) →
         (replay e (r, g)).access.events = installGrant g e.access.events) ∧
       (24 ≤ e.access.events.length → (∀ x ∈ e.access.events, x.lcn = g.lcn → x.event ≠ g.event) →
         (replay e (r, g)).access.events = installGrant g e.access.events.tail)) ∧
     loadPurchases c = dueTest (becameUnreported 0 (if again = [] then done else commitGroup true done))) ∧
  (∀ c : Core,
     let st := c.store
     let after := loadLimits c
     let l := after.limits
     let used := fun n : Fin 6 => match liveBody st .usedToday 0 with
       | some (.usedToday u d) => if d = c.clock.today ∧ c.clock.today ≠ none then u.get n else 0
       | _ => 0
     let present := fun n : Nat => if (profileOf after n).isSome = true then n else 0
     profileOf after 0 = some ⟨7, 1440, 0, [], 1000000⟩ ∧
     (∀ n : Fin 6, n ≠ 0 →
       (∀ p, liveBody st .profile n.val = some (.profile (some p)) → profileOf after n.val = some { p with used := min (used n) p.allowance }) ∧
       ((∀ p, liveBody st .profile n.val ≠ some (.profile (some p))) → profileOf after n.val = none)) ∧
     (∀ p n, liveBody st .pin 0 = some (.pin p n) → l.pin = p ∧ l.count = n ∧
       (n = 3 → l.lockout = ⟨900000, 900000, true⟩ ∧
         after.link = (post (.pinLockout .reset 15) c).link) ∧ (n ≠ 3 → l.lockout = c.limits.lockout ∧ after.link = c.link)) ∧
     ((∀ p n, liveBody st .pin 0 ≠ some (.pin p n)) →
       l.pin = c.limits.pin ∧ l.count = c.limits.count ∧ l.lockout = c.limits.lockout ∧ after.link = c.link) ∧
     (∀ x, liveBody st .lockList 0 = some (.lockList x) → l.lockList = x) ∧
     ((∀ x, liveBody st .lockList 0 ≠ some (.lockList x)) → l.lockList = c.limits.lockList) ∧
     (∀ a b, liveBody st .settings 4 = some (.roomDefaults a b) →
       context after .a = { context c .a with default := present a, active := present a } ∧
       context after .b = { context c .b with default := present b, active := present b }) ∧
     ((∀ a b, liveBody st .settings 4 ≠ some (.roomDefaults a b)) → ∀ r, context after r = context c r) ∧
     l.minute = ⟨60000, 60000, true⟩ ∧ l.failFlag = c.limits.failFlag ∧ l.owed = c.limits.owed) ∧
  (∀ c : Core,
     (∀ m gap key, liveBody c.store .settings 7 = some (.link m gap key) →
       loadLink c = { c with link := { c.link.withMode m gap with powerKey := key } }) ∧
     ((∀ m gap key, liveBody c.store .settings 7 ≠ some (.link m gap key)) → loadLink c = c)) ∧
  ∀ (notBlank : List PageNo) (s : State),
    let c0 := s.core
    let st := scanned notBlank c0.store
    (c0.store.state ≠ .scanning → exec (.startUpScanDone notBlank) s = .next s) ∧
    (c0.store.state = .scanning →
      exec (.startUpScanDone notBlank) s = .next { s with core := watchTest (afterLoads (loadLink (loadLimits (loadPurchases (loadAccess
        (loadSettings (loadDirectory (loadClock (leaveScanning ((retiringPages c0.store).find? fun p => notBlank.contains p)
          (postReady { c0 with store := st })))))))))) }) ∧
    (c0.store.state = .scanning → ∃ c, exec (.startUpScanDone notBlank) s = .next { s with core := c } ∧
      c.store.state ≠ .scanning ∧
      c.link.notices.head? = some ⟨c0.clock.time.isSome, c0.clock.time.getD c0.link.refSeconds, .ready c0.link.cause⟩ ∧
      (st.floor = 0 →
        (∀ p, page c.store p = page st p ∧
          ((page c0.store p).state = .retiring → p ∉ notBlank → page st p = .blank) ∧
          ((page c0.store p).state = .erased ∨ (page c0.store p).state = .full → page st p = page c0.store p)) ∧
        c.store.nextSerial = st.nextSerial ∧
        (∀ p, (page c0.store p).state = .retiring → p ∈ notBlank → c.store.state = .fault) ∧
        ((∀ p, (page c0.store p).state = .retiring → p ∉ notBlank) → 4 ≤ erasedCount st → c.store.state = .idle)) ∧
      (st.floor = 0 ↔ ∀ p n, 0 < n → .wipeMark n true ∉ (page c0.store p).entries) ∧
      (∀ p n, .wipeMark n true ∈ (page c0.store p).entries → n ≤ st.floor) ∧
      (∀ key x, liveRecord st key = some x → st.floor ≤ x.2.serial) ∧
      (∀ b bs, st.floor ≠ 0 →
        ([0, 1, 2, 3, 4, 5, 6, 7] : List (Fin 8)).filter (fun n => decide (∃ p : Fin 128, p.val / 16 = n.val ∧ page st p ≠ .blank)) = b :: bs →
        c.store = { st with state := .wiping, activity := .bankErase b, banks := bs
                            wipeFailed := decide (∃ p : Fin 128, (page c0.store p).state = .retiring ∧ p ∈ notBlank) }))

/-- A directory segment is discarded, joins the assembly of its version, or completes it; what an abandoned assembly leaves as its expected last
number is the model's choice (log 26). The version swapped in keeps the carriers in range and the channels on carriers kept, in their orders: what
is kept stands in the segments and passes the tests, and an entry that passes them is kept when it is the first of its number or LCN (an entry
that is itself dropped counts as read, the model's reading, log 37) and no 600 channels of lower LCN are; the guide carrier is the one of segment 0
when it is kept. CHANNELS_CHANGED is posted with the counts, then the snapshot starts, the tuners are renumbered, and the change report goes to the
sessions and the lock list. The snapshot becomes owed in full: the parts of 16 channels, then the header. An owed part that the queue takes is owed no longer; STORE_FULL or
STORE_FAULT ends the snapshot. With nothing owed an offer does nothing; an owed LAST_DAY that the queue takes is owed no longer, and stays owed
while the queue is full. -/
def Obligations.OwedCommitsOffered : Prop :=
  (∀ (h : SegmentHeader) (guide : Option Nat) (carriers : List CarrierEntry) (channels : List ChannelEntry) (c : Core),
     let d := c.dir
     let after := takeDirectory h guide carriers channels c
     let begun := if d.asmVersion = some h.version ∧ d.asmLast = h.last then d.asmArea else []
     let area := ⟨h.number, guide, carriers, channels⟩ :: begun
     let joined := { c with dir := { d with asmVersion := some h.version, asmLast := h.last, asmArea := area } }
     let all := ∀ n, n ≤ h.last → ∃ p ∈ area, p.number = n
     let taken := d.version ≠ some h.version ∧ h.last < 40 ∧ h.number ≤ h.last
     (d.version = some h.version → after = { c with dir := { d with asmVersion := none, asmLast := 0, asmArea := [] } }) ∧
     (d.version ≠ some h.version → 40 ≤ h.last ∨ h.last < h.number → after = c) ∧
     (taken → (∃ p ∈ begun, p.number = h.number) → after = c) ∧
     (taken → (∀ p ∈ begun, p.number ≠ h.number) → (¬all → after = joined) ∧ (all → after = swapIn h.version area joined))) ∧
  (∀ (version : Nat) (area : List AreaPart) (c : Core),
     let d : Directory := (swapIn version area c).dir
     d.version = some version ∧ d.asmVersion = none ∧ d.asmLast = 0 ∧ d.asmArea = [] ∧ d.home = c.dir.home ∧
     d.map.length ≤ 600 ∧ d.map.Pairwise (fun a b => a.lcn < b.lcn) ∧ d.carriers.Pairwise (fun a b => a.number < b.number) ∧
     (∀ x ∈ d.carriers, 48000 ≤ x.carrier.freq ∧ x.carrier.freq ≤ 1002000 ∧ ∃ p ∈ area, x ∈ p.carriers) ∧
     (∀ e ∈ d.map, 1 ≤ e.lcn ∧ e.lcn ≤ 9999 ∧ e.service ≠ 0 ∧ (∃ x ∈ d.carriers, x.number = e.carrierNo) ∧
       (e.kind = .subscribed → e.packages ≠ []) ∧ e.packages.Nodup ∧
       ∃ p ∈ area, ∃ y ∈ p.channels, { y with packages := e.packages } = e ∧ ∀ n, n ∈ e.packages ↔ n ∈ y.packages) ∧
     (∀ n, d.guideCarrier = some n → (∃ x ∈ d.carriers, x.number = n) ∧ ∃ p ∈ area, p.number = 0 ∧ p.guide = some n) ∧
     (∀ parts : List AreaPart, parts.Perm area → parts.Pairwise (fun a b => a.number < b.number) →
       let carriers : List CarrierEntry := parts.flatMap (·.carriers)
       let channels : List ChannelEntry := parts.flatMap (·.channels)
       let cls : Nat → ChangeClass × Option Carrier × Option Carrier := classify c.dir.map d.map c.dir.carriers d.carriers
       (∀ (before : List CarrierEntry) (x : CarrierEntry) (after : List CarrierEntry), carriers = before ++ x :: after → (∀ y ∈ before, y.number ≠ x.number) →
         48000 ≤ x.carrier.freq → x.carrier.freq ≤ 1002000 → x ∈ d.carriers) ∧
       (∀ x ∈ d.carriers, ∃ before after : List CarrierEntry, carriers = before ++ x :: after ∧ ∀ y ∈ before, y.number ≠ x.number) ∧
       (∀ (before : List ChannelEntry) (e : ChannelEntry) (after : List ChannelEntry), channels = before ++ e :: after → (∀ y ∈ before, y.lcn ≠ e.lcn) → 1 ≤ e.lcn → e.lcn ≤ 9999 → e.service ≠ 0 →
         (∃ x ∈ d.carriers, x.number = e.carrierNo) → (e.kind = .subscribed → e.packages ≠ []) →
         (∃ y ∈ d.map, { y with packages := e.packages } = e ∧ y.packages.Sublist e.packages ∧ ∀ n ∈ e.packages, n ∈ y.packages) ∨
           (d.map.length = 600 ∧ ∀ y ∈ d.map, y.lcn < e.lcn)) ∧
       (∀ p n, p ∈ area → p.number = 0 → p.guide = some n → (∃ x ∈ d.carriers, x.number = n) → d.guideCarrier = some n) ∧
       swapIn version area c = watchTest (reportToLocks (fun l => (cls l).1 == .vanished) (reportToSessions cls
         ([(0 : Fin 4), 1, 2, 3].foldl renumberTuner (startSnapshot
           (post (.channelsChanged version d.carriers.length d.map.length (carriers.length - d.carriers.length) (channels.length - d.map.length))
             { c with dir := { d with owed := c.dir.owed } })))))) ∧
     (∀ t, let u := tuner c t
       (u.state = .off → renumberTuner c t = c) ∧
       (u.state ≠ .off → renumberTuner c t = setTuner t { u with number := u.carrier.bind (numberOf c) } c))) ∧
  (∀ (before after : List ChannelEntry) (carriers list : List CarrierEntry) (lcn : Nat),
     let cls := classify before after carriers list lcn
     let is := fun (l : List ChannelEntry) (x : Option ChannelEntry) => l.find? (·.lcn == lcn) = x
     (∀ a, is before (some a) → is after none → cls.1 = .vanished) ∧ (∀ b, is before none → is after (some b) → cls.1 = .added) ∧
     (is before none → is after none → cls.1 = .unchanged) ∧
     (∀ a b, is before (some a) → is after (some b) →
       let x := resolveIn carriers a.carrierNo
       let y := resolveIn list b.carrierNo
       (x ≠ y → cls = (.moved, x, y)) ∧
       (x = y → a.service ≠ b.service → cls.1 = .renumbered) ∧
       (x = y → a.service = b.service → { a with carrierNo := b.carrierNo } ≠ b → cls.1 = .altered) ∧
       (x = y → { a with carrierNo := b.carrierNo } = b → cls.1 = .unchanged))) ∧
  (∀ (c : Core),
     let d := c.dir
     let parts := (d.map.length + 15) / 16
     let full := (List.range parts).map (· + 1) ++ [0]
     let key := fun n : Nat => StoreKey.mk .directoryPart n
     let record := fun n : Nat => if n = 0 then RecordBody.directoryHeader d.version d.carriers d.guideCarrier parts
       else RecordBody.directoryPart d.version ((d.map.drop (16 * (n - 1))).take 16)
     let item := fun n : Nat => Item.mk (key n) [(key n, record n)] false
     startSnapshot c = full.foldl offerIndex { c with dir := { d with owed := full } } ∧
     (∀ n, n ∉ d.owed → offerIndex c n = c) ∧
     (∀ n c', n ∈ d.owed → Takes (item n) c c' → offerIndex c n = { c' with dir := { d with owed := d.owed.filter (· != n) } }) ∧
     (∀ n, n ∈ d.owed → (offer (item n) c).1 = .queueFull ∨ (offer (item n) c).1 = .duringWipe → offerIndex c n = c) ∧
     (∀ n, n ∈ d.owed → (offer (item n) c).1 = .storeFull ∨ (offer (item n) c).1 = .storeFault →
       offerIndex c n = { c with dir := { d with owed := [] } })) ∧
  ∀ s : State,
    let c0 := s.core
    let k := c0.clock
    let onlyDay := nothingOwed { c0 with clock := { k with owedDay := false } } ∧ k.owedDay = true
    (nothingOwed c0 → exec .owedCommitOffer s = .next s) ∧
    (∀ d c, onlyDay → k.today = some d → Takes ⟨⟨.lastDay, 0⟩, [(⟨.lastDay, 0⟩, .lastDay d)], false⟩ c0 c →
      exec .owedCommitOffer s = .next { s with core := { c with clock := { k with owedDay := false, owedBeforeDay := [] } } }) ∧
    (∀ d, onlyDay → k.today = some d → (offer ⟨⟨.lastDay, 0⟩, [(⟨.lastDay, 0⟩, .lastDay d)], false⟩ c0).1 = .queueFull →
      exec .owedCommitOffer s = .next s)

/-! ## Clock and Bookings -/

/-- The bookings are judged one by one in the order of the list. A recording is DUE at its wake lead, starts at its start, runs on past its end
while its event is present by marker for 7200 s at most, is DONE at its end with its output stopped, and is MISSED when it can no longer start; a
reminder is told at its lead and DONE at its start; a settled booking leaves the list a day after its end. A recording starts on the output it
names, or an idle one, or one the host uses, and is in CONFLICT with none; its channel may be gone. The outcome of its change may make it MISSED. ADD
BOOKING of a recording or a reminder by its times, and DROP BOOKING: their checks in order, and the list after the commit is taken, stated for a booking that is not yet to be DUE. The model's choices: BOOKING_STATE
posted again for a recording resumed after a reset (log 36), the commit of a settled booking's removal (log 44), a span without its end instant in
the CONFLICT test (log 82), DONE for a reminder already DUE past its end (log 83), TIME for a reminder MISSED (log 84), and a dropped booking that
leaves the list before its output is stopped (log 49). A refusal of DROP BOOKING's commit with STORE_FULL or STORE_FAULT clears the booking's owed mark. -/
def Obligations.BookingListChanges : Prop :=
  (∀ (now : Nat) (b : Booking) (c : Core), findBooking c b.id = some b →
     let k := c.clock
     let after := judgeBooking now c b.id
     let put := fun (x : Booking) (cause : Option MissedCause) (c : Core) => commitBooking x.id
       (post (.bookingState x.id x.kind x.lcn x.state x.inUse x.extended cause)
         { c with clock := { c.clock with bookings := placeBooking x c.clock.bookings } })
     let missed := fun cause => put { b with state := .missed, inUse := none, extended := false } (some cause) c
     let woken := fun c : Core => if c.clock.power = .standby then
         { c with clock := { c.clock with wake := true, causes := { c.clock.causes with booking := true } } } else c
     let due := { b with state := .due }
     let recording := fun x : BookingState => b.kind = .recording ∧ b.state = x
     let reminder := fun x : BookingState => b.kind = .reminder ∧ b.state = x
     let runs := now < b.finish + 7200 ∧ ∃ e, b.link = some e ∧ presentEvent c b.lcn = some ⟨e, true⟩
     (recording .waiting →
       (b.finish ≤ now → after = missed .time) ∧
       (now < b.finish → b.start ≤ now + k.wakeLead → now < b.start → after = woken (put due none c)) ∧
       (now < b.finish → b.start ≤ now → after = startAction due (woken (put due none c))) ∧
       (now < b.finish → now + k.wakeLead < b.start → after = c)) ∧
     (recording .due →
       (b.finish ≤ now → after = missed .time) ∧ (now < b.finish → b.start ≤ now → after = startAction b c) ∧
       (now < b.finish → now < b.start → after = c)) ∧
     (∀ o, recording .active → b.inUse = some o →
       (b.extended = false → now < b.finish → after = c) ∧
       (runs → b.extended = false → b.finish ≤ now → after = put { b with extended := true } none c) ∧
       (runs → b.extended = true → after = c) ∧
       (¬runs → b.extended = true ∨ b.finish ≤ now →
         let x := { b with state := .done, inUse := none, extended := false }
         after = commitBooking b.id (post (.bookingState b.id b.kind b.lcn .done none false none)
           (stopSession o { c with clock := { k with bookings := placeBooking x k.bookings } })))) ∧
     (recording .active → b.inUse = none →
       (b.finish ≤ now → after = missed .reset) ∧ (now < b.finish → after = startAction b c)) ∧
     (reminder .waiting →
       (b.finish ≤ now → after = missed .time) ∧
       (now < b.finish → now + b.lead * 60 < b.start → after = c) ∧
       (now < b.finish → b.start ≤ now + b.lead * 60 →
         let told := post (.bookingDue b.id b.lcn b.link b.start) c
         let c1 := woken (commitBooking b.id { told with clock := { k with bookings := placeBooking due k.bookings } })
         (now < b.start → after = c1) ∧ (b.start ≤ now → after = put { b with state := .done } none c1))) ∧
     (reminder .due → (b.start ≤ now → after = put { b with state := .done } none c) ∧ (now < b.start → after = c)) ∧
     (b.state = .done ∨ b.state = .missed ∨ b.state = .conflict →
       (now < b.finish + 86400 → after = c) ∧
       (b.finish + 86400 ≤ now → after = commitBooking b.id { c with clock := { k with bookings := k.bookings.filter (·.id != b.id) } }))) ∧
  (∀ (b : Booking) (c : Core),
     let put := fun (x : Booking) (cause : Option MissedCause) (c : Core) => commitBooking x.id
       (post (.bookingState x.id x.kind x.lcn x.state x.inUse x.extended cause)
         { c with clock := { c.clock with bookings := placeBooking x c.clock.bookings } })
     let hosts := fun o : Output => (session c o).origin = .host
     let idle := fun o : Output => (session c o).state = .idle
     let chosen := fun o : Output =>
       (b.output = .record1 ∧ o = .record1 ∧ hosts o) ∨ (b.output = .record2 ∧ o = .record2 ∧ hosts o) ∨
       (b.output = .any ∧ ((o = .record1 ∧ idle o) ∨ (o = .record2 ∧ idle o ∧ ¬idle .record1) ∨
         (¬idle .record1 ∧ ¬idle .record2 ∧ ((o = .record1 ∧ hosts o) ∨ (o = .record2 ∧ hosts o ∧ ¬hosts .record1)))))
     ((∀ o, ¬chosen o) → startAction b c = put { b with state := .conflict } none c) ∧
     (∀ o, chosen o →
       (findChannel c b.lcn = none →
         startAction b c = put { b with state := .missed, inUse := none, extended := false } (some .noSuch) c) ∧
       (∀ e, findChannel c b.lcn = some e → startAction b c =
         beginChange o b.lcn e .untagged (.booking b.id) (.booking b.takesRoom) (session c o).change.inFlight
           (put { b with state := .active, inUse := some o, extended := false } none (supersede o c))))) ∧
  (∀ (id : Nat) (c : Core),
   (∀ outcome b, findBooking c id = some b → b.state = .active →
     let missed := fun cause => commitBooking b.id (post (.bookingState b.id b.kind b.lcn .missed none false (some cause))
       { c with clock := { c.clock with bookings := placeBooking { b with state := .missed, inUse := none, extended := false } c.clock.bookings } })
     (outcome = .noTuner → bookingOutcome id outcome c = missed .noTuner) ∧ (outcome = .noSignal → bookingOutcome id outcome c = missed .noSignal) ∧
     (outcome = .superseded ∨ outcome = .stopped → bookingOutcome id outcome c = missed .stopped) ∧
     (outcome = .presenting ∨ outcome = .held ∨ outcome = .noService → bookingOutcome id outcome c = c)) ∧
   (∀ outcome, (∀ b, findBooking c id = some b → b.state ≠ .active) → bookingOutcome id outcome c = c)) ∧
  (∀ c : Core, (c.clock.time = none → judgeBookings c = c) ∧
   (∀ now, c.clock.time = some now → judgeBookings c = (c.clock.bookings.map (·.id)).foldl (judgeBooking now) c)) ∧
  ∀ (tag : Byte) (s : State),
    let c0 := s.core
    let k := c0.clock
    (∀ a : AddBookingReq, Handled (.addBooking tag (some a)) s →
      let i := Instr.addBooking tag (some a)
      let answers := fun code => Replies i tag code .none c0 s
      let recording := a.kind = 1 ∧ (a.output = 2 ∨ a.output = 3 ∨ a.output = 4)
      let reminder := a.kind = 0 ∧ a.lead ≤ 30
      let formed := (recording ∨ reminder) ∧ 1 ≤ a.lcn ∧ a.lcn ≤ 9999
      let byEvent := fun e : Nat => a.event = some e ∧ a.start = none ∧ a.finish = none
      let byTimes := fun b e : Nat => a.event = none ∧ a.start = some b ∧ a.finish = some e ∧ b < e
      let spans := fun (b : Booking) (t : Nat) => b.kind = .recording ∧ (b.state = .waiting ∨ b.state = .due ∨ b.state = .active) ∧
        b.start ≤ t ∧ t < (if b.extended then k.time.getD b.finish else b.finish)
      (¬formed ∨ ((∀ e, ¬byEvent e) ∧ ∀ b e, ¬byTimes b e) → answers .badRequest) ∧
      (formed → (∃ b e, byTimes b e) ∨ (∃ e, byEvent e) → findChannel c0 a.lcn = none → answers .noSuch) ∧
      (∀ e, formed → byEvent e → findRecord c0 a.lcn e = none → answers .noSuch) ∧
      (∀ b e, formed → byTimes b e → (findChannel c0 a.lcn).isSome = true →
        let future := ∀ now, k.time = some now → now < e
        let twice := ∃ t, b ≤ t ∧ t < e ∧ ∃ x y, x ∈ k.bookings ∧ y ∈ k.bookings ∧ x.id ≠ y.id ∧ spans x t ∧ spans y t
        (¬future → answers .badRequest) ∧ (future → 32 ≤ k.bookings.length → answers .full) ∧
        (future → k.bookings.length < 32 → recording → twice → answers .conflict) ∧
        (∀ n, future → k.bookings.length < 32 → (reminder ∨ ¬twice) → (k.bookings.map (·.id)).Nodup →
          n = k.lastId % 255 + 1 → (∀ x ∈ k.bookings, x.id ≠ n) →
          (∀ now, k.time = some now → now + (if a.kind = 1 then k.wakeLead else a.lead * 60) < b) →
          let x : Booking :=
            { id := n, kind := if a.kind = 1 then .recording else .reminder, lcn := a.lcn, link := none, start := b, finish := e
              lead := if a.kind = 1 then 0 else a.lead
              output := if a.kind = 1 then (if a.output = 2 then .record1 else if a.output = 3 then .record2 else .any) else .any
              inUse := none, takesRoom := if a.kind = 1 then a.takesRoom else false, extended := false, state := .waiting }
          let item := Item.mk ⟨.booking, n⟩ [(⟨.booking, n⟩, .booking (some x))] false
          (∀ c, Takes item c0 c → Replies i tag .ok (.bookingId n) { c with clock := { k with
            bookings := placeBooking x k.bookings, lastId := n, owedBookings := k.owedBookings.filter (· != n)
            owedBeforeDay := k.owedBeforeDay.filter (· != n) } } s) ∧
          ((offer item c0).1 = .queueFull ∨ (offer item c0).1 = .duringWipe → answers .busy) ∧
          ((offer item c0).1 = .storeFull → answers .storeFull) ∧ ((offer item c0).1 = .storeFault → answers .storeFault)))) ∧
    (∀ n, Handled (.dropBooking tag (some n)) s →
      let i := Instr.dropBooking tag (some n)
      (n < 1 ∨ 255 < n → Replies i tag .badRequest .none c0 s) ∧
      (1 ≤ n → n ≤ 255 → (∀ b ∈ k.bookings, b.id ≠ n) → Replies i tag .noSuch .none c0 s) ∧
      (∀ b, 1 ≤ n → n ≤ 255 → b ∈ k.bookings → b.id = n → (k.bookings.map (·.id)).Nodup →
        let unowed := fun c : Core => { c with clock := { c.clock with
          owedBookings := c.clock.owedBookings.filter (· != n), owedBeforeDay := c.clock.owedBeforeDay.filter (· != n) } }
        OwedSettingTable i tag ⟨⟨.booking, n⟩, [(⟨.booking, n⟩, .booking none)], false⟩
          (fun c =>
            let c' := unowed { c with clock := { c.clock with bookings := c.clock.bookings.filter (·.id != n) } }
            match b.state, b.inUse with
            | .active, some o => stopSession o c'
            | _, _ => c') unowed c0 s))

/-- STANDBY and RESUME. Entering STANDBY stops both rooms, restarts their contexts, and asserts WAKE when a booking is DUE, stated while
no recording runs on past its end; RESUME clears WAKE with its causes and ends the standby-watch hold, stated while standby watch holds
no tuner. -/
def Obligations.PowerStateChanges : Prop :=
  ∀ (tag : Byte) (s : State),
    let c0 := s.core
    let k := c0.clock
    let down := Instr.standby tag (some ())
    let up := Instr.resume tag (some ())
    (Handled down s →
      (k.power = .standby → Replies down tag .ok .none c0 s) ∧
      (k.power = .active → noneExtended c0 → ∃ c, Replies down tag .ok .none c s ∧ TunersOnly c0 c ∧
        c.clock.power = .standby ∧ session c .roomA = .idle ∧ session c .roomB = .idle ∧
        (∀ r, context c r = ⟨(context c0 r).default, (context c0 r).default, none, none⟩) ∧
        ((∃ b ∈ k.bookings, b.state = .due) → c.clock.wake = true ∧ c.clock.causes = ⟨true, false, false⟩) ∧
        ((∀ b ∈ k.bookings, b.state ≠ .due) → c.clock.wake = k.wake ∧ c.clock.causes = ⟨false, false, false⟩))) ∧
    (Handled up s →
      (k.power = .active → Replies up tag .ok .none c0 s) ∧
      (k.power = .standby → heldTuner c0 .watch = none → Replies up tag .ok .none { c0 with clock := { k with
        power := .active, wake := false, causes := ⟨false, false, false⟩, hold := { k.hold with running := false } } } s))

/-- CLOCK_SECOND: the reference seconds rise by one and a second comes off every running timer, whatever the clock (the model's choice,
log 8). While the clock is UNSET nothing else changes; while it is SET network time rises by one, today follows the local day, floored before
day 0 (the model's choice, log 26), and then, in the model's order (log 12), the rollover is tested, the event grants expire and the markers
not in use go, at a minute the records past their end are purged, the present events are tested, at a minute the Limit Unit judges, and the
bookings and the alarm are judged. A time segment sets the clock, leaves it, corrects it or makes it jump by the size of the difference;
what the first setting leaves as the last correction is a free value (log 23). -/
def Obligations.ClockSecondPasses : Prop :=
  (∀ (t : Nat) (offset : Option Int) (c : Core),
     let k := c.clock
     let heard := { c with clock := { k with broadcast := offset.getD k.broadcast } }
     let force := k.zone.getD (offset.getD k.broadcast)
     let put := fun d : Option Int => { heard with clock := { heard.clock with time := some t, lastCorrection := d } }
     let judged := fun c : Core => limitClockChanged (judgeAlarm (judgeBookings (testRollover c)))
     let inRange := ∀ n, offset = some n → -720 ≤ n ∧ n ≤ 840
     let after := takeTime t offset c
     (¬inRange → after = c) ∧
     (inRange → k.time = none → after.clock.time = some t ∧
       ∃ d, after = judged (post (.clockSet t none force) { put d with free := c.free + 1 })) ∧
     (∀ now d, inRange → k.time = some now → d = (t : Int) - (now : Int) →
       (-1 ≤ d → d ≤ 1 → (force = k.zone.getD k.broadcast → after = heard) ∧
         (force ≠ k.zone.getD k.broadcast → after = limitClockChanged (testRollover heard))) ∧
       (d < -1 ∨ 1 < d → after.clock.time = some t) ∧
       (-60 ≤ d → d ≤ 60 → d < -1 ∨ 1 < d → after = judged (put (some d))) ∧
       (d < -60 ∨ 60 < d → after = judged (post (.clockSet t (some d) force) (put (some d)))))) ∧
  ∀ s : State,
    let c0 := s.core
    let k := c0.clock
    let less := fun t : Timer => if t.running = true then { t with left := t.left - 1000 } else t
    let day := fun t : Nat => Int.fdiv ((t : Int) + k.zone.getD k.broadcast * 60) 86400
    let u := c0.uplink
    let judged := fun c : Core => judgeAlarm (judgeBookings c)
    let expired := fun (t : Nat) (c : Core) => dropUnusedMarkers (expireEvents t (testRollover c))
    ∃ d c : Core, exec .clockSecond s = .next { s with core := c } ∧
      (∀ t, tuner d t = { tuner c0 t with acq := less (tuner c0 t).acq, loss := less (tuner c0 t).loss }) ∧
      (∀ o, session d o = { session c0 o with laneWait := less (session c0 o).laneWait, keyWait := less (session c0 o).keyWait }) ∧
      (∀ n, keySlot d n = { keySlot c0 n with life := less (keySlot c0 n).life }) ∧
      d = { c0 with
        arb := { c0.arb with tuners := d.arb.tuners }, rooms := { c0.rooms with sessions := d.rooms.sessions }, keys := d.keys
        guide := { c0.guide with sweep := { c0.guide.sweep with
          timer := less c0.guide.sweep.timer, limit := less c0.guide.sweep.limit } }
        limits := { c0.limits with lockout := less c0.limits.lockout, minute := less c0.limits.minute }
        uplink := { u with
          answerWait := less u.answerWait, retry := less u.retry, ackWait := less u.ackWait, backoff := less u.backoff
          quietTimer := less u.quietTimer, reportTimer := less u.reportTimer }
        clock := { k with hold := less k.hold }
        link := { c0.link with gapTimer := less c0.link.gapTimer, refSeconds := c0.link.refSeconds + 1 } } ∧
      (k.time = none → c = d) ∧
      (∀ t, k.time = some t →
        let ticked := { d with clock := { d.clock with time := some (t + 1) } }
        ((t + 1) % 60 ≠ 0 → c = judged (testPresent (expired (t + 1) ticked))) ∧
        ((t + 1) % 60 = 0 → c = judged (limitMinute (testPresent (minutePurge (expired (t + 1) ticked)))))) ∧
      c.link.refSeconds = c0.link.refSeconds + 1 ∧ c.clock.zone = k.zone ∧ c.clock.broadcast = k.broadcast ∧ c.clock.power = k.power ∧
      (∀ t, k.time = some t → c.clock.time = some (t + 1) ∧
        (k.today = none ∨ (∃ d, k.today = some d ∧ d < day (t + 1)) → c.clock.today = some (day (t + 1))) ∧
        (∀ d, k.today = some d → day (t + 1) ≤ d → c.clock.today = some d))
end

