-- ==== Sys2Proof/Laws/State.lean ====
section
/-! SUPPORT. What each named update does to each block: one lemma for each block and update, so that no proof unfolds a record
update; and what reading a numbered record gives after writing one. -/

namespace Sys2Proof.Machine

open Sys2Proof

/-! ## setSession -/

section

variable (c : Core) (x : Session) (o : Output)

@[simp] theorem setSession_dir : (setSession o x c).dir = c.dir := rfl
@[simp] theorem setSession_arb : (setSession o x c).arb = c.arb := rfl
@[simp] theorem setSession_slots : (setSession o x c).slots = c.slots := rfl
@[simp] theorem setSession_rooms : (setSession o x c).rooms = { c.rooms with sessions := putAt c.rooms.sessions (Output.idx o) x } := rfl
@[simp] theorem setSession_keys : (setSession o x c).keys = c.keys := rfl
@[simp] theorem setSession_access : (setSession o x c).access = c.access := rfl
@[simp] theorem setSession_guide : (setSession o x c).guide = c.guide := rfl
@[simp] theorem setSession_limits : (setSession o x c).limits = c.limits := rfl
@[simp] theorem setSession_purchase : (setSession o x c).purchase = c.purchase := rfl
@[simp] theorem setSession_uplink : (setSession o x c).uplink = c.uplink := rfl
@[simp] theorem setSession_store : (setSession o x c).store = c.store := rfl
@[simp] theorem setSession_clock : (setSession o x c).clock = c.clock := rfl
@[simp] theorem setSession_link : (setSession o x c).link = c.link := rfl
@[simp] theorem setSession_free : (setSession o x c).free = c.free := rfl

end

/-! ## setLaneMap -/

section

variable (c : Core) (x : LaneMap) (t : Fin 4)

@[simp] theorem setLaneMap_dir : (setLaneMap t x c).dir = c.dir := rfl
@[simp] theorem setLaneMap_arb : (setLaneMap t x c).arb = c.arb := rfl
@[simp] theorem setLaneMap_slots : (setLaneMap t x c).slots = c.slots := rfl
@[simp] theorem setLaneMap_rooms : (setLaneMap t x c).rooms = { c.rooms with laneMaps := putAt c.rooms.laneMaps t x } := rfl
@[simp] theorem setLaneMap_keys : (setLaneMap t x c).keys = c.keys := rfl
@[simp] theorem setLaneMap_access : (setLaneMap t x c).access = c.access := rfl
@[simp] theorem setLaneMap_guide : (setLaneMap t x c).guide = c.guide := rfl
@[simp] theorem setLaneMap_limits : (setLaneMap t x c).limits = c.limits := rfl
@[simp] theorem setLaneMap_purchase : (setLaneMap t x c).purchase = c.purchase := rfl
@[simp] theorem setLaneMap_uplink : (setLaneMap t x c).uplink = c.uplink := rfl
@[simp] theorem setLaneMap_store : (setLaneMap t x c).store = c.store := rfl
@[simp] theorem setLaneMap_clock : (setLaneMap t x c).clock = c.clock := rfl
@[simp] theorem setLaneMap_link : (setLaneMap t x c).link = c.link := rfl
@[simp] theorem setLaneMap_free : (setLaneMap t x c).free = c.free := rfl

end

/-! ## setContext -/

section

variable (c : Core) (x : RoomContext) (r : Room)

@[simp] theorem setContext_dir : (setContext r x c).dir = c.dir := rfl
@[simp] theorem setContext_arb : (setContext r x c).arb = c.arb := rfl
@[simp] theorem setContext_slots : (setContext r x c).slots = c.slots := rfl
@[simp] theorem setContext_rooms : (setContext r x c).rooms = { c.rooms with contexts := putAt c.rooms.contexts (Room.idx r) x } := rfl
@[simp] theorem setContext_keys : (setContext r x c).keys = c.keys := rfl
@[simp] theorem setContext_access : (setContext r x c).access = c.access := rfl
@[simp] theorem setContext_guide : (setContext r x c).guide = c.guide := rfl
@[simp] theorem setContext_limits : (setContext r x c).limits = c.limits := rfl
@[simp] theorem setContext_purchase : (setContext r x c).purchase = c.purchase := rfl
@[simp] theorem setContext_uplink : (setContext r x c).uplink = c.uplink := rfl
@[simp] theorem setContext_store : (setContext r x c).store = c.store := rfl
@[simp] theorem setContext_clock : (setContext r x c).clock = c.clock := rfl
@[simp] theorem setContext_link : (setContext r x c).link = c.link := rfl
@[simp] theorem setContext_free : (setContext r x c).free = c.free := rfl

end

/-! ## setTuner -/

section

variable (c : Core) (x : Tuner) (t : Fin 4)

@[simp] theorem setTuner_dir : (setTuner t x c).dir = c.dir := rfl
@[simp] theorem setTuner_arb : (setTuner t x c).arb = { c.arb with tuners := putAt c.arb.tuners t x } := rfl
@[simp] theorem setTuner_slots : (setTuner t x c).slots = c.slots := rfl
@[simp] theorem setTuner_rooms : (setTuner t x c).rooms = c.rooms := rfl
@[simp] theorem setTuner_keys : (setTuner t x c).keys = c.keys := rfl
@[simp] theorem setTuner_access : (setTuner t x c).access = c.access := rfl
@[simp] theorem setTuner_guide : (setTuner t x c).guide = c.guide := rfl
@[simp] theorem setTuner_limits : (setTuner t x c).limits = c.limits := rfl
@[simp] theorem setTuner_purchase : (setTuner t x c).purchase = c.purchase := rfl
@[simp] theorem setTuner_uplink : (setTuner t x c).uplink = c.uplink := rfl
@[simp] theorem setTuner_store : (setTuner t x c).store = c.store := rfl
@[simp] theorem setTuner_clock : (setTuner t x c).clock = c.clock := rfl
@[simp] theorem setTuner_link : (setTuner t x c).link = c.link := rfl
@[simp] theorem setTuner_free : (setTuner t x c).free = c.free := rfl

end

/-! ## setSlot -/

section

variable (c : Core) (x : Slot) (i : Fin 16)

@[simp] theorem setSlot_dir : (setSlot i x c).dir = c.dir := rfl
@[simp] theorem setSlot_arb : (setSlot i x c).arb = c.arb := rfl
@[simp] theorem setSlot_slots : (setSlot i x c).slots = putAt c.slots i x := rfl
@[simp] theorem setSlot_rooms : (setSlot i x c).rooms = c.rooms := rfl
@[simp] theorem setSlot_keys : (setSlot i x c).keys = c.keys := rfl
@[simp] theorem setSlot_access : (setSlot i x c).access = c.access := rfl
@[simp] theorem setSlot_guide : (setSlot i x c).guide = c.guide := rfl
@[simp] theorem setSlot_limits : (setSlot i x c).limits = c.limits := rfl
@[simp] theorem setSlot_purchase : (setSlot i x c).purchase = c.purchase := rfl
@[simp] theorem setSlot_uplink : (setSlot i x c).uplink = c.uplink := rfl
@[simp] theorem setSlot_store : (setSlot i x c).store = c.store := rfl
@[simp] theorem setSlot_clock : (setSlot i x c).clock = c.clock := rfl
@[simp] theorem setSlot_link : (setSlot i x c).link = c.link := rfl
@[simp] theorem setSlot_free : (setSlot i x c).free = c.free := rfl

end

/-! ## setKeySlot -/

section

variable (c : Core) (x : KeySlot) (k : Fin 4)

@[simp] theorem setKeySlot_dir : (setKeySlot k x c).dir = c.dir := rfl
@[simp] theorem setKeySlot_arb : (setKeySlot k x c).arb = c.arb := rfl
@[simp] theorem setKeySlot_slots : (setKeySlot k x c).slots = c.slots := rfl
@[simp] theorem setKeySlot_rooms : (setKeySlot k x c).rooms = c.rooms := rfl
@[simp] theorem setKeySlot_keys : (setKeySlot k x c).keys = putAt c.keys k x := rfl
@[simp] theorem setKeySlot_access : (setKeySlot k x c).access = c.access := rfl
@[simp] theorem setKeySlot_guide : (setKeySlot k x c).guide = c.guide := rfl
@[simp] theorem setKeySlot_limits : (setKeySlot k x c).limits = c.limits := rfl
@[simp] theorem setKeySlot_purchase : (setKeySlot k x c).purchase = c.purchase := rfl
@[simp] theorem setKeySlot_uplink : (setKeySlot k x c).uplink = c.uplink := rfl
@[simp] theorem setKeySlot_store : (setKeySlot k x c).store = c.store := rfl
@[simp] theorem setKeySlot_clock : (setKeySlot k x c).clock = c.clock := rfl
@[simp] theorem setKeySlot_link : (setKeySlot k x c).link = c.link := rfl
@[simp] theorem setKeySlot_free : (setKeySlot k x c).free = c.free := rfl

end

/-! ## setDir -/

section

variable (c : Core) (x : Directory)

@[simp] theorem setDir_dir : (setDir x c).dir = x := rfl
@[simp] theorem setDir_arb : (setDir x c).arb = c.arb := rfl
@[simp] theorem setDir_slots : (setDir x c).slots = c.slots := rfl
@[simp] theorem setDir_rooms : (setDir x c).rooms = c.rooms := rfl
@[simp] theorem setDir_keys : (setDir x c).keys = c.keys := rfl
@[simp] theorem setDir_access : (setDir x c).access = c.access := rfl
@[simp] theorem setDir_guide : (setDir x c).guide = c.guide := rfl
@[simp] theorem setDir_limits : (setDir x c).limits = c.limits := rfl
@[simp] theorem setDir_purchase : (setDir x c).purchase = c.purchase := rfl
@[simp] theorem setDir_uplink : (setDir x c).uplink = c.uplink := rfl
@[simp] theorem setDir_store : (setDir x c).store = c.store := rfl
@[simp] theorem setDir_clock : (setDir x c).clock = c.clock := rfl
@[simp] theorem setDir_link : (setDir x c).link = c.link := rfl
@[simp] theorem setDir_free : (setDir x c).free = c.free := rfl

end

/-! ## setLink -/

section

variable (c : Core) (x : Link)

@[simp] theorem setLink_dir : (setLink x c).dir = c.dir := rfl
@[simp] theorem setLink_arb : (setLink x c).arb = c.arb := rfl
@[simp] theorem setLink_slots : (setLink x c).slots = c.slots := rfl
@[simp] theorem setLink_rooms : (setLink x c).rooms = c.rooms := rfl
@[simp] theorem setLink_keys : (setLink x c).keys = c.keys := rfl
@[simp] theorem setLink_access : (setLink x c).access = c.access := rfl
@[simp] theorem setLink_guide : (setLink x c).guide = c.guide := rfl
@[simp] theorem setLink_limits : (setLink x c).limits = c.limits := rfl
@[simp] theorem setLink_purchase : (setLink x c).purchase = c.purchase := rfl
@[simp] theorem setLink_uplink : (setLink x c).uplink = c.uplink := rfl
@[simp] theorem setLink_store : (setLink x c).store = c.store := rfl
@[simp] theorem setLink_clock : (setLink x c).clock = c.clock := rfl
@[simp] theorem setLink_link : (setLink x c).link = x := rfl
@[simp] theorem setLink_free : (setLink x c).free = c.free := rfl

end

/-! ## setStore -/

section

variable (c : Core) (x : Store)

@[simp] theorem setStore_dir : (setStore x c).dir = c.dir := rfl
@[simp] theorem setStore_arb : (setStore x c).arb = c.arb := rfl
@[simp] theorem setStore_slots : (setStore x c).slots = c.slots := rfl
@[simp] theorem setStore_rooms : (setStore x c).rooms = c.rooms := rfl
@[simp] theorem setStore_keys : (setStore x c).keys = c.keys := rfl
@[simp] theorem setStore_access : (setStore x c).access = c.access := rfl
@[simp] theorem setStore_guide : (setStore x c).guide = c.guide := rfl
@[simp] theorem setStore_limits : (setStore x c).limits = c.limits := rfl
@[simp] theorem setStore_purchase : (setStore x c).purchase = c.purchase := rfl
@[simp] theorem setStore_uplink : (setStore x c).uplink = c.uplink := rfl
@[simp] theorem setStore_store : (setStore x c).store = x := rfl
@[simp] theorem setStore_clock : (setStore x c).clock = c.clock := rfl
@[simp] theorem setStore_link : (setStore x c).link = c.link := rfl
@[simp] theorem setStore_free : (setStore x c).free = c.free := rfl

end

/-! ## setClock -/

section

variable (c : Core) (x : Clock)

@[simp] theorem setClock_dir : (setClock x c).dir = c.dir := rfl
@[simp] theorem setClock_arb : (setClock x c).arb = c.arb := rfl
@[simp] theorem setClock_slots : (setClock x c).slots = c.slots := rfl
@[simp] theorem setClock_rooms : (setClock x c).rooms = c.rooms := rfl
@[simp] theorem setClock_keys : (setClock x c).keys = c.keys := rfl
@[simp] theorem setClock_access : (setClock x c).access = c.access := rfl
@[simp] theorem setClock_guide : (setClock x c).guide = c.guide := rfl
@[simp] theorem setClock_limits : (setClock x c).limits = c.limits := rfl
@[simp] theorem setClock_purchase : (setClock x c).purchase = c.purchase := rfl
@[simp] theorem setClock_uplink : (setClock x c).uplink = c.uplink := rfl
@[simp] theorem setClock_store : (setClock x c).store = c.store := rfl
@[simp] theorem setClock_clock : (setClock x c).clock = x := rfl
@[simp] theorem setClock_link : (setClock x c).link = c.link := rfl
@[simp] theorem setClock_free : (setClock x c).free = c.free := rfl

end

/-! ## setLimits -/

section

variable (c : Core) (x : Limits)

@[simp] theorem setLimits_dir : (setLimits x c).dir = c.dir := rfl
@[simp] theorem setLimits_arb : (setLimits x c).arb = c.arb := rfl
@[simp] theorem setLimits_slots : (setLimits x c).slots = c.slots := rfl
@[simp] theorem setLimits_rooms : (setLimits x c).rooms = c.rooms := rfl
@[simp] theorem setLimits_keys : (setLimits x c).keys = c.keys := rfl
@[simp] theorem setLimits_access : (setLimits x c).access = c.access := rfl
@[simp] theorem setLimits_guide : (setLimits x c).guide = c.guide := rfl
@[simp] theorem setLimits_limits : (setLimits x c).limits = x := rfl
@[simp] theorem setLimits_purchase : (setLimits x c).purchase = c.purchase := rfl
@[simp] theorem setLimits_uplink : (setLimits x c).uplink = c.uplink := rfl
@[simp] theorem setLimits_store : (setLimits x c).store = c.store := rfl
@[simp] theorem setLimits_clock : (setLimits x c).clock = c.clock := rfl
@[simp] theorem setLimits_link : (setLimits x c).link = c.link := rfl
@[simp] theorem setLimits_free : (setLimits x c).free = c.free := rfl

end

/-! ## setPurchase -/

section

variable (c : Core) (x : Purchase)

@[simp] theorem setPurchase_dir : (setPurchase x c).dir = c.dir := rfl
@[simp] theorem setPurchase_arb : (setPurchase x c).arb = c.arb := rfl
@[simp] theorem setPurchase_slots : (setPurchase x c).slots = c.slots := rfl
@[simp] theorem setPurchase_rooms : (setPurchase x c).rooms = c.rooms := rfl
@[simp] theorem setPurchase_keys : (setPurchase x c).keys = c.keys := rfl
@[simp] theorem setPurchase_access : (setPurchase x c).access = c.access := rfl
@[simp] theorem setPurchase_guide : (setPurchase x c).guide = c.guide := rfl
@[simp] theorem setPurchase_limits : (setPurchase x c).limits = c.limits := rfl
@[simp] theorem setPurchase_purchase : (setPurchase x c).purchase = x := rfl
@[simp] theorem setPurchase_uplink : (setPurchase x c).uplink = c.uplink := rfl
@[simp] theorem setPurchase_store : (setPurchase x c).store = c.store := rfl
@[simp] theorem setPurchase_clock : (setPurchase x c).clock = c.clock := rfl
@[simp] theorem setPurchase_link : (setPurchase x c).link = c.link := rfl
@[simp] theorem setPurchase_free : (setPurchase x c).free = c.free := rfl

end

/-! ## setUplinkState -/

section

variable (c : Core) (x : Uplink)

@[simp] theorem setUplinkState_dir : (setUplinkState x c).dir = c.dir := rfl
@[simp] theorem setUplinkState_arb : (setUplinkState x c).arb = c.arb := rfl
@[simp] theorem setUplinkState_slots : (setUplinkState x c).slots = c.slots := rfl
@[simp] theorem setUplinkState_rooms : (setUplinkState x c).rooms = c.rooms := rfl
@[simp] theorem setUplinkState_keys : (setUplinkState x c).keys = c.keys := rfl
@[simp] theorem setUplinkState_access : (setUplinkState x c).access = c.access := rfl
@[simp] theorem setUplinkState_guide : (setUplinkState x c).guide = c.guide := rfl
@[simp] theorem setUplinkState_limits : (setUplinkState x c).limits = c.limits := rfl
@[simp] theorem setUplinkState_purchase : (setUplinkState x c).purchase = c.purchase := rfl
@[simp] theorem setUplinkState_uplink : (setUplinkState x c).uplink = x := rfl
@[simp] theorem setUplinkState_store : (setUplinkState x c).store = c.store := rfl
@[simp] theorem setUplinkState_clock : (setUplinkState x c).clock = c.clock := rfl
@[simp] theorem setUplinkState_link : (setUplinkState x c).link = c.link := rfl
@[simp] theorem setUplinkState_free : (setUplinkState x c).free = c.free := rfl

end

/-! ## setGuide -/

section

variable (c : Core) (x : Guide)

@[simp] theorem setGuide_dir : (setGuide x c).dir = c.dir := rfl
@[simp] theorem setGuide_arb : (setGuide x c).arb = c.arb := rfl
@[simp] theorem setGuide_slots : (setGuide x c).slots = c.slots := rfl
@[simp] theorem setGuide_rooms : (setGuide x c).rooms = c.rooms := rfl
@[simp] theorem setGuide_keys : (setGuide x c).keys = c.keys := rfl
@[simp] theorem setGuide_access : (setGuide x c).access = c.access := rfl
@[simp] theorem setGuide_guide : (setGuide x c).guide = x := rfl
@[simp] theorem setGuide_limits : (setGuide x c).limits = c.limits := rfl
@[simp] theorem setGuide_purchase : (setGuide x c).purchase = c.purchase := rfl
@[simp] theorem setGuide_uplink : (setGuide x c).uplink = c.uplink := rfl
@[simp] theorem setGuide_store : (setGuide x c).store = c.store := rfl
@[simp] theorem setGuide_clock : (setGuide x c).clock = c.clock := rfl
@[simp] theorem setGuide_link : (setGuide x c).link = c.link := rfl
@[simp] theorem setGuide_free : (setGuide x c).free = c.free := rfl

end

/-! ## setEvents -/

section

variable (c : Core) (x : List EventGrant)

@[simp] theorem setEvents_dir : (setEvents x c).dir = c.dir := rfl
@[simp] theorem setEvents_arb : (setEvents x c).arb = c.arb := rfl
@[simp] theorem setEvents_slots : (setEvents x c).slots = c.slots := rfl
@[simp] theorem setEvents_rooms : (setEvents x c).rooms = c.rooms := rfl
@[simp] theorem setEvents_keys : (setEvents x c).keys = c.keys := rfl
@[simp] theorem setEvents_access : (setEvents x c).access = { c.access with events := x } := rfl
@[simp] theorem setEvents_guide : (setEvents x c).guide = c.guide := rfl
@[simp] theorem setEvents_limits : (setEvents x c).limits = c.limits := rfl
@[simp] theorem setEvents_purchase : (setEvents x c).purchase = c.purchase := rfl
@[simp] theorem setEvents_uplink : (setEvents x c).uplink = c.uplink := rfl
@[simp] theorem setEvents_store : (setEvents x c).store = c.store := rfl
@[simp] theorem setEvents_clock : (setEvents x c).clock = c.clock := rfl
@[simp] theorem setEvents_link : (setEvents x c).link = c.link := rfl
@[simp] theorem setEvents_free : (setEvents x c).free = c.free := rfl

end

/-! ## setPackages -/

section

variable (c : Core) (x : List PackageGrant)

@[simp] theorem setPackages_dir : (setPackages x c).dir = c.dir := rfl
@[simp] theorem setPackages_arb : (setPackages x c).arb = c.arb := rfl
@[simp] theorem setPackages_slots : (setPackages x c).slots = c.slots := rfl
@[simp] theorem setPackages_rooms : (setPackages x c).rooms = c.rooms := rfl
@[simp] theorem setPackages_keys : (setPackages x c).keys = c.keys := rfl
@[simp] theorem setPackages_access : (setPackages x c).access = { c.access with packages := x } := rfl
@[simp] theorem setPackages_guide : (setPackages x c).guide = c.guide := rfl
@[simp] theorem setPackages_limits : (setPackages x c).limits = c.limits := rfl
@[simp] theorem setPackages_purchase : (setPackages x c).purchase = c.purchase := rfl
@[simp] theorem setPackages_uplink : (setPackages x c).uplink = c.uplink := rfl
@[simp] theorem setPackages_store : (setPackages x c).store = c.store := rfl
@[simp] theorem setPackages_clock : (setPackages x c).clock = c.clock := rfl
@[simp] theorem setPackages_link : (setPackages x c).link = c.link := rfl
@[simp] theorem setPackages_free : (setPackages x c).free = c.free := rfl

end

/-! ## setAcqLimit -/

section

variable (c : Core) (x : Nat)

@[simp] theorem setAcqLimit_dir : (setAcqLimit x c).dir = c.dir := rfl
@[simp] theorem setAcqLimit_arb : (setAcqLimit x c).arb = { c.arb with acqLimit := x } := rfl
@[simp] theorem setAcqLimit_slots : (setAcqLimit x c).slots = c.slots := rfl
@[simp] theorem setAcqLimit_rooms : (setAcqLimit x c).rooms = c.rooms := rfl
@[simp] theorem setAcqLimit_keys : (setAcqLimit x c).keys = c.keys := rfl
@[simp] theorem setAcqLimit_access : (setAcqLimit x c).access = c.access := rfl
@[simp] theorem setAcqLimit_guide : (setAcqLimit x c).guide = c.guide := rfl
@[simp] theorem setAcqLimit_limits : (setAcqLimit x c).limits = c.limits := rfl
@[simp] theorem setAcqLimit_purchase : (setAcqLimit x c).purchase = c.purchase := rfl
@[simp] theorem setAcqLimit_uplink : (setAcqLimit x c).uplink = c.uplink := rfl
@[simp] theorem setAcqLimit_store : (setAcqLimit x c).store = c.store := rfl
@[simp] theorem setAcqLimit_clock : (setAcqLimit x c).clock = c.clock := rfl
@[simp] theorem setAcqLimit_link : (setAcqLimit x c).link = c.link := rfl
@[simp] theorem setAcqLimit_free : (setAcqLimit x c).free = c.free := rfl

end

/-! ## setBooking -/

section

variable (c : Core) (x : Booking)

@[simp] theorem setBooking_dir : (setBooking x c).dir = c.dir := rfl
@[simp] theorem setBooking_arb : (setBooking x c).arb = c.arb := rfl
@[simp] theorem setBooking_slots : (setBooking x c).slots = c.slots := rfl
@[simp] theorem setBooking_rooms : (setBooking x c).rooms = c.rooms := rfl
@[simp] theorem setBooking_keys : (setBooking x c).keys = c.keys := rfl
@[simp] theorem setBooking_access : (setBooking x c).access = c.access := rfl
@[simp] theorem setBooking_guide : (setBooking x c).guide = c.guide := rfl
@[simp] theorem setBooking_limits : (setBooking x c).limits = c.limits := rfl
@[simp] theorem setBooking_purchase : (setBooking x c).purchase = c.purchase := rfl
@[simp] theorem setBooking_uplink : (setBooking x c).uplink = c.uplink := rfl
@[simp] theorem setBooking_store : (setBooking x c).store = c.store := rfl
@[simp] theorem setBooking_clock : (setBooking x c).clock = { c.clock with bookings := placeBooking x c.clock.bookings } := rfl
@[simp] theorem setBooking_link : (setBooking x c).link = c.link := rfl
@[simp] theorem setBooking_free : (setBooking x c).free = c.free := rfl

end

/-! ## post -/

section

variable (c : Core) (x : NoticeBody)

@[simp] theorem post_dir : (post x c).dir = c.dir := rfl
@[simp] theorem post_arb : (post x c).arb = c.arb := rfl
@[simp] theorem post_slots : (post x c).slots = c.slots := rfl
@[simp] theorem post_rooms : (post x c).rooms = c.rooms := rfl
@[simp] theorem post_keys : (post x c).keys = c.keys := rfl
@[simp] theorem post_access : (post x c).access = c.access := rfl
@[simp] theorem post_guide : (post x c).guide = c.guide := rfl
@[simp] theorem post_limits : (post x c).limits = c.limits := rfl
@[simp] theorem post_purchase : (post x c).purchase = c.purchase := rfl
@[simp] theorem post_uplink : (post x c).uplink = c.uplink := rfl
@[simp] theorem post_store : (post x c).store = c.store := rfl
@[simp] theorem post_clock : (post x c).clock = c.clock := rfl
@[simp] theorem post_link : (post x c).link = c.link.join (stamped c x) := rfl
@[simp] theorem post_free : (post x c).free = c.free := rfl

end

/-! ## Reading after writing -/

@[simp] theorem putAt_same {α : Type} {n : Nat} (v : Vector α n) (i : Fin n) (x : α) : (putAt v i x).get i = x := by
  show (v.set i.val x i.isLt)[i.val] = x
  simp

theorem putAt_other {α : Type} {n : Nat} (v : Vector α n) {i j : Fin n} (x : α) (h : i ≠ j) :
    (putAt v i x).get j = v.get j := by
  have h' : i.val ≠ j.val := fun e => h (Fin.ext e)
  show (v.set i.val x i.isLt)[j.val] = v[j.val]
  simp [h']

theorem putAt_read {α : Type} {n : Nat} (v : Vector α n) (i j : Fin n) (x : α) :
    (putAt v i x).get j = if i = j then x else v.get j := by
  by_cases h : i = j
  · subst h; simp
  · simp [h, putAt_other v x h]

theorem Output.idx_inj {a b : Output} (h : Output.idx a = Output.idx b) : a = b := by cases a <;> cases b <;> simp_all [Output.idx]
theorem Room.idx_inj {p q : Room} (h : Room.idx p = Room.idx q) : p = q := by cases p <;> cases q <;> simp_all [Room.idx]

@[simp] theorem session_setSession (o : Output) (x : Session) (c : Core) : session (setSession o x c) o = x := by
  simp [session]
theorem session_setSession_ne {o p : Output} (x : Session) (c : Core) (h : o ≠ p) :
    session (setSession o x c) p = session c p := by
  simpa [session] using putAt_other _ x (fun e => h (Output.idx_inj e))
@[simp] theorem context_setContext (r : Room) (x : RoomContext) (c : Core) : context (setContext r x c) r = x := by
  simp [context]
theorem context_setContext_ne {r q : Room} (x : RoomContext) (c : Core) (h : r ≠ q) :
    context (setContext r x c) q = context c q := by
  simpa [context] using putAt_other _ x (fun e => h (Room.idx_inj e))
@[simp] theorem tuner_setTuner (t : Fin 4) (x : Tuner) (c : Core) : tuner (setTuner t x c) t = x := by simp [tuner]
theorem tuner_setTuner_ne {t u : Fin 4} (x : Tuner) (c : Core) (h : t ≠ u) : tuner (setTuner t x c) u = tuner c u := by
  simpa [tuner] using putAt_other _ x h
@[simp] theorem laneMap_setLaneMap (t : Fin 4) (x : LaneMap) (c : Core) : laneMap (setLaneMap t x c) t = x := by simp [laneMap]
@[simp] theorem slot_setSlot (i : Fin 16) (x : Slot) (c : Core) : slot (setSlot i x c) i = x := by simp [slot]
theorem slot_setSlot_ne {i j : Fin 16} (x : Slot) (c : Core) (h : i ≠ j) : slot (setSlot i x c) j = slot c j := by
  simpa [slot] using putAt_other _ x h
/-- A page after one page is written. -/
theorem page_setPage (p q : PageNo) (x : Page) (st : Store) : page (setPage p x st) q = if q = p then x else page st q := by
  unfold page setPage
  by_cases h : q = p
  · subst h; simp
  · rw [if_neg h]; exact putAt_other _ x fun e => h e.symm
/-- A page after an entry joins one page. -/
theorem page_addEntry (p q : PageNo) (e : PageEntry) (st : Store) :
    page (addEntry p e st) q = if q = p then { page st p with entries := (page st p).entries ++ [e] } else page st q := page_setPage p q _ st
/-- A page after the pages of a list are blanked. -/
theorem page_blankFold (q : PageNo) : ∀ (l : List PageNo) (st : Store),
    page (l.foldl (fun st p => setPage p .blank st) st) q = if q ∈ l then .blank else page st q
  | [], st => by simp
  | p :: l, st => by
    rw [List.foldl_cons, page_blankFold q l, page_setPage]
    by_cases h : q ∈ l <;> by_cases h' : q = p <;> simp [h, h']
/-- A page after a bank is blanked. -/
theorem page_blankBank (b : Fin 8) (q : PageNo) (st : Store) :
    page (blankBank b st) q = if q.val / 16 = b.val then .blank else page st q := by
  unfold blankBank
  rw [page_blankFold]
  have h : q ∈ allPages.filter (inBank b) ↔ q.val / 16 = b.val := by
    simp [allPages, inBank, bankOf, Fin.ext_iff]
  simp only [h]
@[simp] theorem keySlot_setKeySlot (k : Fin 4) (x : KeySlot) (c : Core) : keySlot (setKeySlot k x c) k = x := by simp [keySlot]
theorem keySlot_setKeySlot_ne {k m : Fin 4} (x : KeySlot) (c : Core) (h : k ≠ m) :
    keySlot (setKeySlot k x c) m = keySlot c m := by
  simpa [keySlot] using putAt_other _ x h

@[simp] theorem block_setBlock (k : Fin 8) (x : BlockState) (c : Core) : block (setBlock k x c) k = x := by
  show (putAt c.guide.blocks k x).get k = x; simp
theorem block_setBlock_ne {k j : Fin 8} (x : BlockState) (c : Core) (h : k ≠ j) : block (setBlock k x c) j = block c j :=
  putAt_other _ x h

@[simp] theorem session_setContext (r : Room) (x : RoomContext) (c : Core) (o : Output) :
    session (setContext r x c) o = session c o := rfl
@[simp] theorem context_setSession (o : Output) (x : Session) (c : Core) (r : Room) :
    context (setSession o x c) r = context c r := rfl
@[simp] theorem session_setLaneMap (t : Fin 4) (x : LaneMap) (c : Core) (o : Output) :
    session (setLaneMap t x c) o = session c o := rfl
@[simp] theorem session_post (b : NoticeBody) (c : Core) (o : Output) : session (post b c) o = session c o := rfl
@[simp] theorem context_post (b : NoticeBody) (c : Core) (r : Room) : context (post b c) r = context c r := rfl
@[simp] theorem tuner_post (b : NoticeBody) (c : Core) (t : Fin 4) : tuner (post b c) t = tuner c t := rfl

end Sys2Proof.Machine
end

