-- ==== Sys2Proof/Laws/Ops.lean ====
section
/-! SUPPORT. What the shared operations can do: a notice that joins, a commit that is offered, a request that is handled;
the sweep's filter, blocks and claim. -/

namespace Sys2Proof.Machine

open Sys2Proof

/-! ## Notices and ATTN -/

theorem LinkOk.join {l : Link} (h : LinkOk l) (n : Notice) : LinkOk (l.join n) := by
  have hm := h.atMost
  unfold Link.join
  split
  · rename_i hlt
    cases hl : l.mode with
    | level =>
      refine ⟨by simp; omega, by simp, by simp, fun hg => ?_⟩
      simp at hg
      have := (h.gap hg).1
      simp [hl] at this
    | edge =>
      have he := h.edge hl
      dsimp only
      split
      · refine ⟨by simp; omega, by simp, by simp [he], fun _ => ⟨rfl, by simp⟩⟩
      · refine ⟨by simp; omega, by simp, by simp [he], fun _ => ⟨rfl, by simp⟩⟩
  · exact ⟨hm, h.level, h.edge, h.gap⟩

theorem LinkOk.ready {l : Link} (h : LinkOk l) (n : Notice) : LinkOk (l.ready n) := by
  unfold Link.ready
  cases hl : l.mode with
  | level =>
    refine ⟨by simp, by simp, by simp, fun hg => ?_⟩
    simp at hg
    have := (h.gap hg).1
    simp [hl] at this
  | edge =>
    have he := h.edge hl
    dsimp only
    split
    · refine ⟨by simp, by simp, by simp [he], fun _ => ⟨rfl, by simp⟩⟩
    · refine ⟨by simp, by simp, by simp [he], fun _ => ⟨rfl, by simp⟩⟩

theorem LinkOk.taken {l : Link} (h : LinkOk l) : LinkOk l.taken := by
  have hm := h.atMost
  unfold Link.taken Link.attnTaken
  cases hl : l.mode with
  | level =>
    refine ⟨by simp; omega, by simp, by simp, fun hg => ?_⟩
    simp at hg
    have := (h.gap hg).1
    simp [hl] at this
  | edge =>
    have he := h.edge hl
    refine ⟨by simp; omega, by simp, by simp [he], fun hg => ⟨rfl, fun hn => ?_⟩⟩
    simp only at hn hg
    simp [hn, Timer.stop] at hg

theorem LinkOk.withMode {l : Link} (h : LinkOk l) (m : AttnMode) (gap : Nat) : LinkOk (l.withMode m gap) := by
  unfold Link.withMode
  dsimp only
  split
  · rename_i hm
    exact ⟨h.atMost, fun e => h.level (by rw [← hm]; exact e), fun e => h.edge (by rw [← hm]; exact e),
      fun e => ⟨by show m = _; rw [hm]; exact (h.gap e).1, (h.gap e).2⟩⟩
  · rename_i hm
    cases m with
    | level => exact ⟨h.atMost, by simp, by simp, by simp [Timer.stop]⟩
    | edge =>
      refine ⟨h.atMost, by simp, by simp, fun hg => ⟨rfl, fun hn => ?_⟩⟩
      simp only at hn hg
      simp [hn] at hg
      exact (h.gap hg).2 hn

/-- What stands outside the notices, the mode, ATTN and the gap timer's running flag does not matter. -/
theorem LinkOk.same {l l' : Link} (h : LinkOk l) (hn : l'.notices = l.notices) (hm : l'.mode = l.mode) (ha : l'.attn = l.attn)
    (hg : l'.gapTimer.running = true → l.gapTimer.running = true) : LinkOk l' :=
  ⟨by rw [hn]; exact h.atMost, by rw [hn, hm, ha]; exact h.level, by rw [hm, ha]; exact h.edge,
   fun e => by rw [hm, hn]; exact h.gap (hg e)⟩

theorem Timer.second_running (t : Timer) : t.second.running = t.running := by
  unfold Timer.second; split <;> rfl

/-! ## The commit queue -/

theorem QueueOk.nil : QueueOk [] := ⟨by simp, by simp, by simp⟩

theorem QueueOk.tail {q : List Item} (h : QueueOk q) : QueueOk q.tail := by
  cases q with
  | nil => exact h
  | cons a t =>
    have h1 := h.atMost
    have h2 := h.distinct
    have h3 := h.urgentAhead
    simp at h1 h2 h3
    exact ⟨by simp; omega, by simpa using h2.2, by simpa using h3.2⟩

/-- The queue's head part is all urgent, and what follows it is not, once its urgent items stand ahead. -/
theorem dropWhile_notUrgent {q : List Item} (h : q.Pairwise fun a b => b.urgent = true → a.urgent = true) :
    ∀ x ∈ q.dropWhile (·.urgent), x.urgent = false := by
  induction q with
  | nil => simp
  | cons a t ih =>
    rw [List.pairwise_cons] at h
    cases hu : a.urgent with
    | true => simpa [List.dropWhile, hu] using ih h.2
    | false =>
      simp only [List.dropWhile, hu]
      intro x hx
      rcases List.mem_cons.1 hx with rfl | hx
      · exact hu
      · cases hx' : x.urgent with
        | false => rfl
        | true => rw [h.1 x hx hx'] at hu; cases hu

theorem mem_takeWhile_urgent {q : List Item} : ∀ x ∈ q.takeWhile (·.urgent), x.urgent = true :=
  fun _ hx => List.mem_takeWhile_imp hx

theorem insertUrgent_perm (q : List Item) (it : Item) : (insertUrgent q it).Perm (it :: q) := by
  unfold insertUrgent
  have h := List.takeWhile_append_dropWhile (p := fun x : Item => x.urgent) (l := q)
  conv => rhs; rw [← h]
  exact List.perm_middle

theorem insertUrgent_ahead {q : List Item} {it : Item} (hu : it.urgent = true)
    (h : q.Pairwise fun a b => b.urgent = true → a.urgent = true) :
    (insertUrgent q it).Pairwise fun a b => b.urgent = true → a.urgent = true := by
  unfold insertUrgent
  rw [List.pairwise_append, List.pairwise_cons]
  refine ⟨h.sublist (List.takeWhile_sublist _), ⟨fun b _ _ => hu, h.sublist (List.dropWhile_sublist _)⟩, ?_⟩
  intro a ha b _ _
  exact mem_takeWhile_urgent a ha

/-- What `enqueue` leaves is again a legal queue (R177). -/
theorem QueueOk.enqueue {q q' : List Item} {it : Item} {u : Bool} (h : QueueOk q) (e : enqueue q it = some (q', u)) :
    QueueOk q' := by
  unfold Machine.enqueue at e
  split at e
  · rename_i old hf
    have hk : old.key = it.key := by simpa using List.find?_some hf
    have hmem := List.mem_of_find?_eq_some hf
    split at e
    · rename_i hu
      simp only [Option.some.injEq, Prod.mk.injEq] at e
      obtain ⟨rfl, -⟩ := e
      simp only [Bool.and_eq_true] at hu
      have hp := insertUrgent_perm (q.filter fun x => x.key != it.key) it
      have hlt : (q.filter fun x => x.key != it.key).length < q.length := by
        apply List.length_filter_lt_length_iff_exists.2
        exact ⟨old, hmem, by simp [hk]⟩
      refine ⟨?_, ?_, insertUrgent_ahead hu.1 (h.urgentAhead.sublist List.filter_sublist)⟩
      · have := h.atMost; rw [hp.length_eq]; simp; omega
      · rw [(hp.map _).nodup_iff, List.map_cons, List.nodup_cons]
        refine ⟨?_, h.distinct.sublist (List.filter_sublist.map _)⟩
        simp
    · simp only [Option.some.injEq, Prod.mk.injEq] at e
      obtain ⟨rfl, -⟩ := e
      have hkeys : ∀ l : List Item, (l.map fun x => if x.key == it.key then { it with urgent := old.urgent } else x).map (·.key) =
          l.map (·.key) := by
        intro l
        rw [List.map_map]
        apply List.map_congr_left
        intro x _
        by_cases hx : x.key = it.key <;> simp [hx]
      refine ⟨by simpa using h.atMost, by rw [hkeys]; exact h.distinct, ?_⟩
      have huniq : ∀ x ∈ q, x.key = it.key → x = old := by
        intro x hx hxk
        exact List.inj_on_of_nodup_map h.distinct hx hmem (hxk.trans hk.symm)
      rw [List.pairwise_map]
      refine h.urgentAhead.imp_of_mem ?_
      intro a b ha hb hab
      have hua : ∀ x ∈ q, ((if x.key == it.key then { it with urgent := old.urgent } else x) : Item).urgent = x.urgent := by
        intro x hx
        by_cases hxk : x.key = it.key
        · simp [huniq x hx hxk, hk]
        · simp [hxk]
      rw [hua a ha, hua b hb]
      exact hab
  · rename_i hf
    have hno : ∀ x ∈ q, x.key ≠ it.key := by
      intro x hx hxk
      have := List.find?_eq_none.1 hf x hx
      simp [hxk] at this
    split at e
    · rename_i hlt
      simp only [Option.some.injEq, Prod.mk.injEq] at e
      obtain ⟨rfl, -⟩ := e
      have hnk : it.key ∉ q.map (·.key) := by
        intro hm
        obtain ⟨x, hx, hxk⟩ := List.mem_map.1 hm
        exact hno x hx hxk
      split
      · rename_i hu
        have hp := insertUrgent_perm q it
        refine ⟨by rw [hp.length_eq]; simp; omega, ?_, insertUrgent_ahead hu h.urgentAhead⟩
        rw [(hp.map _).nodup_iff, List.map_cons, List.nodup_cons]
        exact ⟨hnk, h.distinct⟩
      · rename_i hu
        refine ⟨by simp; omega, ?_, ?_⟩
        · rw [List.map_append, List.nodup_append]
          refine ⟨h.distinct, by simp, ?_⟩
          intro x hx y hy
          simp at hy
          subst hy
          intro hxy
          exact hnk (hxy ▸ hx)
        · rw [List.pairwise_append]
          refine ⟨h.urgentAhead, by simp, ?_⟩
          intro a _ b hb hbu
          simp at hb
          subst hb
          exact absurd hbu hu
    · simp at e

/-! ## Offers -/

theorem suspendErase_queue (c : Core) : (suspendErase c).store.queue = c.store.queue := by
  unfold suspendErase drawErase; split <;> rfl
theorem suspendErase_pages (c : Core) : (suspendErase c).store.pages = c.store.pages := by
  unfold suspendErase drawErase; split <;> rfl

/-- An offer touches the store and the free counter alone. -/
structure StoreOnly (c c' : Core) : Prop where
  dir : c'.dir = c.dir
  arb : c'.arb = c.arb
  slots : c'.slots = c.slots
  rooms : c'.rooms = c.rooms
  keys : c'.keys = c.keys
  access : c'.access = c.access
  guide : c'.guide = c.guide
  limits : c'.limits = c.limits
  purchase : c'.purchase = c.purchase
  uplink : c'.uplink = c.uplink
  clock : c'.clock = c.clock
  link : c'.link = c.link
  pages : c'.store.pages = c.store.pages

theorem suspendErase_only (c : Core) : StoreOnly c (suspendErase c) := by
  unfold suspendErase drawErase
  split
  · exact ⟨rfl, rfl, rfl, rfl, rfl, rfl, rfl, rfl, rfl, rfl, rfl, rfl, rfl⟩
  · exact ⟨rfl, rfl, rfl, rfl, rfl, rfl, rfl, rfl, rfl, rfl, rfl, rfl, rfl⟩

/-- An offer that is not taken changes nothing (R178). -/
theorem offer_refused {it : Item} {c c' : Core} {a : OfferAnswer} (h : offer it c = (a, c')) (ha : a ≠ .taken) : c' = c := by
  unfold offer at h
  split at h
  · simp only [Prod.mk.injEq] at h; exact h.2.symm
  · split at h
    · simp only [Prod.mk.injEq] at h; exact h.2.symm
    · simp only [Prod.mk.injEq] at h; exact absurd h.1.symm ha

/-- An offer that is taken leaves the queue that `enqueue` gives. -/
theorem offer_taken {it : Item} {c c' : Core} (h : offer it c = (.taken, c')) :
    c.store.state.turnsAway = none ∧ ∃ u, enqueue c.store.queue it = some (c'.store.queue, u) := by
  unfold offer at h
  split at h
  · rename_i a hs
    simp only [Prod.mk.injEq] at h
    rw [h.1] at hs
    cases hst : c.store.state <;> simp [StoreState.turnsAway, hst] at hs
  · rename_i hs
    refine ⟨hs, ?_⟩
    split at h
    · simp at h
    · rename_i q u hq
      simp only [Prod.mk.injEq] at h
      refine ⟨u, ?_⟩
      rw [hq, ← h.2]
      split
      · rw [suspendErase_queue]
      · rfl

theorem offer_only {it : Item} {c c' : Core} {a : OfferAnswer} (h : offer it c = (a, c')) : StoreOnly c c' := by
  by_cases ha : a = .taken
  · subst ha
    unfold offer at h
    split at h
    · simp only [Prod.mk.injEq] at h
      rw [← h.2]; exact ⟨rfl, rfl, rfl, rfl, rfl, rfl, rfl, rfl, rfl, rfl, rfl, rfl, rfl⟩
    · split at h
      · simp at h
      · simp only [Prod.mk.injEq] at h
        rw [← h.2]
        split
        · have := suspendErase_only { c with store := { c.store with queue := ‹List Item› } }
          exact ⟨this.dir, this.arb, this.slots, this.rooms, this.keys, this.access, this.guide, this.limits, this.purchase,
            this.uplink, this.clock, this.link, this.pages⟩
        · exact ⟨rfl, rfl, rfl, rfl, rfl, rfl, rfl, rfl, rfl, rfl, rfl, rfl, rfl⟩
  · rw [offer_refused h ha]; exact ⟨rfl, rfl, rfl, rfl, rfl, rfl, rfl, rfl, rfl, rfl, rfl, rfl, rfl⟩

theorem offer_ok {it : Item} {c c' : Core} {a : OfferAnswer} (h : offer it c = (a, c')) (hc : CoreOk c) : CoreOk c' := by
  refine ⟨by rw [(offer_only h).link]; exact hc.1, ?_⟩
  by_cases ha : a = .taken
  · subst ha
    obtain ⟨-, u, hq⟩ := offer_taken h
    exact hc.2.enqueue hq
  · rw [offer_refused h ha]; exact hc.2

/-! ## Requests -/

theorem tail_withHead (i : Instr) (s : State) : (withHead i s).front.intake.tail = s.front.intake.tail := by
  unfold withHead
  split
  · rename_i h; simp at h; simp [h]
  · rfl

theorem withHead_core (i : Instr) (s : State) : (withHead i s).core = s.core := by unfold withHead; split <;> rfl

/-- A reply made for the head, from a state in which only the blocks behind the link have changed. -/
theorem replyHead_withHead (f : Frame) (i : Instr) (c : Core) (s : State) :
    replyHead f { withHead i s with core := c } = replied f c s := by
  unfold withHead
  split
  · rename_i h; simp at h; simp [replyHead, send, replied, h]
  · rfl

/-- A request that is handled is answered by its rule, and its head leaves the intake. -/
theorem answered_handled {i : Instr} {tag : Byte} {h : Core → Answer × Core} {s : State} (hh : Handled i s) :
    answered i tag h s = replied (.reply tag (h s.core).1.code (h s.core).1.body) (h s.core).2 s := by
  unfold answered request
  rw [if_pos hh.1]
  unfold unlessScanning
  rw [withHead_core, if_neg hh.2]
  dsimp only
  rw [withHead_core]
  exact replyHead_withHead _ _ _ _

theorem answeredWith_handled {α : Type} {i : Instr} {tag : Byte} {a : α} {h : α → Core → Answer × Core} {s : State}
    (hh : Handled i s) :
    answeredWith i tag (some a) h s = replied (.reply tag (h a s.core).1.code (h a s.core).1.body) (h a s.core).2 s :=
  answered_handled hh

theorem answeredWith_malformed {α : Type} {i : Instr} {tag : Byte} {h : α → Core → Answer × Core} {s : State}
    (hh : Handled i s) : answeredWith i tag none h s = replied (.reply tag .badRequest .none) s.core s :=
  answered_handled hh

/-- A request that finds others before it is offered to the intake (R215). -/
theorem request_waiting {i : Instr} {tag : Byte} {h : State → State} {s : State} (hw : isHandledNow i s = false) :
    request i tag h s = offerFrame i tag s := by
  unfold request; rw [if_neg (by simp [hw])]

/-! ## The sweep: its filter, its blocks, its claim -/

/-- Closing the slots of a list that satisfy a test leaves the others as they were, and none of the list that satisfies it. -/
theorem closing_fold (p : Slot → Bool) (hp : p .closed = false) : ∀ (l : List (Fin 16)) (c : Core),
    ∃ v, l.foldl (fun c i => if p (slot c i) then setSlot i .closed c else c) c = { c with slots := v } ∧
      ∀ i, (p (slot c i) = false → slot { c with slots := v } i = slot c i) ∧
        ((i ∈ l) → p (slot { c with slots := v } i) = false) := by
  intro l
  induction l with
  | nil => intro c; exact ⟨c.slots, rfl, fun i => ⟨fun _ => rfl, fun h => absurd h (by simp)⟩⟩
  | cons j l ih =>
    intro c
    have hj : ∃ w, (if p (slot c j) then setSlot j .closed c else c) = { c with slots := w } ∧
        (∀ i, (p (slot c i) = false → slot { c with slots := w } i = slot c i)) ∧ p (slot { c with slots := w } j) = false := by
      by_cases h : p (slot c j)
      · refine ⟨putAt c.slots j .closed, by rw [if_pos h]; rfl, ?_, ?_⟩
        · intro i hi
          have : i ≠ j := by rintro rfl; rw [h] at hi; exact absurd hi (by decide)
          show slot (setSlot j .closed c) i = _
          exact slot_setSlot_ne _ _ (Ne.symm this)
        · show p (slot (setSlot j .closed c) j) = _
          simp [hp]
      · refine ⟨c.slots, by rw [if_neg h], fun _ _ => rfl, by simpa using h⟩
    obtain ⟨w, e, k1, k2⟩ := hj
    obtain ⟨v, e2, k3⟩ := ih { c with slots := w }
    refine ⟨v, by rw [List.foldl_cons, e, e2], fun i => ⟨fun h => ?_, fun h => ?_⟩⟩
    · have := k1 i h
      exact ((k3 i).1 (this ▸ h)).trans this
    · rcases List.mem_cons.1 h with rfl | h
      · have := (k3 i).1 k2
        exact (congrArg p this).trans k2
      · exact (k3 i).2 h

theorem closeSchedule_slots (c : Core) : ∃ v, closeSchedule c = { c with slots := v } ∧
    ∀ i, (slot { c with slots := v } i).feeds .schedule = false ∧
      ((slot c i).feeds .schedule = false → slot { c with slots := v } i = slot c i) := by
  obtain ⟨v, e, h⟩ := closing_fold (·.feeds .schedule) rfl allSlots c
  exact ⟨v, e, fun i => ⟨(h i).2 (by fin_cases i <;> decide), (h i).1⟩⟩

/-- A sweep that holds no tuner ends in its own fields and the schedule filter alone (R116). -/
theorem endSweep_noTuner {c : Core} (h : heldTuner c .sweep = none) :
    ∃ v, endSweep c = { c with slots := v, guide := { c.guide with sweep :=
    ⟨.idle, ⟨c.guide.interval * 60000, 600000, true⟩, { c.guide.sweep.limit with running := false }, .resume, none⟩ } } ∧
    ∀ i, (slot { c with slots := v } i).feeds .schedule = false ∧
      ((slot c i).feeds .schedule = false → slot { c with slots := v } i = slot c i) := by
  obtain ⟨v, e, k⟩ := closeSchedule_slots c
  refine ⟨v, ?_, k⟩
  unfold endSweep; rw [e]; dsimp only
  unfold release releaseWith
  have : heldTuner { c with slots := v, guide := { c.guide with sweep := { state := .idle, timer := { reload := c.guide.interval * 60000, left := 600000, running := true }, limit := c.guide.sweep.limit.stop, next := .resume, tuner := none } } } .sweep = none := h
  rw [this]; rfl

theorem freshBlocks_fold : ∀ (l : List (Fin 8)) (c : Core), l.Nodup →
    ∃ b, l.foldl (fun c k => setBlock k (freshBlock (block c k)) c) c = { c with guide := { c.guide with blocks := b } } ∧
    ∀ k, block { c with guide := { c.guide with blocks := b } } k = if k ∈ l then freshBlock (block c k) else block c k := by
  intro l
  induction l with
  | nil => intro c _; exact ⟨c.guide.blocks, rfl, fun k => by simp⟩
  | cons j l ih =>
    intro c hn
    obtain ⟨b, e, h⟩ := ih (setBlock j (freshBlock (block c j)) c) hn.tail
    refine ⟨b, e, fun k => ?_⟩
    have := h k
    refine Eq.trans this ?_
    by_cases hk : k = j
    · subst hk
      rw [if_neg (List.nodup_cons.1 hn).1, if_pos (by simp), block_setBlock]
    · rw [block_setBlock_ne _ _ (Ne.symm hk)]
      simp [hk]

/-- A FRESH start empties every block's seen-set and changes nothing else (R113). -/
theorem freshBlocks (c : Core) :
    ∃ b, allBlocks.foldl (fun c k => setBlock k (freshBlock (block c k)) c) c = { c with guide := { c.guide with blocks := b } } ∧
    ∀ k, block { c with guide := { c.guide with blocks := b } } k = freshBlock (block c k) := by
  obtain ⟨b, e, h⟩ := freshBlocks_fold allBlocks c (by decide)
  refine ⟨b, e, fun k => ?_⟩
  rw [h k, if_pos (by fin_cases k <;> decide)]

/-- The lowest OFF tuner is the one a claim takes (R23). -/
theorem firstTuner_off {c : Core} {t : Fin 4} (h : (tuner c t).state = .off) (hl : ∀ v, v < t → (tuner c v).state ≠ .off) :
    firstTuner c (·.state == .off) = some t := by
  unfold firstTuner allTuners
  fin_cases t
  · simp at h ⊢; simp [h]
  · have h0 := hl 0 (by decide)
    simp at h h0 ⊢; simp [h, h0]
  · have h0 := hl 0 (by decide)
    have h1 := hl 1 (by decide)
    simp at h h0 ⊢; simp [h, h0, h1]
  · have h0 := hl 0 (by decide)
    have h1 := hl 1 (by decide)
    have h2 := hl 2 (by decide)
    simp at h h0 h1 h2 ⊢; simp [h, h0, h1, h2]

theorem planClaim_sweep_take {c : Core} {x : Carrier} {t : Fin 4} (h1 : tunerOn c x = none) (h2 : (tuner c t).state = .off)
    (h3 : ∀ v, v < t → (tuner c v).state ≠ .off) :
    planClaim c .sweep x .host = .take t := by
  unfold planClaim; rw [h1, firstTuner_off h2 h3]

theorem planClaim_sweep_refused {c : Core} {x : Carrier} (h1 : tunerOn c x = none)
    (h2 : ∀ v, (tuner c v).state ≠ .off ∧ (tuner c v).holders.only .sweep = false) :
    planClaim c .sweep x .host = .refused := by
  have a : firstTuner c (·.state == .off) = none := by unfold firstTuner; rw [List.find?_eq_none]; intro v _; simp [(h2 v).1]
  have b : firstTuner c (fun u => u.holders.only .sweep) = none := by unfold firstTuner; rw [List.find?_eq_none]; intro v _; simp [(h2 v).2]
  unfold planClaim; rw [h1, a, b]; rfl

/-! ## Filters, commands and choices of tuners -/

/-- Closing slots one after another closes those of the list that satisfy the test. -/
theorem slot_closeFold (p : Slot → Bool) (n : Fin 16) : ∀ (l : List (Fin 16)) (c : Core), l.Nodup →
    slot (l.foldl (fun c i => if p (slot c i) then setSlot i .closed c else c) c) n = if n ∈ l ∧ p (slot c n) = true then .closed else slot c n
  | [], c, _ => by simp
  | i :: l, c, h => by
    rw [List.foldl_cons, slot_closeFold p n l _ (List.nodup_cons.1 h).2]
    have hi := (List.nodup_cons.1 h).1
    by_cases hn : n = i
    · subst hn
      simp only [hi, List.mem_cons, true_or, true_and, false_and, if_false]
      split <;> simp
    · have : slot (if p (slot c i) = true then setSlot i .closed c else c) n = slot c n := by
        split
        · exact slot_setSlot_ne _ _ (Ne.symm hn)
        · rfl
      rw [this]; simp [hn]

/-- `closeWhere` closes exactly the slots that satisfy its test (R31). -/
theorem slot_closeWhere (p : Slot → Bool) (n : Fin 16) (c : Core) :
    slot (closeWhere p c) n = if p (slot c n) = true then .closed else slot c n := by
  unfold closeWhere; rw [slot_closeFold p n _ _ (by decide)]
  have : n ∈ allSlots := by unfold allSlots; revert n; decide
  simp [this]

/-- `closeWhere` changes the filter slots alone. -/
theorem closeWhere_frame (p : Slot → Bool) (c : Core) : closeWhere p c = { c with slots := (closeWhere p c).slots } := by
  unfold closeWhere
  generalize allSlots = l
  induction l generalizing c with
  | nil => rfl
  | cons i l ih => rw [List.foldl_cons, ih]; split <;> rfl

/-- A tune command's effect in one update (R17, R19, R23). -/
theorem tune_eq (t : Fin 4) (car : Carrier) (h : Holders) (c : Core) : tune t car h c = setTuner t { tuner c t with
         state := .acquiring, carrier := some car, number := numberOf c car, holders := h
         acq := ⟨c.arb.acqLimit, c.arb.acqLimit, true⟩, loss := { (tuner c t).loss with running := false }, count := (tuner c t).count + 1 }
       { c with arb := { c.arb with line := c.arb.line ++ [⟨t, (tuner c t).count + 1, some car⟩] } } := by
  unfold tune sendCommand
  simp only [tuner_setTuner]
  simp [setTuner, putAt, numberOf, Timer.start, Timer.stop]

/-- The off command's effect in one update (R19, R27). -/
theorem turnOff_eq (t : Fin 4) (c : Core) : turnOff t c = setTuner t { tuner c t with
               state := .off, carrier := none, number := none, holders := .none, acq := { (tuner c t).acq with running := false }
               loss := { (tuner c t).loss with running := false }, count := (tuner c t).count + 1 }
             { c with arb := { c.arb with line := c.arb.line ++ [⟨t, (tuner c t).count + 1, none⟩] } } := by
  unfold turnOff sendCommand
  simp only [tuner_setTuner]
  simp [setTuner, putAt, Timer.stop]

/-- The lowest-numbered tuner that passes a test. -/
theorem firstTuner_some {c : Core} {p : Tuner → Bool} {t : Fin 4} (h : p (tuner c t) = true) (hl : ∀ v, v < t → p (tuner c v) = false) :
    firstTuner c p = some t := by
  unfold firstTuner allTuners
  fin_cases t
  · simp at h ⊢; simp [h]
  · have h0 := hl 0 (by decide)
    simp at h h0 ⊢; simp [h, h0]
  · have h0 := hl 0 (by decide)
    have h1 := hl 1 (by decide)
    simp at h h0 ⊢; simp [h, h0, h1]
  · have h0 := hl 0 (by decide)
    have h1 := hl 1 (by decide)
    have h2 := hl 2 (by decide)
    simp at h h0 h1 h2 ⊢; simp [h, h0, h1, h2]

theorem firstTuner_none {c : Core} {p : Tuner → Bool} (h : ∀ v, p (tuner c v) = false) : firstTuner c p = none := by
  unfold firstTuner; rw [List.find?_eq_none]; intro v _; simp [h v]

/-- What a PURCHASE ACK leaves of the log, and the number it acknowledges (R157). -/
theorem ackLog_eq (s : Seq) : ∀ (l : List PurchaseRecord) (last : Option Seq), ackLog s l last =
    (l.dropWhile (fun r => !seqAfter r.seq s), ((l.takeWhile fun r => !seqAfter r.seq s).getLast?.map (·.seq)) <|> last)
  | [], last => rfl
  | r :: rs, last => by
    unfold ackLog
    by_cases h : seqAfter r.seq s
    · simp [h]
    · simp only [h, List.dropWhile, List.takeWhile]
      rw [if_neg (by decide), ackLog_eq s rs]
      simp
      cases hh : (rs.takeWhile fun r => !seqAfter r.seq s) with
      | nil => simp
      | cons a as => simp [List.getLast?_cons_cons]; cases h2 : (a::as).getLast? <;> simp_all

/-! ## The report interval -/

@[simp] theorem interval_withInterval (n : Nat) (u : Uplink) : (u.withInterval n).interval = n := rfl
@[simp] theorem reload_withInterval (n : Nat) (u : Uplink) : (u.withInterval n).reportTimer.reload = n * 60000 := rfl
@[simp] theorem left_withInterval (n : Nat) (u : Uplink) : (u.withInterval n).reportTimer.left = u.reportTimer.left := rfl
@[simp] theorem running_withInterval (n : Nat) (u : Uplink) : (u.withInterval n).reportTimer.running = u.reportTimer.running := rfl

end Sys2Proof.Machine
end

