-- ==== Sys2Proof/Laws/Calm.lean ====
section
/-! SUPPORT. While no recording runs on past its end, what follows a tuner's transition in the sessions, filters and markers leaves
every tuner as it was. -/

namespace Sys2Proof.Machine

open Sys2Proof

/-- From `c0` to `c` the tuners stand, and no recording runs on. -/
structure Calm (c0 c : Core) : Prop where
  arb : c.arb = c0.arb
  none : noneExtended c

theorem placeBooking_extended {b x : Booking} {l : List Booking} (h : x ∈ placeBooking b l) : x = b ∨ x ∈ l := by
  unfold placeBooking at h
  have mem : ∀ (l : List Booking), x ∈ insertBy Booking.before b l → x = b ∨ x ∈ l := by
    intro l
    induction l with
    | nil => simp [insertBy]
    | cons y ys ih =>
      unfold insertBy
      split
      · simp
      · intro h
        rcases List.mem_cons.1 h with h | h
        · simp [h]
        · rcases ih h with h | h <;> simp [h]
  rcases mem _ h with h | h
  · exact Or.inl h
  · exact Or.inr (List.mem_of_mem_filter h)

section

variable {c0 : Core}

theorem ite_calm {P : Prop} [Decidable P] {a b : Core} (ha : Calm c0 a) (hb : Calm c0 b) : Calm c0 (if P then a else b) := by
  split
  · exact ha
  · exact hb

theorem foldl_calm {α : Type} {f : Core → α → Core} {l : List α} {c : Core} (h : Calm c0 c)
    (hf : ∀ c x, Calm c0 c → Calm c0 (f c x)) : Calm c0 (l.foldl f c) := by
  induction l generalizing c with
  | nil => exact h
  | cons x t ih => exact ih (hf c x h)

theorem same_calm {c c' : Core} (h : Calm c0 c) (e : c'.arb = c.arb) (k : c'.clock.bookings = c.clock.bookings) : Calm c0 c' :=
  ⟨e.trans h.arb, by unfold noneExtended; rw [k]; exact h.none⟩

theorem offer_calm' {it : Item} {a : OfferAnswer} {c c' : Core} (e : offer it c = (a, c')) (h : Calm c0 c) : Calm c0 c' :=
  same_calm h (offer_only e).arb (by rw [(offer_only e).clock])

theorem setBooking_calm {b : Booking} {c : Core} (h : Calm c0 c) (hb : b.extended = false) : Calm c0 (setBooking b c) :=
  ⟨h.arb, fun x hx => by
    rcases placeBooking_extended hx with rfl | hx
    · exact hb
    · exact h.none x hx⟩

theorem setSession_calm {o : Output} {x : Session} {c : Core} (h : Calm c0 c) : Calm c0 (setSession o x c) := same_calm h rfl rfl
theorem setLaneMap_calm {t : Fin 4} {x : LaneMap} {c : Core} (h : Calm c0 c) : Calm c0 (setLaneMap t x c) := same_calm h rfl rfl
theorem setContext_calm {r : Room} {x : RoomContext} {c : Core} (h : Calm c0 c) : Calm c0 (setContext r x c) := same_calm h rfl rfl
theorem setSlot_calm {i : Fin 16} {x : Slot} {c : Core} (h : Calm c0 c) : Calm c0 (setSlot i x c) := same_calm h rfl rfl
theorem setKeySlot_calm {k : Fin 4} {x : KeySlot} {c : Core} (h : Calm c0 c) : Calm c0 (setKeySlot k x c) := same_calm h rfl rfl
theorem setGuide_calm {x : Guide} {c : Core} (h : Calm c0 c) : Calm c0 (setGuide x c) := same_calm h rfl rfl
theorem setLimits_calm {x : Limits} {c : Core} (h : Calm c0 c) : Calm c0 (setLimits x c) := same_calm h rfl rfl
theorem setUplinkState_calm {x : Uplink} {c : Core} (h : Calm c0 c) : Calm c0 (setUplinkState x c) := same_calm h rfl rfl
theorem setPurchase_calm {x : Purchase} {c : Core} (h : Calm c0 c) : Calm c0 (setPurchase x c) := same_calm h rfl rfl
theorem setDir_calm {x : Directory} {c : Core} (h : Calm c0 c) : Calm c0 (setDir x c) := same_calm h rfl rfl
theorem guide_calm {c : Core} {x : Guide} (h : Calm c0 c) : Calm c0 { c with guide := x } := same_calm h rfl rfl
theorem rooms_calm {c : Core} {x : Rooms} (h : Calm c0 c) : Calm c0 { c with rooms := x } := same_calm h rfl rfl
theorem access_calm {c : Core} {x : Access} (h : Calm c0 c) : Calm c0 { c with access := x } := same_calm h rfl rfl
theorem free_calm {c : Core} {x : Nat} (h : Calm c0 c) : Calm c0 { c with free := x } := same_calm h rfl rfl
theorem post_calm {b : NoticeBody} {c : Core} (h : Calm c0 c) : Calm c0 (post b c) := same_calm h rfl rfl

theorem openFilter_calm {f : Filter} {c : Core} (hok : Calm c0 c) : Calm c0 (openFilter f c) := by
  unfold openFilter
  try dsimp only
  with_reducible repeat' first
    | assumption
    | apply setSlot_calm
    | split

theorem closeWhere_calm {p : Slot → Bool} {c : Core} (hok : Calm c0 c) : Calm c0 (closeWhere p c) := by
  unfold closeWhere
  try dsimp only
  with_reducible repeat' first
    | assumption
    | (refine ite_calm ?_ ?_)
    | (refine foldl_calm ?_ ?_)
    | apply setSlot_calm
    | intro _

theorem closeTunerSlots_calm {t : Fin 4} {c : Core} (hok : Calm c0 c) : Calm c0 (closeTunerSlots t c) := by
  unfold closeTunerSlots
  try dsimp only
  with_reducible repeat' first
    | assumption
    | (refine ite_calm ?_ ?_)
    | (refine foldl_calm ?_ ?_)
    | apply setKeySlot_calm
    | apply closeWhere_calm
    | intro _

theorem settleControl_calm {c : Core} (hok : Calm c0 c) : Calm c0 (settleControl c) := by
  unfold settleControl
  try dsimp only
  with_reducible repeat' first
    | assumption
    | (refine ite_calm ?_ ?_)
    | apply openFilter_calm
    | apply closeWhere_calm
    | split

theorem discardAssembly_calm {t : Fin 4} {c : Core} (hok : Calm c0 c) : Calm c0 (discardAssembly t c) := by
  unfold discardAssembly
  try dsimp only
  with_reducible repeat' first
    | assumption
    | (refine ite_calm ?_ ?_)
    | (refine foldl_calm ?_ ?_)
    | apply setSlot_calm
    | intro _

theorem ensureKeyFilter_calm {k : Fin 4} {t : Fin 4} {c : Core} (hok : Calm c0 c) : Calm c0 (ensureKeyFilter k t c) := by
  unfold ensureKeyFilter
  try dsimp only
  with_reducible repeat' first
    | assumption
    | (refine ite_calm ?_ ?_)
    | apply setKeySlot_calm
    | apply openFilter_calm
    | split

theorem closeKeyFilter_calm {k : Fin 4} {c : Core} (hok : Calm c0 c) : Calm c0 (closeKeyFilter k c) := by
  unfold closeKeyFilter
  try dsimp only
  with_reducible repeat' first
    | assumption
    | apply setKeySlot_calm
    | apply closeWhere_calm
    | intro _
    | split

theorem dropRef_calm {k : Fin 4} {c : Core} (hok : Calm c0 c) : Calm c0 (dropRef k c) := by
  unfold dropRef
  try dsimp only
  with_reducible repeat' first
    | assumption
    | (refine ite_calm ?_ ?_)
    | apply setKeySlot_calm
    | apply closeKeyFilter_calm

theorem setSessionSlot_calm {o : Output} {k : Option (Fin 4)} {c : Core} (hok : Calm c0 c) : Calm c0 (setSessionSlot o k c) := by
  unfold setSessionSlot
  try dsimp only
  with_reducible repeat' first
    | assumption
    | apply setSession_calm

theorem unbindKey_calm {o : Output} {c : Core} (hok : Calm c0 c) : Calm c0 (unbindKey o c) := by
  unfold unbindKey
  try dsimp only
  with_reducible repeat' first
    | assumption
    | apply dropRef_calm
    | apply setSessionSlot_calm
    | split

theorem dropOld_calm {old : Option (Fin 4)} {c : Core} (hok : Calm c0 c) : Calm c0 (dropOld old c) := by
  unfold dropOld
  try dsimp only
  with_reducible repeat' first
    | assumption
    | apply dropRef_calm
    | split

theorem bindKey_calm {o : Output} {x : Carrier} {lane : Nat} {t : Fin 4} {c : Core} (hok : Calm c0 c) : Calm c0 (bindKey o x lane t c) := by
  unfold bindKey
  try dsimp only
  with_reducible repeat' first
    | assumption
    | (refine ite_calm ?_ ?_)
    | apply setKeySlot_calm
    | apply ensureKeyFilter_calm
    | apply closeKeyFilter_calm
    | apply dropRef_calm
    | apply setSessionSlot_calm
    | apply dropOld_calm
    | split

theorem commitBooking_calm {id : Nat} {c : Core} (hok : Calm c0 c) : Calm c0 (commitBooking id c) := by
  unfold commitBooking
  split
  · have h := offer_calm' (by assumption) hok
    exact same_calm h rfl (by unfold oweBooking; split <;> rfl)
  · exact offer_calm' (by assumption) hok
  · have h := offer_calm' (by assumption) hok
    exact same_calm h rfl rfl

theorem postBookingState_calm {b : Booking} {cause : Option MissedCause} {c : Core} (hok : Calm c0 c) : Calm c0 (postBookingState b cause c) := by
  unfold postBookingState
  try dsimp only
  with_reducible repeat' first
    | assumption
    | apply post_calm

theorem missBooking_calm {b : Booking} {cause : MissedCause} {c : Core} (hok : Calm c0 c) : Calm c0 (missBooking b cause c) := by
  unfold missBooking changeBooking
  exact commitBooking_calm (postBookingState_calm (setBooking_calm hok rfl))

theorem bookingOutcome_calm {id : Nat} {outcome : ChangeOutcome} {c : Core} (hok : Calm c0 c) : Calm c0 (bookingOutcome id outcome c) := by
  unfold bookingOutcome
  try dsimp only
  with_reducible repeat' first
    | assumption
    | (refine ite_calm ?_ ?_)
    | apply missBooking_calm
    | split

theorem endChange_calm {o : Output} {old : Session} {outcome : ChangeOutcome} {reasons : Option Reasons} {c : Core} (hok : Calm c0 c) : Calm c0 (endChange o old outcome reasons c) := by
  unfold endChange
  try dsimp only
  with_reducible repeat' first
    | assumption
    | apply post_calm
    | apply bookingOutcome_calm
    | split

theorem postSession_calm {o : Output} {c : Core} (hok : Calm c0 c) : Calm c0 (postSession o c) := by
  unfold postSession
  try dsimp only
  with_reducible repeat' first
    | assumption
    | apply post_calm

theorem purchaseOffer_calm {o : Output} {c : Core} (hok : Calm c0 c) : Calm c0 (purchaseOffer o c) := by
  unfold purchaseOffer
  try dsimp only
  with_reducible repeat' first
    | assumption
    | (refine ite_calm ?_ ?_)
    | apply post_calm
    | split

theorem arrive_calm {o : Output} {old : Session} {s : Session} {entering : Bool} {c : Core} (hok : Calm c0 c) : Calm c0 (arrive o old s entering c) := by
  unfold arrive
  try dsimp only
  with_reducible repeat' first
    | assumption
    | (refine ite_calm ?_ ?_)
    | apply setSession_calm
    | apply endChange_calm
    | apply postSession_calm
    | apply purchaseOffer_calm
    | split

theorem bindService_calm {o : Output} {e : LaneEntry} {c : Core} (hok : Calm c0 c) : Calm c0 (bindService o e c) := by
  unfold bindService
  try dsimp only
  with_reducible repeat' first
    | assumption
    | (refine ite_calm ?_ ?_)
    | apply unbindKey_calm
    | apply bindKey_calm
    | split

theorem enterChecking_calm {o : Output} {e : LaneEntry} {c : Core} (hok : Calm c0 c) : Calm c0 (enterChecking o e c) := by
  unfold enterChecking
  try dsimp only
  with_reducible repeat' first
    | assumption
    | (refine ite_calm ?_ ?_)
    | apply setSession_calm
    | apply bindService_calm
    | apply arrive_calm
    | apply postSession_calm
    | intro _

theorem tryChecking_calm {o : Output} {old : Session} {c : Core} (hok : Calm c0 c) : Calm c0 (tryChecking o old c) := by
  unfold tryChecking
  try dsimp only
  with_reducible repeat' first
    | assumption
    | (refine ite_calm ?_ ?_)
    | apply enterChecking_calm
    | apply postSession_calm
    | split

theorem reopen_calm {o : Output} {c : Core} (hok : Calm c0 c) : Calm c0 (reopen o c) := by
  unfold reopen
  try dsimp only
  with_reducible repeat' first
    | assumption
    | apply tryChecking_calm
    | apply setSession_calm

theorem reevalOne_calm {c : Core} {o : Output} (hok : Calm c0 c) : Calm c0 (reevalOne c o) := by
  unfold reevalOne
  try dsimp only
  with_reducible repeat' first
    | assumption
    | (refine ite_calm ?_ ?_)
    | apply setSession_calm
    | apply arrive_calm
    | split

theorem reevaluate_calm {c : Core} (hok : Calm c0 c) : Calm c0 (reevaluate c) := by
  unfold reevaluate
  try dsimp only
  with_reducible repeat' first
    | assumption
    | (refine foldl_calm ?_ ?_)
    | apply reevalOne_calm

theorem signalLost_calm {o : Output} {c : Core} (hok : Calm c0 c) : Calm c0 (signalLost o c) := by
  unfold signalLost
  try dsimp only
  with_reducible repeat' first
    | assumption
    | (refine ite_calm ?_ ?_)
    | apply setSession_calm
    | apply postSession_calm
    | split

theorem signalRegained_calm {o : Output} {c : Core} (hok : Calm c0 c) : Calm c0 (signalRegained o c) := by
  unfold signalRegained
  try dsimp only
  with_reducible repeat' first
    | assumption
    | (refine ite_calm ?_ ?_)
    | apply tryChecking_calm
    | apply setSession_calm
    | apply enterChecking_calm
    | apply arrive_calm
    | split

theorem endEventGrant_calm {o : Output} {c : Core} (hok : Calm c0 c) : Calm c0 (endEventGrant o c) := by
  unfold endEventGrant
  try dsimp only
  with_reducible repeat' first
    | assumption
    | (refine ite_calm ?_ ?_)
    | apply setContext_calm
    | split

theorem testSession_calm {c : Core} {o : Output} (hok : Calm c0 c) : Calm c0 (testSession c o) := by
  unfold testSession
  try dsimp only
  with_reducible repeat' first
    | assumption
    | (refine ite_calm ?_ ?_)
    | apply setSession_calm
    | apply post_calm
    | apply purchaseOffer_calm
    | apply reevaluate_calm
    | apply endEventGrant_calm
    | split

theorem testPresent_calm {c : Core} (hok : Calm c0 c) : Calm c0 (testPresent c) := by
  unfold testPresent
  try dsimp only
  with_reducible repeat' first
    | assumption
    | (refine foldl_calm ?_ ?_)
    | apply testSession_calm

theorem carry_calm {o : Output} {x : OutCell} {c : Core} (hok : Calm c0 c) : Calm c0 (carry o x c) := by
  unfold carry
  try dsimp only
  with_reducible repeat' first
    | assumption
    | (refine rooms_calm ?_)

theorem startHold_calm {c : Core} (hok : Calm c0 c) : Calm c0 (startHold c) := by
  unfold startHold
  split
  · exact same_calm hok rfl rfl
  · exact hok

theorem stopHold_calm {c : Core} (hok : Calm c0 c) : Calm c0 (stopHold c) := by
  exact same_calm hok rfl rfl

theorem judgeExtended_calm {stop : Output → Core → Core} {c : Core} {id : Nat} (hok : Calm c0 c) : Calm c0 (judgeExtended stop c id) := by
  unfold judgeExtended
  split
  · rename_i b now hb _
    have he : b.extended = false := hok.none b (List.mem_of_find?_eq_some hb)
    simp [he, hok]
  · exact hok

theorem markerChanged_calm {stop : Output → Core → Core} {lcn : Nat} {c : Core} (hok : Calm c0 c) : Calm c0 (markerChanged stop lcn c) := by
  unfold markerChanged
  try dsimp only
  with_reducible repeat' first
    | assumption
    | (refine foldl_calm ?_ ?_)
    | apply judgeExtended_calm

theorem removeMarkers_calm {stop : Output → Core → Core} {p : Marker → Bool} {c : Core} (hok : Calm c0 c) : Calm c0 (removeMarkers stop p c) := by
  unfold removeMarkers
  try dsimp only
  with_reducible repeat' first
    | assumption
    | (refine foldl_calm ?_ ?_)
    | apply markerChanged_calm
    | intro _
    | (refine guide_calm ?_)

theorem carrierUnlocked_calm {stop : Output → Core → Core} {x : Option Carrier} {c : Core} (hok : Calm c0 c) : Calm c0 (carrierUnlocked stop x c) := by
  unfold carrierUnlocked
  try dsimp only
  with_reducible repeat' first
    | assumption
    | apply testPresent_calm
    | apply removeMarkers_calm
    | split

theorem watchFailed_calm {c : Core} (hok : Calm c0 c) : Calm c0 (watchFailed c) := by
  unfold watchFailed
  try dsimp only
  with_reducible repeat' first
    | assumption
    | apply startHold_calm

theorem closeSchedule_calm {c : Core} (hok : Calm c0 c) : Calm c0 (closeSchedule c) := by
  unfold closeSchedule
  try dsimp only
  with_reducible repeat' first
    | assumption
    | apply closeWhere_calm

theorem openSchedule_calm {t : Fin 4} {c : Core} (hok : Calm c0 c) : Calm c0 (openSchedule t c) := by
  unfold openSchedule
  try dsimp only
  with_reducible repeat' first
    | assumption
    | apply openFilter_calm

theorem sweepLocked_calm {t : Fin 4} {c : Core} (hok : Calm c0 c) : Calm c0 (sweepLocked t c) := by
  unfold sweepLocked
  try dsimp only
  with_reducible repeat' first
    | assumption
    | (refine ite_calm ?_ ?_)
    | apply openSchedule_calm
    | (refine guide_calm ?_)

theorem sessionLocked_calm {t : Fin 4} {c : Core} {o : Output} (hok : Calm c0 c) : Calm c0 (sessionLocked t c o) := by
  unfold sessionLocked
  try dsimp only
  with_reducible repeat' first
    | assumption
    | (refine ite_calm ?_ ?_)
    | apply setSession_calm
    | apply tryChecking_calm

end

end Sys2Proof.Machine
end

