-- ==== Sys2Proof/Laws/KeepsSessions.lean ====
section
/-! SUPPORT. Every operation of the blocks keeps what CoreOk says of the notices, ATTN and the commit queue: one lemma for each
operation, from the operations it calls. -/

namespace Sys2Proof.Machine

open Sys2Proof

theorem CoreOk.linkOk {c : Core} (h : CoreOk c) : LinkOk c.link := h.1
theorem CoreOk.queueOk {c : Core} (h : CoreOk c) : QueueOk c.store.queue := h.2

theorem coreOk_mk {d a sl r k ac g li p u st cl l f} (hl : LinkOk l) (hq : QueueOk st.queue) :
    CoreOk (Core.mk d a sl r k ac g li p u st cl l f) := ⟨hl, hq⟩

theorem LinkOk.powerKey {l : Link} (h : LinkOk l) (k : Byte) : LinkOk { l with powerKey := k } :=
  h.same rfl rfl rfl id

theorem ite_ok {P : Prop} [Decidable P] {a b : Core} (ha : CoreOk a) (hb : CoreOk b) : CoreOk (if P then a else b) := by
  split
  · exact ha
  · exact hb

theorem ite_ok2 {α : Type} {P : Prop} [Decidable P] {a b : α × Core} (ha : CoreOk a.2) (hb : CoreOk b.2) :
    CoreOk (if P then a else b).2 := by
  split
  · exact ha
  · exact hb

theorem foldl_ok {α : Type} {f : Core → α → Core} {l : List α} {c : Core} (h : CoreOk c)
    (hf : ∀ c x, CoreOk c → CoreOk (f c x)) : CoreOk (l.foldl f c) := by
  induction l generalizing c with
  | nil => exact h
  | cons x t ih => exact ih (hf c x h)

section

variable {c : Core} (h : CoreOk c)

include h

theorem setSession_ok {o : Output} {x : Session} : CoreOk (setSession o x c) := h
theorem setLaneMap_ok {t : Fin 4} {x : LaneMap} : CoreOk (setLaneMap t x c) := h
theorem setContext_ok {r : Room} {x : RoomContext} : CoreOk (setContext r x c) := h
theorem setTuner_ok {t : Fin 4} {x : Tuner} : CoreOk (setTuner t x c) := h
theorem setSlot_ok {i : Fin 16} {x : Slot} : CoreOk (setSlot i x c) := h
theorem setKeySlot_ok {k : Fin 4} {x : KeySlot} : CoreOk (setKeySlot k x c) := h
theorem setBooking_ok {b : Booking} : CoreOk (setBooking b c) := h
theorem setLimits_ok {x : Limits} : CoreOk (setLimits x c) := h
theorem setUplinkState_ok {x : Uplink} : CoreOk (setUplinkState x c) := h
theorem setPurchase_ok {x : Purchase} : CoreOk (setPurchase x c) := h
theorem setGuide_ok {x : Guide} : CoreOk (setGuide x c) := h
theorem setClock_ok {x : Clock} : CoreOk (setClock x c) := h
theorem setDir_ok {x : Directory} : CoreOk (setDir x c) := h
theorem setLink_ok {x : Link} (hl : LinkOk x) : CoreOk (setLink x c) := ⟨hl, h.2⟩
theorem setStore_ok {x : Store} (hq : QueueOk x.queue) : CoreOk (setStore x c) := ⟨h.1, hq⟩
theorem post_ok {b : NoticeBody} : CoreOk (post b c) := ⟨h.1.join _, h.2⟩
theorem drawErase_ok : CoreOk (drawErase c).2 := h
theorem drawErase_ok' {d : Nat} {c' : Core} (e : drawErase c = (d, c')) : CoreOk c' := by
  have := drawErase_ok h
  rw [e] at this
  exact this

end

theorem settle_ok {it : Item} {change : Core → Core} {c : Core} (h : CoreOk c) (hch : ∀ c, CoreOk c → CoreOk (change c)) :
    CoreOk (settle it change c).2 := by
  unfold settle
  split
  · exact hch _ (offer_ok (by assumption) h)
  · exact offer_ok (by assumption) h

theorem openFilter_ok {f : Filter} {c : Core} (hok : CoreOk c) : CoreOk (openFilter f c) := by
  unfold openFilter
  try dsimp only
  with_reducible repeat' first
    | assumption
    | apply setSlot_ok
    | split

theorem closeWhere_ok {p : Slot → Bool} {c : Core} (hok : CoreOk c) : CoreOk (closeWhere p c) := by
  unfold closeWhere
  try dsimp only
  with_reducible repeat' first
    | assumption
    | (refine ite_ok ?_ ?_)
    | (refine foldl_ok ?_ ?_)
    | apply setSlot_ok
    | intro _

theorem closeTunerSlots_ok {t : Fin 4} {c : Core} (hok : CoreOk c) : CoreOk (closeTunerSlots t c) := by
  unfold closeTunerSlots
  try dsimp only
  with_reducible repeat' first
    | assumption
    | (refine ite_ok ?_ ?_)
    | (refine foldl_ok ?_ ?_)
    | apply setKeySlot_ok
    | apply closeWhere_ok
    | intro _

theorem settleControl_ok {c : Core} (hok : CoreOk c) : CoreOk (settleControl c) := by
  unfold settleControl
  try dsimp only
  with_reducible repeat' first
    | assumption
    | (refine ite_ok ?_ ?_)
    | apply openFilter_ok
    | apply closeWhere_ok
    | split

theorem discardAssembly_ok {t : Fin 4} {c : Core} (hok : CoreOk c) : CoreOk (discardAssembly t c) := by
  unfold discardAssembly
  try dsimp only
  with_reducible repeat' first
    | assumption
    | (refine ite_ok ?_ ?_)
    | (refine foldl_ok ?_ ?_)
    | apply setSlot_ok
    | intro _

theorem ensureKeyFilter_ok {k : Fin 4} {t : Fin 4} {c : Core} (hok : CoreOk c) : CoreOk (ensureKeyFilter k t c) := by
  unfold ensureKeyFilter
  try dsimp only
  with_reducible repeat' first
    | assumption
    | (refine ite_ok ?_ ?_)
    | apply setKeySlot_ok
    | apply openFilter_ok
    | split

theorem closeKeyFilter_ok {k : Fin 4} {c : Core} (hok : CoreOk c) : CoreOk (closeKeyFilter k c) := by
  unfold closeKeyFilter
  try dsimp only
  with_reducible repeat' first
    | assumption
    | apply setKeySlot_ok
    | apply closeWhere_ok
    | intro _
    | split

theorem dropRef_ok {k : Fin 4} {c : Core} (hok : CoreOk c) : CoreOk (dropRef k c) := by
  unfold dropRef
  try dsimp only
  with_reducible repeat' first
    | assumption
    | (refine ite_ok ?_ ?_)
    | apply setKeySlot_ok
    | apply closeKeyFilter_ok

theorem setSessionSlot_ok {o : Output} {k : Option (Fin 4)} {c : Core} (hok : CoreOk c) : CoreOk (setSessionSlot o k c) := by
  unfold setSessionSlot
  try dsimp only
  with_reducible repeat' first
    | assumption
    | apply setSession_ok

theorem unbindKey_ok {o : Output} {c : Core} (hok : CoreOk c) : CoreOk (unbindKey o c) := by
  unfold unbindKey
  try dsimp only
  with_reducible repeat' first
    | assumption
    | apply dropRef_ok
    | apply setSessionSlot_ok
    | split

theorem dropOld_ok {old : Option (Fin 4)} {c : Core} (hok : CoreOk c) : CoreOk (dropOld old c) := by
  unfold dropOld
  try dsimp only
  with_reducible repeat' first
    | assumption
    | apply dropRef_ok
    | split

theorem bindKey_ok {o : Output} {x : Carrier} {lane : Nat} {t : Fin 4} {c : Core} (hok : CoreOk c) : CoreOk (bindKey o x lane t c) := by
  unfold bindKey
  try dsimp only
  with_reducible repeat' first
    | assumption
    | (refine ite_ok ?_ ?_)
    | apply setKeySlot_ok
    | apply ensureKeyFilter_ok
    | apply closeKeyFilter_ok
    | apply dropRef_ok
    | apply setSessionSlot_ok
    | apply dropOld_ok
    | split

theorem commitBooking_ok {id : Nat} {c : Core} (hok : CoreOk c) : CoreOk (commitBooking id c) := by
  unfold commitBooking
  try dsimp only
  with_reducible repeat' first
    | assumption
    | exact offer_ok (by assumption) (by assumption)
    | apply offer_ok (by assumption)
    | split
    | (refine coreOk_mk ?_ ?_)
    | (refine CoreOk.linkOk ?_)
    | (refine CoreOk.queueOk ?_)

theorem commitLastDay_ok {c : Core} (hok : CoreOk c) : CoreOk (commitLastDay c) := by
  unfold commitLastDay
  try dsimp only
  with_reducible repeat' first
    | assumption
    | (refine ite_ok ?_ ?_)
    | exact offer_ok (by assumption) (by assumption)
    | apply offer_ok (by assumption)
    | split
    | (refine coreOk_mk ?_ ?_)
    | (refine CoreOk.linkOk ?_)
    | (refine CoreOk.queueOk ?_)

theorem postBookingState_ok {b : Booking} {cause : Option MissedCause} {c : Core} (hok : CoreOk c) : CoreOk (postBookingState b cause c) := by
  unfold postBookingState
  try dsimp only
  with_reducible repeat' first
    | assumption
    | apply post_ok

theorem changeBooking_ok {b : Booking} {cause : Option MissedCause} {c : Core} (hok : CoreOk c) : CoreOk (changeBooking b cause c) := by
  unfold changeBooking
  try dsimp only
  with_reducible repeat' first
    | assumption
    | apply setBooking_ok
    | apply commitBooking_ok
    | apply postBookingState_ok

theorem missBooking_ok {b : Booking} {cause : MissedCause} {c : Core} (hok : CoreOk c) : CoreOk (missBooking b cause c) := by
  unfold missBooking
  try dsimp only
  with_reducible repeat' first
    | assumption
    | apply changeBooking_ok

theorem assertWake_ok {f : WakeCauses → WakeCauses} {c : Core} (hok : CoreOk c) : CoreOk (assertWake f c) := by
  unfold assertWake
  try dsimp only
  with_reducible repeat' first
    | assumption
    | (refine ite_ok ?_ ?_)
    | (refine coreOk_mk ?_ ?_)
    | (refine CoreOk.linkOk ?_)
    | (refine CoreOk.queueOk ?_)

theorem bookingOutcome_ok {id : Nat} {outcome : ChangeOutcome} {c : Core} (hok : CoreOk c) : CoreOk (bookingOutcome id outcome c) := by
  unfold bookingOutcome
  try dsimp only
  with_reducible repeat' first
    | assumption
    | (refine ite_ok ?_ ?_)
    | apply missBooking_ok
    | split

theorem endChange_ok {o : Output} {old : Session} {outcome : ChangeOutcome} {reasons : Option Reasons} {c : Core} (hok : CoreOk c) : CoreOk (endChange o old outcome reasons c) := by
  unfold endChange
  try dsimp only
  with_reducible repeat' first
    | assumption
    | apply post_ok
    | apply bookingOutcome_ok
    | split

theorem postSession_ok {o : Output} {c : Core} (hok : CoreOk c) : CoreOk (postSession o c) := by
  unfold postSession
  try dsimp only
  with_reducible repeat' first
    | assumption
    | apply post_ok

theorem purchaseOffer_ok {o : Output} {c : Core} (hok : CoreOk c) : CoreOk (purchaseOffer o c) := by
  unfold purchaseOffer
  try dsimp only
  with_reducible repeat' first
    | assumption
    | (refine ite_ok ?_ ?_)
    | apply post_ok
    | split

theorem arrive_ok {o : Output} {old : Session} {s : Session} {entering : Bool} {c : Core} (hok : CoreOk c) : CoreOk (arrive o old s entering c) := by
  unfold arrive
  try dsimp only
  with_reducible repeat' first
    | assumption
    | (refine ite_ok ?_ ?_)
    | apply setSession_ok
    | apply endChange_ok
    | apply postSession_ok
    | apply purchaseOffer_ok
    | split

theorem bindService_ok {o : Output} {e : LaneEntry} {c : Core} (hok : CoreOk c) : CoreOk (bindService o e c) := by
  unfold bindService
  try dsimp only
  with_reducible repeat' first
    | assumption
    | (refine ite_ok ?_ ?_)
    | apply unbindKey_ok
    | apply bindKey_ok
    | split

theorem enterChecking_ok {o : Output} {e : LaneEntry} {c : Core} (hok : CoreOk c) : CoreOk (enterChecking o e c) := by
  unfold enterChecking
  try dsimp only
  with_reducible repeat' first
    | assumption
    | (refine ite_ok ?_ ?_)
    | apply setSession_ok
    | apply postSession_ok
    | apply arrive_ok
    | apply bindService_ok

theorem tryChecking_ok {o : Output} {old : Session} {c : Core} (hok : CoreOk c) : CoreOk (tryChecking o old c) := by
  unfold tryChecking
  try dsimp only
  with_reducible repeat' first
    | assumption
    | (refine ite_ok ?_ ?_)
    | apply postSession_ok
    | apply enterChecking_ok
    | split

theorem reopen_ok {o : Output} {c : Core} (hok : CoreOk c) : CoreOk (reopen o c) := by
  unfold reopen
  try dsimp only
  with_reducible repeat' first
    | assumption
    | apply setSession_ok
    | apply tryChecking_ok

theorem reevalOne_ok {c : Core} {o : Output} (hok : CoreOk c) : CoreOk (reevalOne c o) := by
  unfold reevalOne
  try dsimp only
  with_reducible repeat' first
    | assumption
    | (refine ite_ok ?_ ?_)
    | apply setSession_ok
    | apply arrive_ok
    | split

theorem reevaluate_ok {c : Core} (hok : CoreOk c) : CoreOk (reevaluate c) := by
  unfold reevaluate
  try dsimp only
  with_reducible repeat' first
    | assumption
    | (refine foldl_ok ?_ ?_)
    | apply reevalOne_ok

theorem signalLost_ok {o : Output} {c : Core} (hok : CoreOk c) : CoreOk (signalLost o c) := by
  unfold signalLost
  try dsimp only
  with_reducible repeat' first
    | assumption
    | (refine ite_ok ?_ ?_)
    | apply setSession_ok
    | apply postSession_ok
    | split

theorem signalRegained_ok {o : Output} {c : Core} (hok : CoreOk c) : CoreOk (signalRegained o c) := by
  unfold signalRegained
  try dsimp only
  with_reducible repeat' first
    | assumption
    | (refine ite_ok ?_ ?_)
    | apply setSession_ok
    | apply arrive_ok
    | apply enterChecking_ok
    | apply tryChecking_ok
    | split

theorem endEventGrant_ok {o : Output} {c : Core} (hok : CoreOk c) : CoreOk (endEventGrant o c) := by
  unfold endEventGrant
  try dsimp only
  with_reducible repeat' first
    | assumption
    | (refine ite_ok ?_ ?_)
    | apply setContext_ok
    | split

theorem testSession_ok {c : Core} {o : Output} (hok : CoreOk c) : CoreOk (testSession c o) := by
  unfold testSession
  try dsimp only
  with_reducible repeat' first
    | assumption
    | (refine ite_ok ?_ ?_)
    | apply setSession_ok
    | apply post_ok
    | apply purchaseOffer_ok
    | apply reevaluate_ok
    | apply endEventGrant_ok
    | split

theorem testPresent_ok {c : Core} (hok : CoreOk c) : CoreOk (testPresent c) := by
  unfold testPresent
  try dsimp only
  with_reducible repeat' first
    | assumption
    | (refine foldl_ok ?_ ?_)
    | apply testSession_ok

theorem carry_ok {o : Output} {x : OutCell} {c : Core} (hok : CoreOk c) : CoreOk (carry o x c) := by
  unfold carry
  try dsimp only
  with_reducible repeat' first
    | assumption
    | (refine coreOk_mk ?_ ?_)
    | (refine CoreOk.linkOk ?_)
    | (refine CoreOk.queueOk ?_)

end Sys2Proof.Machine
end

