-- ==== Sys2Proof/Laws/KeepsTuners.lean ====
section
/-! SUPPORT. Tuners and rooms: their operations keep CoreOk. -/

namespace Sys2Proof.Machine

open Sys2Proof

theorem sendCommand_ok {t : Fin 4} {x : Option Carrier} {c : Core} (hok : CoreOk c) : CoreOk (sendCommand t x c) := by
  unfold sendCommand
  try dsimp only
  with_reducible repeat' first
    | assumption
    | apply setTuner_ok
    | (refine coreOk_mk ?_ ?_)
    | (refine CoreOk.linkOk ?_)
    | (refine CoreOk.queueOk ?_)

theorem tune_ok {t : Fin 4} {x : Carrier} {holders : Holders} {c : Core} (hok : CoreOk c) : CoreOk (tune t x holders c) := by
  unfold tune
  try dsimp only
  with_reducible repeat' first
    | assumption
    | apply setTuner_ok
    | apply sendCommand_ok

theorem turnOff_ok {t : Fin 4} {c : Core} (hok : CoreOk c) : CoreOk (turnOff t c) := by
  unfold turnOff
  try dsimp only
  with_reducible repeat' first
    | assumption
    | apply setTuner_ok
    | apply sendCommand_ok

theorem setHolder_ok {t : Fin 4} {x : Claimant} {b : Bool} {c : Core} (hok : CoreOk c) : CoreOk (setHolder t x b c) := by
  unfold setHolder
  try dsimp only
  with_reducible repeat' first
    | assumption
    | apply setTuner_ok

theorem startHold_ok {c : Core} (hok : CoreOk c) : CoreOk (startHold c) := by
  unfold startHold
  try dsimp only
  with_reducible repeat' first
    | assumption
    | (refine ite_ok ?_ ?_)
    | (refine coreOk_mk ?_ ?_)
    | (refine CoreOk.linkOk ?_)
    | (refine CoreOk.queueOk ?_)

theorem stopHold_ok {c : Core} (hok : CoreOk c) : CoreOk (stopHold c) := by
  unfold stopHold
  try dsimp only
  with_reducible repeat' first
    | assumption
    | (refine coreOk_mk ?_ ?_)
    | (refine CoreOk.linkOk ?_)
    | (refine CoreOk.queueOk ?_)

theorem watchTest_ok {c : Core} (hok : CoreOk c) : CoreOk (watchTest c) := by
  unfold watchTest
  try dsimp only
  with_reducible repeat' first
    | assumption
    | (refine ite_ok ?_ ?_)
    | apply tune_ok
    | apply setHolder_ok
    | apply startHold_ok
    | split

theorem endRecording_ok {stop : Output → Core → Core} {b : Booking} {c : Core} (hstop : ∀ o c, CoreOk c → CoreOk (stop o c)) (hok : CoreOk c) : CoreOk (endRecording stop b c) := by
  unfold endRecording
  try dsimp only
  with_reducible repeat' first
    | assumption
    | apply hstop
    | apply setBooking_ok
    | apply commitBooking_ok
    | apply postBookingState_ok
    | split

theorem judgeExtended_ok {stop : Output → Core → Core} {c : Core} {id : Nat} (hstop : ∀ o c, CoreOk c → CoreOk (stop o c)) (hok : CoreOk c) : CoreOk (judgeExtended stop c id) := by
  unfold judgeExtended
  try dsimp only
  with_reducible repeat' first
    | assumption
    | apply hstop
    | (refine ite_ok ?_ ?_)
    | apply endRecording_ok
    | split

theorem markerChanged_ok {stop : Output → Core → Core} {lcn : Nat} {c : Core} (hstop : ∀ o c, CoreOk c → CoreOk (stop o c)) (hok : CoreOk c) : CoreOk (markerChanged stop lcn c) := by
  unfold markerChanged
  try dsimp only
  with_reducible repeat' first
    | assumption
    | apply hstop
    | (refine foldl_ok ?_ ?_)
    | apply judgeExtended_ok
    | intro _

theorem removeMarkers_ok {stop : Output → Core → Core} {p : Marker → Bool} {c : Core} (hstop : ∀ o c, CoreOk c → CoreOk (stop o c)) (hok : CoreOk c) : CoreOk (removeMarkers stop p c) := by
  unfold removeMarkers
  try dsimp only
  with_reducible repeat' first
    | assumption
    | apply hstop
    | (refine foldl_ok ?_ ?_)
    | apply markerChanged_ok
    | intro _
    | (refine coreOk_mk ?_ ?_)
    | (refine CoreOk.linkOk ?_)
    | (refine CoreOk.queueOk ?_)

theorem carrierUnlocked_ok {stop : Output → Core → Core} {x : Option Carrier} {c : Core} (hstop : ∀ o c, CoreOk c → CoreOk (stop o c)) (hok : CoreOk c) : CoreOk (carrierUnlocked stop x c) := by
  unfold carrierUnlocked
  try dsimp only
  with_reducible repeat' first
    | assumption
    | apply hstop
    | apply testPresent_ok
    | apply removeMarkers_ok
    | split

theorem handLeft_ok {stop : Output → Core → Core} {t : Fin 4} {u : Tuner} {c : Core} (hstop : ∀ o c, CoreOk c → CoreOk (stop o c)) (hok : CoreOk c) : CoreOk (handLeft stop t u c) := by
  unfold handLeft
  try dsimp only
  with_reducible repeat' first
    | assumption
    | apply hstop
    | (refine ite_ok ?_ ?_)
    | apply setLaneMap_ok
    | apply closeTunerSlots_ok
    | apply settleControl_ok
    | apply watchTest_ok
    | apply carrierUnlocked_ok

theorem goOff_ok {stop : Output → Core → Core} {t : Fin 4} {c : Core} (hstop : ∀ o c, CoreOk c → CoreOk (stop o c)) (hok : CoreOk c) : CoreOk (goOff stop t c) := by
  unfold goOff
  try dsimp only
  with_reducible repeat' first
    | assumption
    | apply hstop
    | apply turnOff_ok
    | apply handLeft_ok

theorem releaseFrom_ok {stop : Output → Core → Core} {x : Claimant} {t : Fin 4} {c : Core} (hstop : ∀ o c, CoreOk c → CoreOk (stop o c)) (hok : CoreOk c) : CoreOk (releaseFrom stop x t c) := by
  unfold releaseFrom
  try dsimp only
  with_reducible repeat' first
    | assumption
    | apply hstop
    | (refine ite_ok ?_ ?_)
    | apply setHolder_ok
    | apply goOff_ok

theorem releaseWith_ok {stop : Output → Core → Core} {x : Claimant} {c : Core} (hstop : ∀ o c, CoreOk c → CoreOk (stop o c)) (hok : CoreOk c) : CoreOk (releaseWith stop x c) := by
  unfold releaseWith
  try dsimp only
  with_reducible repeat' first
    | assumption
    | apply hstop
    | apply releaseFrom_ok
    | split

theorem handStop_ok {origin : Origin} {c : Core} (hok : CoreOk c) : CoreOk (handStop origin c) := by
  unfold handStop
  try dsimp only
  with_reducible repeat' first
    | assumption
    | apply bookingOutcome_ok
    | split

theorem stopBody_ok {rel : Claimant → Core → Core} {o : Output} {c : Core} (hrel : ∀ o c, CoreOk c → CoreOk (rel o c)) (hok : CoreOk c) : CoreOk (stopBody rel o c) := by
  unfold stopBody
  try dsimp only
  with_reducible repeat' first
    | assumption
    | apply hrel
    | (refine ite_ok ?_ ?_)
    | apply setSession_ok
    | apply post_ok
    | apply unbindKey_ok
    | apply postSession_ok
    | apply handStop_ok

theorem stopN_ok (n : Nat) : ∀ (o : Output) (c : Core), CoreOk c → CoreOk (stopN n o c) := by
  induction n with
  | zero => exact fun _ _ h => h
  | succ n ih =>
    intro o c h
    exact stopBody_ok (fun x c hc => releaseWith_ok ih hc) h

theorem stopSession_ok {o : Output} {c : Core} (h : CoreOk c) : CoreOk (stopSession o c) := stopN_ok 33 o c h

theorem release_ok {x : Claimant} {c : Core} (h : CoreOk c) : CoreOk (release x c) :=
  releaseWith_ok (fun o c hc => stopN_ok 33 o c hc) h

theorem watchEnds_ok {c : Core} (hok : CoreOk c) : CoreOk (watchEnds c) := by
  unfold watchEnds
  try dsimp only
  with_reducible repeat' first
    | assumption
    | apply release_ok
    | apply stopHold_ok

theorem watchFailed_ok {c : Core} (hok : CoreOk c) : CoreOk (watchFailed c) := by
  unfold watchFailed
  try dsimp only
  with_reducible repeat' first
    | assumption
    | apply startHold_ok

theorem closeSchedule_ok {c : Core} (hok : CoreOk c) : CoreOk (closeSchedule c) := by
  unfold closeSchedule
  try dsimp only
  with_reducible repeat' first
    | assumption
    | apply closeWhere_ok

theorem endSweep_ok {c : Core} (hok : CoreOk c) : CoreOk (endSweep c) := by
  unfold endSweep
  try dsimp only
  with_reducible repeat' first
    | assumption
    | apply release_ok
    | apply closeSchedule_ok
    | (refine coreOk_mk ?_ ?_)
    | (refine CoreOk.linkOk ?_)
    | (refine CoreOk.queueOk ?_)

theorem openSchedule_ok {t : Fin 4} {c : Core} (hok : CoreOk c) : CoreOk (openSchedule t c) := by
  unfold openSchedule
  try dsimp only
  with_reducible repeat' first
    | assumption
    | apply openFilter_ok

theorem sweepLocked_ok {t : Fin 4} {c : Core} (hok : CoreOk c) : CoreOk (sweepLocked t c) := by
  unfold sweepLocked
  try dsimp only
  with_reducible repeat' first
    | assumption
    | (refine ite_ok ?_ ?_)
    | apply openSchedule_ok
    | (refine coreOk_mk ?_ ?_)
    | (refine CoreOk.linkOk ?_)
    | (refine CoreOk.queueOk ?_)

theorem holdTerminal_ok {o : Output} {r : Reasons} {outcome : ChangeOutcome} {reasons : Option Reasons} {c : Core} (hok : CoreOk c) : CoreOk (holdTerminal o r outcome reasons c) := by
  unfold holdTerminal
  try dsimp only
  with_reducible repeat' first
    | assumption
    | (refine ite_ok ?_ ?_)
    | apply setSession_ok
    | apply release_ok
    | apply unbindKey_ok
    | apply endChange_ok
    | apply postSession_ok

theorem loseService_ok {o : Output} {c : Core} (hok : CoreOk c) : CoreOk (loseService o c) := by
  unfold loseService
  try dsimp only
  with_reducible repeat' first
    | assumption
    | apply holdTerminal_ok

theorem tellTaken_ok {c : Core} {x : Claimant} (hok : CoreOk c) : CoreOk (tellTaken c x) := by
  unfold tellTaken
  try dsimp only
  with_reducible repeat' first
    | assumption
    | apply watchFailed_ok
    | apply endSweep_ok
    | apply holdTerminal_ok
    | split

theorem tellNoSignal_ok {c : Core} {x : Claimant} (hok : CoreOk c) : CoreOk (tellNoSignal c x) := by
  unfold tellNoSignal
  try dsimp only
  with_reducible repeat' first
    | assumption
    | apply setSession_ok
    | apply unbindKey_ok
    | apply endChange_ok
    | apply watchFailed_ok
    | apply endSweep_ok
    | split

theorem leaveOld_ok {x : Claimant} {old : Option (Fin 4)} {t : Fin 4} {c : Core} (hok : CoreOk c) : CoreOk (leaveOld x old t c) := by
  unfold leaveOld
  try dsimp only
  with_reducible repeat' first
    | assumption
    | (refine ite_ok ?_ ?_)
    | apply stopSession_ok
    | apply releaseFrom_ok
    | split

theorem carryOut_ok {x : Claimant} {car : Carrier} {p : Plan} {c : Core} (hok : CoreOk c) : CoreOk (carryOut x car p c) := by
  unfold carryOut
  try dsimp only
  with_reducible repeat' first
    | assumption
    | (refine ite_ok ?_ ?_)
    | (refine foldl_ok ?_ ?_)
    | apply stopSession_ok
    | apply tune_ok
    | apply setHolder_ok
    | apply handLeft_ok
    | apply watchEnds_ok
    | apply tellTaken_ok
    | apply leaveOld_ok
    | intro _
    | split

theorem watchReclaim_ok {c : Core} (hok : CoreOk c) : CoreOk (watchReclaim c) := by
  unfold watchReclaim
  try dsimp only
  with_reducible repeat' first
    | assumption
    | apply release_ok
    | apply startHold_ok
    | apply watchTest_ok
    | apply carryOut_ok
    | split

theorem toldLocked_ok {t : Fin 4} {c : Core} (hok : CoreOk c) : CoreOk (toldLocked t c) := by
  unfold toldLocked
  try dsimp only
  with_reducible repeat' first
    | assumption
    | (refine ite_ok ?_ ?_)
    | apply watchEnds_ok

theorem sessionLocked_ok {t : Fin 4} {c : Core} {o : Output} (hok : CoreOk c) : CoreOk (sessionLocked t c o) := by
  unfold sessionLocked
  try dsimp only
  with_reducible repeat' first
    | assumption
    | (refine ite_ok ?_ ?_)
    | apply setSession_ok
    | apply tryChecking_ok

theorem acquired_ok {t : Fin 4} {c : Core} (hok : CoreOk c) : CoreOk (acquired t c) := by
  unfold acquired
  try dsimp only
  with_reducible repeat' first
    | assumption
    | (refine ite_ok ?_ ?_)
    | (refine foldl_ok ?_ ?_)
    | apply setTuner_ok
    | apply openFilter_ok
    | apply settleControl_ok
    | apply sweepLocked_ok
    | apply toldLocked_ok
    | apply sessionLocked_ok

theorem regained_ok {t : Fin 4} {c : Core} (hok : CoreOk c) : CoreOk (regained t c) := by
  unfold regained
  try dsimp only
  with_reducible repeat' first
    | assumption
    | (refine foldl_ok ?_ ?_)
    | apply setTuner_ok
    | apply settleControl_ok
    | apply signalRegained_ok
    | apply toldLocked_ok
    | intro _

theorem lost_ok {t : Fin 4} {c : Core} (hok : CoreOk c) : CoreOk (lost t c) := by
  unfold lost
  try dsimp only
  with_reducible repeat' first
    | assumption
    | (refine ite_ok ?_ ?_)
    | (refine foldl_ok ?_ ?_)
    | apply setTuner_ok
    | apply stopSession_ok
    | apply settleControl_ok
    | apply discardAssembly_ok
    | apply signalLost_ok
    | apply watchTest_ok
    | apply carrierUnlocked_ok
    | intro _

theorem lockReport_ok {t : Fin 4} {count : BitVec 4} {c : Core} (hok : CoreOk c) : CoreOk (lockReport t count c) := by
  unfold lockReport
  try dsimp only
  with_reducible repeat' first
    | assumption
    | (refine ite_ok ?_ ?_)
    | apply acquired_ok
    | apply regained_ok
    | split

theorem lossReport_ok {t : Fin 4} {count : BitVec 4} {c : Core} (hok : CoreOk c) : CoreOk (lossReport t count c) := by
  unfold lossReport
  try dsimp only
  with_reducible repeat' first
    | assumption
    | (refine ite_ok ?_ ?_)
    | apply lost_ok

theorem acquisitionFailed_ok {t : Fin 4} {c : Core} (hok : CoreOk c) : CoreOk (acquisitionFailed t c) := by
  unfold acquisitionFailed
  try dsimp only
  with_reducible repeat' first
    | assumption
    | (refine ite_ok ?_ ?_)
    | (refine foldl_ok ?_ ?_)
    | apply stopSession_ok
    | apply turnOff_ok
    | apply handLeft_ok
    | apply tellNoSignal_ok

theorem lossTimerExpired_ok {t : Fin 4} {c : Core} (hok : CoreOk c) : CoreOk (lossTimerExpired t c) := by
  unfold lossTimerExpired
  try dsimp only
  with_reducible repeat' first
    | assumption
    | (refine ite_ok ?_ ?_)
    | apply setTuner_ok
    | apply post_ok

theorem holdExpired_ok {c : Core} (hok : CoreOk c) : CoreOk (holdExpired c) := by
  unfold holdExpired
  try dsimp only
  with_reducible repeat' first
    | assumption
    | (refine ite_ok ?_ ?_)
    | apply watchTest_ok
    | (refine coreOk_mk ?_ ?_)
    | (refine CoreOk.linkOk ?_)
    | (refine CoreOk.queueOk ?_)

theorem claimFor_ok {o : Output} {lcn : Nat} {x : Carrier} {tag : ChangeTag} {origin : Origin} {m : ClaimMode} {refusedBy : Core → Core} {c : Core} (hrefusedBy : ∀ c, CoreOk c → CoreOk (refusedBy c)) (hok : CoreOk c) : CoreOk (claimFor o lcn x tag origin m refusedBy c) := by
  unfold claimFor
  try dsimp only
  with_reducible repeat' first
    | assumption
    | apply hrefusedBy
    | (refine ite_ok ?_ ?_)
    | apply setSession_ok
    | apply tryChecking_ok
    | apply carryOut_ok
    | split

theorem toIdle_ok {o : Output} {c : Core} (hok : CoreOk c) : CoreOk (toIdle o c) := by
  unfold toIdle
  try dsimp only
  with_reducible repeat' first
    | assumption
    | apply setSession_ok
    | apply release_ok
    | apply unbindKey_ok

theorem changeRefused_ok {o : Output} {lcn : Nat} {tag : ChangeTag} {origin : Origin} {superseded : Bool} {c : Core} (hok : CoreOk c) : CoreOk (changeRefused o lcn tag origin superseded c) := by
  unfold changeRefused
  try dsimp only
  with_reducible repeat' first
    | assumption
    | (refine ite_ok ?_ ?_)
    | apply endChange_ok
    | apply toIdle_ok

theorem supersede_ok {o : Output} {c : Core} (hok : CoreOk c) : CoreOk (supersede o c) := by
  unfold supersede
  try dsimp only
  with_reducible repeat' first
    | assumption
    | (refine ite_ok ?_ ?_)
    | apply setSession_ok
    | apply endChange_ok

theorem beginChange_ok {o : Output} {lcn : Nat} {e : ChannelEntry} {tag : ChangeTag} {origin : Origin} {m : ClaimMode} {superseded : Bool} {c : Core} (hok : CoreOk c) : CoreOk (beginChange o lcn e tag origin m superseded c) := by
  unfold beginChange
  try dsimp only
  with_reducible repeat' first
    | assumption
    | apply setSession_ok
    | apply loseService_ok
    | apply claimFor_ok
    | apply changeRefused_ok
    | split

theorem select_ok {o : Output} {lcn : Nat} {e : ChannelEntry} {tag : ChangeTag} {origin : Origin} {m : ClaimMode} {c : Core} (hok : CoreOk c) : CoreOk (select o lcn e tag origin m c) := by
  unfold select
  try dsimp only
  with_reducible repeat' first
    | assumption
    | apply supersede_ok
    | apply beginChange_ok

theorem endGrant_ok {o : Output} {c : Core} (hok : CoreOk c) : CoreOk (endGrant o c) := by
  unfold endGrant
  try dsimp only
  with_reducible repeat' first
    | assumption
    | apply setContext_ok
    | split

theorem laneEntryChanged_ok {t : Fin 4} {e : LaneEntry} {c : Core} {o : Output} (hok : CoreOk c) : CoreOk (laneEntryChanged t e c o) := by
  unfold laneEntryChanged
  try dsimp only
  with_reducible repeat' first
    | assumption
    | (refine ite_ok ?_ ?_)
    | apply setSession_ok
    | apply bindService_ok
    | apply enterChecking_ok
    | apply reevaluate_ok

theorem laneEntryRemoved_ok {t : Fin 4} {n : Nat} {c : Core} {o : Output} (hok : CoreOk c) : CoreOk (laneEntryRemoved t n c o) := by
  unfold laneEntryRemoved
  try dsimp only
  with_reducible repeat' first
    | assumption
    | (refine ite_ok ?_ ?_)
    | apply setSession_ok
    | apply postSession_ok

theorem takeLaneEntry_ok {t : Fin 4} {version : Nat} {c : Core} {e : LaneEntry} (hok : CoreOk c) : CoreOk (takeLaneEntry t version c e) := by
  unfold takeLaneEntry
  try dsimp only
  with_reducible repeat' first
    | assumption
    | (refine ite_ok ?_ ?_)
    | (refine foldl_ok ?_ ?_)
    | apply setLaneMap_ok
    | apply laneEntryChanged_ok

theorem completeLaneMap_ok {t : Fin 4} {version : Nat} {c : Core} (hok : CoreOk c) : CoreOk (completeLaneMap t version c) := by
  unfold completeLaneMap
  try dsimp only
  with_reducible repeat' first
    | assumption
    | (refine foldl_ok ?_ ?_)
    | apply setLaneMap_ok
    | apply laneEntryRemoved_ok
    | intro _

theorem takeLaneMap_ok {t : Fin 4} {h : SegmentHeader} {entries : List LaneEntry} {c : Core} (hok : CoreOk c) : CoreOk (takeLaneMap t h entries c) := by
  unfold takeLaneMap
  try dsimp only
  with_reducible repeat' first
    | assumption
    | (refine ite_ok ?_ ?_)
    | (refine foldl_ok ?_ ?_)
    | apply setLaneMap_ok
    | apply takeLaneEntry_ok
    | apply completeLaneMap_ok

theorem moveSession_ok {o : Output} {old : Carrier} {new : Carrier} {c : Core} (hok : CoreOk c) : CoreOk (moveSession o old new c) := by
  unfold moveSession
  try dsimp only
  with_reducible repeat' first
    | assumption
    | (refine ite_ok ?_ ?_)
    | apply post_ok
    | apply endChange_ok
    | apply claimFor_ok
    | apply toIdle_ok
    | intro _
    | split

theorem renumberSession_ok {o : Output} {c : Core} (hok : CoreOk c) : CoreOk (renumberSession o c) := by
  unfold renumberSession
  try dsimp only
  with_reducible repeat' first
    | assumption
    | apply setSession_ok
    | apply tryChecking_ok
    | apply reopen_ok
    | split

theorem reportSession_ok {cls : Nat → ChangeClass × Option Carrier × Option Carrier} {c : Core} {o : Output} (hok : CoreOk c) : CoreOk (reportSession cls c o) := by
  unfold reportSession
  try dsimp only
  with_reducible repeat' first
    | assumption
    | (refine ite_ok ?_ ?_)
    | apply loseService_ok
    | apply moveSession_ok
    | apply renumberSession_ok
    | split

theorem reportToSessions_ok {cls : Nat → ChangeClass × Option Carrier × Option Carrier} {c : Core} (hok : CoreOk c) : CoreOk (reportToSessions cls c) := by
  unfold reportToSessions
  try dsimp only
  with_reducible repeat' first
    | assumption
    | (refine foldl_ok ?_ ?_)
    | apply reevaluate_ok
    | apply reportSession_ok

theorem laneWaitExpired_ok {o : Output} {c : Core} (hok : CoreOk c) : CoreOk (laneWaitExpired o c) := by
  unfold laneWaitExpired
  try dsimp only
  with_reducible repeat' first
    | assumption
    | (refine ite_ok ?_ ?_)
    | apply setSession_ok
    | apply loseService_ok

theorem keyWaitExpired_ok {o : Output} {c : Core} (hok : CoreOk c) : CoreOk (keyWaitExpired o c) := by
  unfold keyWaitExpired
  try dsimp only
  with_reducible repeat' first
    | assumption
    | (refine ite_ok ?_ ?_)
    | apply setSession_ok
    | apply arrive_ok

theorem selectChannel_ok {tag : Byte} {a : SelectReq} {c : Core} (hok : CoreOk c) : CoreOk (selectChannel tag a c).2 := by
  unfold selectChannel
  try dsimp only
  with_reducible repeat' first
    | assumption
    | (refine ite_ok ?_ ?_)
    | apply select_ok
    | apply endGrant_ok
    | split

theorem stopOutput_ok {n : Nat} {c : Core} (hok : CoreOk c) : CoreOk (stopOutput n c).2 := by
  unfold stopOutput
  try dsimp only
  with_reducible repeat' first
    | assumption
    | (refine ite_ok ?_ ?_)
    | apply stopSession_ok
    | split

end Sys2Proof.Machine
end

