-- ==== Sys2Proof/Laws/KeepsAccounts.lean ====
section
/-! SUPPORT. Grants, limits, purchases and the uplink: their operations keep CoreOk. -/

namespace Sys2Proof.Machine

open Sys2Proof

theorem setEvents_ok {l : List EventGrant} {c : Core} (hok : CoreOk c) : CoreOk (setEvents l c) := by
  unfold setEvents
  try dsimp only
  with_reducible repeat' first
    | assumption
    | (refine coreOk_mk ?_ ?_)
    | (refine CoreOk.linkOk ?_)
    | (refine CoreOk.queueOk ?_)

theorem setPackages_ok {l : List PackageGrant} {c : Core} (hok : CoreOk c) : CoreOk (setPackages l c) := by
  unfold setPackages
  try dsimp only
  with_reducible repeat' first
    | assumption
    | (refine coreOk_mk ?_ ?_)
    | (refine CoreOk.linkOk ?_)
    | (refine CoreOk.queueOk ?_)

theorem commitGroup_ok {credit : Bool} {c : Core} (hok : CoreOk c) : CoreOk (commitGroup credit c) := by
  unfold commitGroup
  try dsimp only
  with_reducible repeat' first
    | assumption
    | exact offer_ok (by assumption) (by assumption)
    | apply offer_ok (by assumption)
    | split
    | (refine coreOk_mk ?_ ?_)
    | (refine CoreOk.linkOk ?_)
    | (refine CoreOk.queueOk ?_)

theorem postGrants_ok {cause : GrantsCause} {c : Core} (hok : CoreOk c) : CoreOk (postGrants cause c) := by
  unfold postGrants
  try dsimp only
  with_reducible repeat' first
    | assumption
    | apply post_ok

theorem expireEvents_ok {now : Nat} {c : Core} (hok : CoreOk c) : CoreOk (expireEvents now c) := by
  unfold expireEvents
  try dsimp only
  with_reducible repeat' first
    | assumption
    | (refine ite_ok ?_ ?_)
    | apply reevaluate_ok
    | apply setEvents_ok
    | apply commitGroup_ok
    | apply postGrants_ok

theorem expirePackages_ok {today : Int} {c : Core} (hok : CoreOk c) : CoreOk (expirePackages today c) := by
  unfold expirePackages
  try dsimp only
  with_reducible repeat' first
    | assumption
    | (refine ite_ok ?_ ?_)
    | apply reevaluate_ok
    | apply setPackages_ok
    | apply commitGroup_ok
    | apply postGrants_ok

theorem wipeAccess_ok {c : Core} (hok : CoreOk c) : CoreOk (wipeAccess c) := by
  unfold wipeAccess
  try dsimp only
  with_reducible repeat' first
    | assumption
    | apply reevaluate_ok
    | apply postGrants_ok
    | (refine coreOk_mk ?_ ?_)
    | (refine CoreOk.linkOk ?_)
    | (refine CoreOk.queueOk ?_)

theorem setIssue_ok {i : Issue} {c : Core} (hok : CoreOk c) : CoreOk (setIssue i c) := by
  unfold setIssue
  try dsimp only
  with_reducible repeat' first
    | assumption
    | (refine coreOk_mk ?_ ?_)
    | (refine CoreOk.linkOk ?_)
    | (refine CoreOk.queueOk ?_)

theorem commitLimit_ok {k : LimitCommit} {c : Core} (hok : CoreOk c) : CoreOk (commitLimit k c).2 := by
  unfold commitLimit
  try dsimp only
  with_reducible repeat' first
    | assumption
    | apply setLimits_ok
    | exact offer_ok (by assumption) (by assumption)
    | apply offer_ok (by assumption)
    | split

theorem commitLimit_ok' {k : LimitCommit} {c : Core} {ans : OfferAnswer} {c' : Core} (e : commitLimit k c = (ans, c')) (hok : CoreOk c) : CoreOk c' := by
  have := commitLimit_ok (k := k) (c := c) hok
  rw [e] at this; exact this

theorem commitLimit'_ok {k : LimitCommit} {c : Core} (hok : CoreOk c) : CoreOk (commitLimit' k c) := by
  unfold commitLimit'
  try dsimp only
  with_reducible repeat' first
    | assumption
    | apply commitLimit_ok

theorem pinFailure_ok {c : Core} (hok : CoreOk c) : CoreOk (pinFailure c) := by
  unfold pinFailure
  try dsimp only
  with_reducible repeat' first
    | assumption
    | (refine ite_ok ?_ ?_)
    | apply setLimits_ok
    | apply post_ok
    | apply commitLimit_ok

theorem pinSuccess_ok {c : Core} (hok : CoreOk c) : CoreOk (pinSuccess c) := by
  unfold pinSuccess
  try dsimp only
  with_reducible repeat' first
    | assumption
    | (refine ite_ok ?_ ?_)
    | apply setLimits_ok
    | apply commitLimit'_ok

theorem pinCheck_ok {p : Option Pin} {c : Core} (hok : CoreOk c) : CoreOk (pinCheck p c).2 := by
  unfold pinCheck
  try dsimp only
  with_reducible repeat' first
    | assumption
    | (refine ite_ok ?_ ?_)
    | apply pinFailure_ok
    | apply pinSuccess_ok
    | split

theorem pinCheck_ok' {p : Option Pin} {c : Core} {ans : PinAnswer} {c' : Core} (e : pinCheck p c = (ans, c')) (hok : CoreOk c) : CoreOk c' := by
  have := pinCheck_ok (p := p) (c := c) hok
  rw [e] at this; exact this

theorem withPin_ok {p : Option Pin} {k : Core → Answer × Core} {c : Core} (hk : ∀ c, CoreOk c → CoreOk (k c).2) (hok : CoreOk c) : CoreOk (withPin p k c).2 := by
  unfold withPin
  try dsimp only
  with_reducible repeat' first
    | assumption
    | apply hk
    | apply pinCheck_ok
    | apply pinCheck_ok' (by assumption)
    | split

theorem lockoutExpired_ok {c : Core} (hok : CoreOk c) : CoreOk (lockoutExpired c) := by
  unfold lockoutExpired
  try dsimp only
  with_reducible repeat' first
    | assumption
    | (refine ite_ok ?_ ?_)
    | apply setLimits_ok
    | apply commitLimit'_ok

theorem pinReported_ok {writing : Bool} {c : Core} (hok : CoreOk c) : CoreOk (pinReported writing c) := by
  unfold pinReported
  try dsimp only
  with_reducible repeat' first
    | assumption
    | apply setLimits_ok
    | (refine ite_ok ?_ ?_)

theorem unlockRoom_ok {a : RoomPinReq} {c : Core} (hok : CoreOk c) : CoreOk (unlockRoom a c).2 := by
  unfold unlockRoom
  try dsimp only
  with_reducible repeat' first
    | assumption
    | apply setContext_ok
    | apply reevaluate_ok
    | apply withPin_ok
    | intro _
    | split

theorem relockRoom_ok {n : Nat} {c : Core} (hok : CoreOk c) : CoreOk (relockRoom n c).2 := by
  unfold relockRoom
  try dsimp only
  with_reducible repeat' first
    | assumption
    | (refine ite_ok ?_ ?_)
    | apply setContext_ok
    | apply reevaluate_ok
    | split

theorem relockContext_ok {r : Room} {c : Core} (hok : CoreOk c) : CoreOk (relockContext r c) := by
  unfold relockContext
  try dsimp only
  with_reducible repeat' first
    | assumption
    | apply setContext_ok

theorem relockAll_ok {u : Unit} {c : Core} (hok : CoreOk c) : CoreOk (relockAll u c).2 := by
  unfold relockAll
  try dsimp only
  with_reducible repeat' first
    | assumption
    | (refine ite_ok ?_ ?_)
    | apply reevaluate_ok
    | apply relockContext_ok
    | split

theorem switchTo_ok {r : Room} {n : Nat} {c : Core} (hok : CoreOk c) : CoreOk (switchTo r n c).2 := by
  unfold switchTo
  try dsimp only
  with_reducible repeat' first
    | assumption
    | apply setContext_ok
    | apply reevaluate_ok

theorem switchProfile_ok {a : ProfilePinReq} {c : Core} (hok : CoreOk c) : CoreOk (switchProfile a c).2 := by
  unfold switchProfile
  try dsimp only
  with_reducible repeat' first
    | assumption
    | (refine ite_ok ?_ ?_)
    | apply withPin_ok
    | apply switchTo_ok
    | split

theorem returnProfile_ok {n : Nat} {c : Core} (hok : CoreOk c) : CoreOk (returnProfile n c).2 := by
  unfold returnProfile
  try dsimp only
  with_reducible repeat' first
    | assumption
    | apply setContext_ok
    | apply reevaluate_ok
    | intro _
    | split

theorem setDefault_ok {r : Room} {n : Nat} {c : Core} (hok : CoreOk c) : CoreOk (setDefault r n c) := by
  unfold setDefault
  try dsimp only
  with_reducible repeat' first
    | assumption
    | apply setContext_ok

theorem settleLimit_ok {k : LimitCommit} {it : Item} {change : Core → Core} {c : Core} (hchange : ∀ c, CoreOk c → CoreOk (change c)) (hok : CoreOk c) : CoreOk (settleLimit k it change c).2 := by
  unfold settleLimit
  try dsimp only
  with_reducible repeat' first
    | assumption
    | apply hchange
    | exact offer_ok (by assumption) (by assumption)
    | apply offer_ok (by assumption)
    | apply setLimits_ok
    | split

theorem setRoomDefault_ok {a : ProfilePinReq} {c : Core} (hok : CoreOk c) : CoreOk (setRoomDefault a c).2 := by
  unfold setRoomDefault
  try dsimp only
  with_reducible repeat' first
    | assumption
    | (refine ite_ok ?_ ?_)
    | apply setLimits_ok
    | (refine settle_ok ?_ ?_)
    | apply withPin_ok
    | apply setDefault_ok
    | intro _
    | (refine ite_ok2 ?_ ?_)
    | apply settleLimit_ok
    | split

theorem restartContexts_ok {c : Core} (hok : CoreOk c) : CoreOk (restartContexts c) := by
  unfold restartContexts
  try dsimp only
  with_reducible repeat' first
    | assumption
    | apply setContext_ok

theorem putProfile_ok {n : Nat} {p : Option Profile} {c : Core} (hok : CoreOk c) : CoreOk (putProfile n p c) := by
  unfold putProfile
  try dsimp only
  with_reducible repeat' first
    | assumption
    | (refine ite_ok ?_ ?_)
    | apply setLimits_ok
    | split

theorem removeProfile_ok {n : Nat} {c : Core} (hok : CoreOk c) : CoreOk (removeProfile n c) := by
  unfold removeProfile
  try dsimp only
  with_reducible repeat' first
    | assumption
    | (refine ite_ok ?_ ?_)
    | apply setContext_ok
    | apply commitLimit'_ok
    | apply putProfile_ok

theorem applyProfile_ok {n : Nat} {f : Option ProfileFields} {c : Core} (hok : CoreOk c) : CoreOk (applyProfile n f c) := by
  unfold applyProfile
  try dsimp only
  with_reducible repeat' first
    | assumption
    | (refine ite_ok ?_ ?_)
    | apply reevaluate_ok
    | apply commitLimit'_ok
    | apply putProfile_ok
    | apply removeProfile_ok
    | split

theorem setProfile_ok {a : SetProfileReq} {c : Core} (hok : CoreOk c) : CoreOk (setProfile a c).2 := by
  unfold setProfile
  try dsimp only
  with_reducible repeat' first
    | assumption
    | (refine ite_ok ?_ ?_)
    | (refine settle_ok ?_ ?_)
    | apply withPin_ok
    | apply applyProfile_ok
    | intro _
    | (refine ite_ok2 ?_ ?_)

theorem setPin_ok {a : SetPinReq} {c : Core} (hok : CoreOk c) : CoreOk (setPin a c).2 := by
  unfold setPin
  try dsimp only
  with_reducible repeat' first
    | assumption
    | (refine ite_ok ?_ ?_)
    | apply setLimits_ok
    | (refine settle_ok ?_ ?_)
    | apply withPin_ok
    | intro _
    | (refine ite_ok2 ?_ ?_)
    | apply settleLimit_ok

theorem commitList_ok {l : List Nat} {c : Core} (hok : CoreOk c) : CoreOk (commitList l c).2 := by
  unfold commitList
  try dsimp only
  with_reducible repeat' first
    | assumption
    | apply setLimits_ok
    | (refine settle_ok ?_ ?_)
    | apply reevaluate_ok
    | intro _
    | apply settleLimit_ok

theorem lockChannel_ok {a : LcnPinReq} {c : Core} (hok : CoreOk c) : CoreOk (lockChannel a c).2 := by
  unfold lockChannel
  try dsimp only
  with_reducible repeat' first
    | assumption
    | (refine ite_ok ?_ ?_)
    | apply withPin_ok
    | apply commitList_ok
    | intro _
    | (refine ite_ok2 ?_ ?_)

theorem unlockChannel_ok {a : LcnPinReq} {c : Core} (hok : CoreOk c) : CoreOk (unlockChannel a c).2 := by
  unfold unlockChannel
  try dsimp only
  with_reducible repeat' first
    | assumption
    | (refine ite_ok ?_ ?_)
    | apply withPin_ok
    | apply commitList_ok
    | intro _
    | (refine ite_ok2 ?_ ?_)

theorem reportToLocks_ok {vanished : Nat → Bool} {c : Core} (hok : CoreOk c) : CoreOk (reportToLocks vanished c) := by
  unfold reportToLocks
  try dsimp only
  with_reducible repeat' first
    | assumption
    | (refine ite_ok ?_ ?_)
    | apply setLimits_ok
    | apply commitLimit'_ok

theorem limitMinute_ok {c : Core} (hok : CoreOk c) : CoreOk (limitMinute c) := by
  unfold limitMinute
  try dsimp only
  with_reducible repeat' first
    | assumption
    | (refine ite_ok ?_ ?_)
    | apply reevaluate_ok
    | intro _
    | split

theorem limitClockChanged_ok {c : Core} (hok : CoreOk c) : CoreOk (limitClockChanged c) := by
  unfold limitClockChanged
  try dsimp only
  with_reducible repeat' first
    | assumption
    | (refine ite_ok ?_ ?_)
    | apply reevaluate_ok

theorem charge_ok {c : Core} {n : Nat} (hok : CoreOk c) : CoreOk (charge c n) := by
  unfold charge
  try dsimp only
  with_reducible repeat' first
    | assumption
    | (refine ite_ok ?_ ?_)
    | apply post_ok
    | apply reevaluate_ok
    | apply commitLimit'_ok
    | apply putProfile_ok
    | split

theorem allowanceMinute_ok {c : Core} (hok : CoreOk c) : CoreOk (allowanceMinute c) := by
  unfold allowanceMinute
  try dsimp only
  with_reducible repeat' first
    | assumption
    | (refine ite_ok ?_ ?_)
    | (refine foldl_ok ?_ ?_)
    | apply setLimits_ok
    | apply charge_ok

theorem limitRollover_ok {c : Core} (hok : CoreOk c) : CoreOk (limitRollover c) := by
  unfold limitRollover
  try dsimp only
  with_reducible repeat' first
    | assumption
    | apply setLimits_ok
    | apply reevaluate_ok
    | apply commitLimit'_ok

theorem wipeLimits_ok {c : Core} (hok : CoreOk c) : CoreOk (wipeLimits c) := by
  unfold wipeLimits
  try dsimp only
  with_reducible repeat' first
    | assumption
    | apply setContext_ok
    | apply setLimits_ok
    | apply reevaluate_ok

theorem startReportTimer_ok {c : Core} (hok : CoreOk c) : CoreOk (startReportTimer c) := by
  unfold startReportTimer
  try dsimp only
  with_reducible repeat' first
    | assumption
    | (refine ite_ok ?_ ?_)
    | apply setUplinkState_ok

theorem stopReportTimer_ok {c : Core} (hok : CoreOk c) : CoreOk (stopReportTimer c) := by
  unfold stopReportTimer
  try dsimp only
  with_reducible repeat' first
    | assumption
    | apply setUplinkState_ok

theorem becameUnreported_ok {before : Nat} {c : Core} (hok : CoreOk c) : CoreOk (becameUnreported before c) := by
  unfold becameUnreported
  try dsimp only
  with_reducible repeat' first
    | assumption
    | (refine ite_ok ?_ ?_)
    | apply startReportTimer_ok

theorem stopIfReported_ok {c : Core} (hok : CoreOk c) : CoreOk (stopIfReported c) := by
  unfold stopIfReported
  try dsimp only
  with_reducible repeat' first
    | assumption
    | (refine ite_ok ?_ ?_)
    | apply stopReportTimer_ok

theorem handReport_ok {records : List PurchaseRecord} {parity : Bool} {c : Core} (hok : CoreOk c) : CoreOk (handReport records parity c) := by
  unfold handReport
  try dsimp only
  with_reducible repeat' first
    | assumption
    | apply setUplinkState_ok

theorem sendReport_ok {c : Core} (hok : CoreOk c) : CoreOk (sendReport c) := by
  unfold sendReport
  try dsimp only
  with_reducible repeat' first
    | assumption
    | apply setUplinkState_ok
    | apply handReport_ok

theorem dueTest_ok {c : Core} (hok : CoreOk c) : CoreOk (dueTest c) := by
  unfold dueTest
  try dsimp only
  with_reducible repeat' first
    | assumption
    | (refine ite_ok ?_ ?_)
    | apply setUplinkState_ok
    | apply sendReport_ok

theorem commitLogAck_ok {c : Core} (hok : CoreOk c) : CoreOk (commitLogAck c) := by
  unfold commitLogAck
  try dsimp only
  with_reducible repeat' first
    | assumption
    | apply setPurchase_ok
    | exact offer_ok (by assumption) (by assumption)
    | apply offer_ok (by assumption)
    | split

theorem acknowledged_ok {c : Core} (hok : CoreOk c) : CoreOk (acknowledged c) := by
  unfold acknowledged
  try dsimp only
  with_reducible repeat' first
    | assumption
    | apply setUplinkState_ok

theorem markReported_ok {b : Bool} {c : Core} (hok : CoreOk c) : CoreOk (markReported b c) := by
  unfold markReported
  try dsimp only
  with_reducible repeat' first
    | assumption
    | (refine ite_ok ?_ ?_)
    | apply setPurchase_ok

theorem failure_ok {c : Core} (hok : CoreOk c) : CoreOk (failure c) := by
  unfold failure
  try dsimp only
  with_reducible repeat' first
    | assumption
    | (refine ite_ok ?_ ?_)
    | apply setUplinkState_ok
    | apply post_ok
    | apply release_ok
    | apply becameUnreported_ok
    | apply markReported_ok

theorem testRecovery_ok {c : Core} (hok : CoreOk c) : CoreOk (testRecovery c) := by
  unfold testRecovery
  try dsimp only
  with_reducible repeat' first
    | assumption
    | (refine ite_ok ?_ ?_)
    | apply setUplinkState_ok
    | apply post_ok
    | apply release_ok
    | apply dueTest_ok

theorem reportTimerSent_ok {c : Core} (hok : CoreOk c) : CoreOk (reportTimerSent c) := by
  unfold reportTimerSent
  try dsimp only
  with_reducible repeat' first
    | assumption
    | (refine ite_ok ?_ ?_)
    | apply stopReportTimer_ok
    | apply startReportTimer_ok

theorem answerSent_ok {c : Core} (hok : CoreOk c) : CoreOk (answerSent c) := by
  unfold answerSent
  try dsimp only
  with_reducible repeat' first
    | assumption
    | (refine ite_ok ?_ ?_)
    | apply setUplinkState_ok
    | apply startReportTimer_ok
    | apply stopReportTimer_ok
    | apply dueTest_ok
    | apply commitLogAck_ok
    | apply acknowledged_ok
    | apply markReported_ok
    | apply reportTimerSent_ok

theorem modemAnswer_ok {attempt : Byte} {answer : Byte} {c : Core} (hok : CoreOk c) : CoreOk (modemAnswer attempt answer c) := by
  unfold modemAnswer
  try dsimp only
  with_reducible repeat' first
    | assumption
    | (refine ite_ok ?_ ?_)
    | apply setUplinkState_ok
    | apply failure_ok
    | apply answerSent_ok
    | split

theorem answerWaitExpired_ok {c : Core} (hok : CoreOk c) : CoreOk (answerWaitExpired c) := by
  unfold answerWaitExpired
  try dsimp only
  with_reducible repeat' first
    | assumption
    | (refine ite_ok ?_ ?_)
    | apply setUplinkState_ok
    | apply failure_ok

theorem retryExpired_ok {c : Core} (hok : CoreOk c) : CoreOk (retryExpired c) := by
  unfold retryExpired
  try dsimp only
  with_reducible repeat' first
    | assumption
    | (refine ite_ok ?_ ?_)
    | apply setUplinkState_ok
    | apply handReport_ok
    | split

theorem ackWaitExpired_ok {c : Core} (hok : CoreOk c) : CoreOk (ackWaitExpired c) := by
  unfold ackWaitExpired
  try dsimp only
  with_reducible repeat' first
    | assumption
    | (refine ite_ok ?_ ?_)
    | apply setUplinkState_ok
    | apply failure_ok

theorem backoffExpired_ok {c : Core} (hok : CoreOk c) : CoreOk (backoffExpired c) := by
  unfold backoffExpired
  try dsimp only
  with_reducible repeat' first
    | assumption
    | (refine ite_ok ?_ ?_)
    | apply setUplinkState_ok
    | apply dueTest_ok

theorem quietExpired_ok {c : Core} (hok : CoreOk c) : CoreOk (quietExpired c) := by
  unfold quietExpired
  try dsimp only
  with_reducible repeat' first
    | assumption
    | (refine ite_ok ?_ ?_)
    | apply setUplinkState_ok
    | apply testRecovery_ok

theorem reportTimerExpired_ok {c : Core} (hok : CoreOk c) : CoreOk (reportTimerExpired c) := by
  unfold reportTimerExpired
  try dsimp only
  with_reducible repeat' first
    | assumption
    | (refine ite_ok ?_ ?_)
    | apply setUplinkState_ok
    | apply dueTest_ok

theorem uplinkNow_ok {u : Unit} {c : Core} (hok : CoreOk c) : CoreOk (uplinkNow u c).2 := by
  unfold uplinkNow
  try dsimp only
  with_reducible repeat' first
    | assumption
    | apply setUplinkState_ok
    | apply dueTest_ok

theorem uplinkRelease_ok {u : Unit} {c : Core} (hok : CoreOk c) : CoreOk (uplinkRelease u c).2 := by
  unfold uplinkRelease
  try dsimp only
  with_reducible repeat' first
    | assumption
    | (refine ite_ok ?_ ?_)
    | apply setUplinkState_ok
    | apply release_ok
    | apply testRecovery_ok
    | (refine ite_ok2 ?_ ?_)

theorem applyUplink_ok {m : Recovery} {interval : Nat} {c : Core} (hok : CoreOk c) : CoreOk (applyUplink m interval c) := by
  unfold applyUplink
  try dsimp only
  with_reducible repeat' first
    | assumption
    | (refine ite_ok ?_ ?_)
    | apply setUplinkState_ok
    | apply startReportTimer_ok
    | apply stopReportTimer_ok
    | apply testRecovery_ok

theorem setUplink_ok {a : UplinkReq} {c : Core} (hok : CoreOk c) : CoreOk (setUplink a c).2 := by
  unfold setUplink
  try dsimp only
  with_reducible repeat' first
    | assumption
    | (refine settle_ok ?_ ?_)
    | apply applyUplink_ok
    | split

theorem creditLimit_ok {n : Nat} {c : Core} (hok : CoreOk c) : CoreOk (creditLimit n c) := by
  unfold creditLimit
  try dsimp only
  with_reducible repeat' first
    | assumption
    | apply setPurchase_ok

theorem creditTopUp_ok {n : Nat} {c : Core} (hok : CoreOk c) : CoreOk (creditTopUp n c) := by
  unfold creditTopUp
  try dsimp only
  with_reducible repeat' first
    | assumption
    | apply setPurchase_ok

theorem commitPurchase_ok {r : Room} {b : Bid} {c : Core} (hok : CoreOk c) : CoreOk (commitPurchase r b c).2 := by
  unfold commitPurchase
  try dsimp only
  with_reducible repeat' first
    | assumption
    | apply setPurchase_ok
    | exact offer_ok (by assumption) (by assumption)
    | apply offer_ok (by assumption)
    | split

theorem purchaseRoom_ok {r : Room} {b : Bid} {pin : Option Pin} {c : Core} (hok : CoreOk c) : CoreOk (purchaseRoom r b pin c).2 := by
  unfold purchaseRoom
  try dsimp only
  with_reducible repeat' first
    | assumption
    | (refine ite_ok ?_ ?_)
    | apply expireEvents_ok
    | apply withPin_ok
    | apply commitPurchase_ok
    | (refine ite_ok2 ?_ ?_)

theorem purchase_ok {a : PurchaseReq} {c : Core} (hok : CoreOk c) : CoreOk (purchase a c).2 := by
  unfold purchase
  try dsimp only
  with_reducible repeat' first
    | assumption
    | (refine ite_ok ?_ ?_)
    | apply purchaseRoom_ok
    | split

theorem logPurchase_ok {f : InFlight} {c : Core} (hok : CoreOk c) : CoreOk (logPurchase f c) := by
  unfold logPurchase
  try dsimp only
  with_reducible repeat' first
    | assumption
    | apply setPurchase_ok

theorem completePurchase_ok {f : InFlight} {c : Core} (hok : CoreOk c) : CoreOk (completePurchase f c) := by
  unfold completePurchase
  try dsimp only
  with_reducible repeat' first
    | assumption
    | apply setPurchase_ok
    | apply post_ok
    | apply reevaluate_ok
    | apply setEvents_ok
    | apply commitGroup_ok
    | apply becameUnreported_ok
    | apply dueTest_ok
    | apply logPurchase_ok

theorem purchaseWritten_ok {c : Core} (hok : CoreOk c) : CoreOk (purchaseWritten c) := by
  unfold purchaseWritten
  try dsimp only
  with_reducible repeat' first
    | assumption
    | apply completePurchase_ok
    | split

theorem purchaseFailed_ok {c : Core} (hok : CoreOk c) : CoreOk (purchaseFailed c) := by
  unfold purchaseFailed
  try dsimp only
  with_reducible repeat' first
    | assumption
    | apply setPurchase_ok
    | apply post_ok
    | split

theorem purchaseAck_ok {s : Seq} {c : Core} (hok : CoreOk c) : CoreOk (purchaseAck s c) := by
  unfold purchaseAck
  try dsimp only
  with_reducible repeat' first
    | assumption
    | (refine ite_ok ?_ ?_)
    | apply setPurchase_ok
    | apply stopIfReported_ok
    | apply dueTest_ok
    | apply commitLogAck_ok
    | apply acknowledged_ok

theorem wipePurchases_ok {c : Core} (hok : CoreOk c) : CoreOk (wipePurchases c) := by
  unfold wipePurchases
  try dsimp only
  with_reducible repeat' first
    | assumption
    | apply setUplinkState_ok
    | apply setPurchase_ok
    | apply testRecovery_ok

end Sys2Proof.Machine
end

