-- ==== Sys2Proof/Laws/KeepsTimes.lean ====
section
/-! SUPPORT. Guide, bookings, clock and directory: their operations keep CoreOk. -/

namespace Sys2Proof.Machine

open Sys2Proof

theorem setRecords_ok {l : List EventRecord} {c : Core} (hok : CoreOk c) : CoreOk (setRecords l c) := by
  unfold setRecords
  try dsimp only
  with_reducible repeat' first
    | assumption
    | apply setGuide_ok

theorem followRecord_ok {r : EventRecord} {c : Core} {id : Nat} (hok : CoreOk c) : CoreOk (followRecord r c id) := by
  unfold followRecord
  try dsimp only
  with_reducible repeat' first
    | assumption
    | (refine ite_ok ?_ ?_)
    | apply setBooking_ok
    | apply commitBooking_ok
    | split

theorem recordInserted_ok {r : EventRecord} {c : Core} (hok : CoreOk c) : CoreOk (recordInserted r c) := by
  unfold recordInserted
  try dsimp only
  with_reducible repeat' first
    | assumption
    | (refine foldl_ok ?_ ?_)
    | apply followRecord_ok

theorem insertRecord_ok {n : EventRecord} {c : Core} (hok : CoreOk c) : CoreOk (insertRecord n c) := by
  unfold insertRecord
  try dsimp only
  with_reducible repeat' first
    | assumption
    | (refine ite_ok ?_ ?_)
    | apply setRecords_ok
    | apply recordInserted_ok
    | intro _
    | split

theorem offerRecord_ok {s : Source} {c : Core} {r : OfferedRecord} (hok : CoreOk c) : CoreOk (offerRecord s c r) := by
  unfold offerRecord
  try dsimp only
  with_reducible repeat' first
    | assumption
    | (refine ite_ok ?_ ?_)
    | apply insertRecord_ok

theorem minutePurge_ok {c : Core} (hok : CoreOk c) : CoreOk (minutePurge c) := by
  unfold minutePurge
  try dsimp only
  with_reducible repeat' first
    | assumption
    | apply setRecords_ok
    | intro _
    | split

theorem setBlock_ok {k : Fin 8} {x : BlockState} {c : Core} (hok : CoreOk c) : CoreOk (setBlock k x c) := by
  unfold setBlock
  try dsimp only
  with_reducible repeat' first
    | assumption
    | apply setGuide_ok

theorem completeSweep_ok {c : Core} (hok : CoreOk c) : CoreOk (completeSweep c) := by
  unfold completeSweep
  try dsimp only
  with_reducible repeat' first
    | assumption
    | apply setGuide_ok
    | apply post_ok
    | apply release_ok
    | apply closeSchedule_ok

theorem completeBlock_ok {k : Fin 8} {version : Nat} {c : Core} (hok : CoreOk c) : CoreOk (completeBlock k version c) := by
  unfold completeBlock
  try dsimp only
  with_reducible repeat' first
    | assumption
    | (refine ite_ok ?_ ?_)
    | apply testPresent_ok
    | apply setRecords_ok
    | apply setBlock_ok
    | apply completeSweep_ok

theorem takeSchedule_ok {h : SegmentHeader} {rs : List OfferedRecord} {c : Core} (hok : CoreOk c) : CoreOk (takeSchedule h rs c) := by
  unfold takeSchedule
  try dsimp only
  with_reducible repeat' first
    | assumption
    | (refine ite_ok ?_ ?_)
    | (refine foldl_ok ?_ ?_)
    | apply testPresent_ok
    | apply offerRecord_ok
    | apply setBlock_ok
    | apply completeBlock_ok
    | intro _
    | split

theorem guideRollover_ok {c : Core} (hok : CoreOk c) : CoreOk (guideRollover c) := by
  unfold guideRollover
  try dsimp only
  with_reducible repeat' first
    | assumption
    | apply setGuide_ok

theorem putMarker_ok {m : Marker} {c : Core} (hok : CoreOk c) : CoreOk (putMarker m c) := by
  unfold putMarker
  try dsimp only
  with_reducible repeat' first
    | assumption
    | apply setGuide_ok
    | apply stopSession_ok
    | apply markerChanged_ok

theorem takePresentEntry_ok {x : Carrier} {c : Core} {e : PresentNextEntry} (hok : CoreOk c) : CoreOk (takePresentEntry x c e) := by
  unfold takePresentEntry
  try dsimp only
  with_reducible repeat' first
    | assumption
    | (refine ite_ok ?_ ?_)
    | apply stopSession_ok
    | apply removeMarkers_ok
    | apply offerRecord_ok
    | apply putMarker_ok
    | split

theorem takePresentNext_ok {t : Fin 4} {es : List PresentNextEntry} {c : Core} (hok : CoreOk c) : CoreOk (takePresentNext t es c) := by
  unfold takePresentNext
  try dsimp only
  with_reducible repeat' first
    | assumption
    | (refine foldl_ok ?_ ?_)
    | apply testPresent_ok
    | apply takePresentEntry_ok
    | intro _
    | split

theorem dropUnusedMarkers_ok {c : Core} (hok : CoreOk c) : CoreOk (dropUnusedMarkers c) := by
  unfold dropUnusedMarkers
  try dsimp only
  with_reducible repeat' first
    | assumption
    | apply stopSession_ok
    | apply removeMarkers_ok

theorem beginSweep_ok {c : Core} (hok : CoreOk c) : CoreOk (beginSweep c) := by
  unfold beginSweep
  try dsimp only
  with_reducible repeat' first
    | assumption
    | (refine ite_ok ?_ ?_)
    | (refine foldl_ok ?_ ?_)
    | apply setGuide_ok
    | apply endSweep_ok
    | apply openSchedule_ok
    | apply carryOut_ok
    | apply setBlock_ok
    | intro _
    | split

theorem sweepTimerExpired_ok {c : Core} (hok : CoreOk c) : CoreOk (sweepTimerExpired c) := by
  unfold sweepTimerExpired
  try dsimp only
  with_reducible repeat' first
    | assumption
    | (refine ite_ok ?_ ?_)
    | apply setGuide_ok
    | apply beginSweep_ok

theorem sweepLimitExpired_ok {c : Core} (hok : CoreOk c) : CoreOk (sweepLimitExpired c) := by
  unfold sweepLimitExpired
  try dsimp only
  with_reducible repeat' first
    | assumption
    | (refine ite_ok ?_ ?_)
    | apply setGuide_ok
    | apply endSweep_ok

theorem refreshSweep_ok {c : Core} (hok : CoreOk c) : CoreOk (refreshSweep c) := by
  unfold refreshSweep
  try dsimp only
  with_reducible repeat' first
    | assumption
    | (refine ite_ok ?_ ?_)
    | apply setGuide_ok
    | apply beginSweep_ok

theorem setInterval_ok {n : Nat} {c : Core} (hok : CoreOk c) : CoreOk (setInterval n c) := by
  unfold setInterval
  try dsimp only
  with_reducible repeat' first
    | assumption
    | apply setGuide_ok

theorem refreshGuide_ok {a : Option Nat} {c : Core} (hok : CoreOk c) : CoreOk (refreshGuide a c).2 := by
  unfold refreshGuide
  try dsimp only
  with_reducible repeat' first
    | assumption
    | (refine ite_ok ?_ ?_)
    | apply setGuide_ok
    | (refine settle_ok ?_ ?_)
    | apply refreshSweep_ok
    | intro _
    | (refine ite_ok2 ?_ ?_)
    | apply setInterval_ok
    | split

theorem startAction_ok {b : Booking} {c : Core} (hok : CoreOk c) : CoreOk (startAction b c) := by
  unfold startAction
  try dsimp only
  with_reducible repeat' first
    | assumption
    | apply changeBooking_ok
    | apply missBooking_ok
    | apply supersede_ok
    | apply beginChange_ok
    | split

theorem judgeEnd_ok {b : Booking} {now : Nat} {c : Core} (hok : CoreOk c) : CoreOk (judgeEnd b now c) := by
  unfold judgeEnd
  try dsimp only
  with_reducible repeat' first
    | assumption
    | (refine ite_ok ?_ ?_)
    | apply stopSession_ok
    | apply changeBooking_ok
    | apply endRecording_ok

theorem judgeRecording_ok {b : Booking} {now : Nat} {c : Core} (hok : CoreOk c) : CoreOk (judgeRecording b now c) := by
  unfold judgeRecording
  try dsimp only
  with_reducible repeat' first
    | assumption
    | (refine ite_ok ?_ ?_)
    | apply changeBooking_ok
    | apply missBooking_ok
    | apply assertWake_ok
    | apply startAction_ok
    | apply judgeEnd_ok
    | intro _
    | split

theorem judgeReminder_ok {b : Booking} {now : Nat} {c : Core} (hok : CoreOk c) : CoreOk (judgeReminder b now c) := by
  unfold judgeReminder
  try dsimp only
  with_reducible repeat' first
    | assumption
    | (refine ite_ok ?_ ?_)
    | apply setBooking_ok
    | apply post_ok
    | apply commitBooking_ok
    | apply changeBooking_ok
    | apply missBooking_ok
    | apply assertWake_ok
    | intro _
    | split

theorem dropFromList_ok {id : Nat} {c : Core} (hok : CoreOk c) : CoreOk (dropFromList id c) := by
  unfold dropFromList
  try dsimp only
  with_reducible repeat' first
    | assumption
    | apply setClock_ok

theorem judgeBooking_ok {now : Nat} {c : Core} {id : Nat} (hok : CoreOk c) : CoreOk (judgeBooking now c id) := by
  unfold judgeBooking
  try dsimp only
  with_reducible repeat' first
    | assumption
    | (refine ite_ok ?_ ?_)
    | apply commitBooking_ok
    | apply judgeRecording_ok
    | apply judgeReminder_ok
    | apply dropFromList_ok
    | split

theorem judgeBookings_ok {c : Core} (hok : CoreOk c) : CoreOk (judgeBookings c) := by
  unfold judgeBookings
  try dsimp only
  with_reducible repeat' first
    | assumption
    | (refine foldl_ok ?_ ?_)
    | apply judgeBooking_ok
    | intro _
    | split

theorem judgeAlarm_ok {c : Core} (hok : CoreOk c) : CoreOk (judgeAlarm c) := by
  unfold judgeAlarm
  try dsimp only
  with_reducible repeat' first
    | assumption
    | (refine ite_ok ?_ ?_)
    | apply setClock_ok
    | apply assertWake_ok
    | intro _
    | split

theorem joinBooking_ok {b : Booking} {c : Core} (hok : CoreOk c) : CoreOk (joinBooking b c) := by
  unfold joinBooking
  try dsimp only
  with_reducible repeat' first
    | assumption
    | apply setBooking_ok
    | apply setClock_ok
    | apply judgeBooking_ok
    | split

theorem addBooking_ok {a : AddBookingReq} {c : Core} (hok : CoreOk c) : CoreOk (addBooking a c).2 := by
  unfold addBooking
  try dsimp only
  with_reducible repeat' first
    | assumption
    | (refine ite_ok ?_ ?_)
    | apply setClock_ok
    | exact offer_ok (by assumption) (by assumption)
    | apply offer_ok (by assumption)
    | apply joinBooking_ok
    | intro _
    | split

theorem removeBooking_ok {b : Booking} {c : Core} (hok : CoreOk c) : CoreOk (removeBooking b c) := by
  unfold removeBooking
  try dsimp only
  with_reducible repeat' first
    | assumption
    | apply setClock_ok
    | apply stopSession_ok
    | apply dropFromList_ok
    | split

theorem dropBooking_ok {id : Nat} {c : Core} (hok : CoreOk c) : CoreOk (dropBooking id c).2 := by
  unfold dropBooking
  try dsimp only
  with_reducible repeat' first
    | assumption
    | (refine ite_ok ?_ ?_)
    | (refine settle_ok ?_ ?_)
    | apply removeBooking_ok
    | (refine ite_ok2 ?_ ?_)
    | exact offer_ok (by assumption) (by assumption)
    | apply offer_ok (by assumption)
    | apply setClock_ok
    | split

theorem rollover_ok {day : Int} {c : Core} (hok : CoreOk c) : CoreOk (rollover day c) := by
  unfold rollover
  try dsimp only
  with_reducible repeat' first
    | assumption
    | apply setClock_ok
    | apply commitLastDay_ok
    | apply expirePackages_ok
    | apply limitRollover_ok
    | apply guideRollover_ok

theorem testRollover_ok {c : Core} (hok : CoreOk c) : CoreOk (testRollover c) := by
  unfold testRollover
  try dsimp only
  with_reducible repeat' first
    | assumption
    | (refine ite_ok ?_ ?_)
    | apply rollover_ok
    | split

theorem clockMoved_ok {c : Core} (hok : CoreOk c) : CoreOk (clockMoved c) := by
  unfold clockMoved
  try dsimp only
  with_reducible repeat' first
    | assumption
    | apply limitClockChanged_ok
    | apply judgeBookings_ok
    | apply judgeAlarm_ok
    | apply testRollover_ok

theorem offsetChanged_ok {c : Core} (hok : CoreOk c) : CoreOk (offsetChanged c) := by
  unfold offsetChanged
  try dsimp only
  with_reducible repeat' first
    | assumption
    | apply limitClockChanged_ok
    | apply testRollover_ok
    | split

theorem setTime_ok {t : Nat} {correction : Option Int} {c : Core} (hok : CoreOk c) : CoreOk (setTime t correction c) := by
  unfold setTime
  try dsimp only
  with_reducible repeat' first
    | assumption
    | apply setClock_ok

theorem takeTime_ok {t : Nat} {offset : Option Int} {c : Core} (hok : CoreOk c) : CoreOk (takeTime t offset c) := by
  unfold takeTime
  try dsimp only
  with_reducible repeat' first
    | assumption
    | (refine ite_ok ?_ ?_)
    | apply setClock_ok
    | apply post_ok
    | apply clockMoved_ok
    | apply offsetChanged_ok
    | apply setTime_ok
    | intro _
    | split
    | (refine coreOk_mk ?_ ?_)
    | (refine CoreOk.linkOk ?_)
    | (refine CoreOk.queueOk ?_)

theorem clockSecond_ok {now : Nat} {c : Core} (hok : CoreOk c) : CoreOk (clockSecond now c) := by
  unfold clockSecond
  try dsimp only
  with_reducible repeat' first
    | assumption
    | (refine ite_ok ?_ ?_)
    | apply testPresent_ok
    | apply expireEvents_ok
    | apply limitMinute_ok
    | apply minutePurge_ok
    | apply dropUnusedMarkers_ok
    | apply judgeBookings_ok
    | apply judgeAlarm_ok
    | apply testRollover_ok

theorem referenceSecond_ok {c : Core} (hok : CoreOk c) : CoreOk (referenceSecond c) := by
  exact ⟨hok.1.same rfl rfl rfl (by simp [referenceSecond, Timer.second_running]), hok.2⟩

theorem secondPassed_ok {c : Core} (hok : CoreOk c) : CoreOk (secondPassed c) := by
  unfold secondPassed
  try dsimp only
  with_reducible repeat' first
    | assumption
    | apply setClock_ok
    | apply clockSecond_ok
    | apply referenceSecond_ok
    | split

theorem wakeForDue_ok {c : Core} (hok : CoreOk c) : CoreOk (wakeForDue c) := by
  unfold wakeForDue
  try dsimp only
  with_reducible repeat' first
    | assumption
    | (refine ite_ok ?_ ?_)
    | apply assertWake_ok

theorem standby_ok {u : Unit} {c : Core} (hok : CoreOk c) : CoreOk (standby u c).2 := by
  unfold standby
  try dsimp only
  with_reducible repeat' first
    | assumption
    | (refine ite_ok ?_ ?_)
    | apply setClock_ok
    | apply stopSession_ok
    | apply watchTest_ok
    | apply restartContexts_ok
    | apply wakeForDue_ok
    | (refine ite_ok2 ?_ ?_)

theorem resume_ok {u : Unit} {c : Core} (hok : CoreOk c) : CoreOk (resume u c).2 := by
  unfold resume
  try dsimp only
  with_reducible repeat' first
    | assumption
    | (refine ite_ok ?_ ?_)
    | apply setClock_ok
    | apply release_ok
    | apply stopHold_ok
    | (refine ite_ok2 ?_ ?_)

theorem wakeAt_ok {a : WakeAtReq} {c : Core} (hok : CoreOk c) : CoreOk (wakeAt a c).2 := by
  unfold wakeAt
  try dsimp only
  with_reducible repeat' first
    | assumption
    | (refine ite_ok ?_ ?_)
    | apply setClock_ok
    | (refine settle_ok ?_ ?_)
    | intro _
    | split

theorem setZone_ok {z : Option Int} {c : Core} (hok : CoreOk c) : CoreOk (setZone z c).2 := by
  unfold setZone
  try dsimp only
  with_reducible repeat' first
    | assumption
    | (refine ite_ok ?_ ?_)
    | apply setClock_ok
    | (refine settle_ok ?_ ?_)
    | apply offsetChanged_ok
    | intro _
    | (refine ite_ok2 ?_ ?_)

theorem stopBookingOutput_ok {c : Core} {id : Nat} (hok : CoreOk c) : CoreOk (stopBookingOutput c id) := by
  unfold stopBookingOutput
  try dsimp only
  with_reducible repeat' first
    | assumption
    | apply stopSession_ok
    | (refine ite_ok ?_ ?_)
    | split

theorem wipeClock_ok {c : Core} (hok : CoreOk c) : CoreOk (wipeClock c) := by
  unfold wipeClock
  try dsimp only
  with_reducible repeat' first
    | assumption
    | (refine foldl_ok ?_ ?_)
    | apply setClock_ok
    | apply commitLastDay_ok
    | apply stopBookingOutput_ok
    | intro _
    | apply commitBooking_ok
    | split

theorem offerIndex_ok {c : Core} {k : Nat} (hok : CoreOk c) : CoreOk (offerIndex c k) := by
  unfold offerIndex
  try dsimp only
  with_reducible repeat' first
    | assumption
    | (refine ite_ok ?_ ?_)
    | apply setDir_ok
    | exact offer_ok (by assumption) (by assumption)
    | apply offer_ok (by assumption)
    | split

theorem offerSnapshot_ok {c : Core} (hok : CoreOk c) : CoreOk (offerSnapshot c) := by
  unfold offerSnapshot
  try dsimp only
  with_reducible repeat' first
    | assumption
    | (refine foldl_ok ?_ ?_)
    | apply offerIndex_ok

theorem startSnapshot_ok {c : Core} (hok : CoreOk c) : CoreOk (startSnapshot c) := by
  unfold startSnapshot
  try dsimp only
  with_reducible repeat' first
    | assumption
    | apply setDir_ok
    | apply offerSnapshot_ok

theorem renumberTuner_ok {c : Core} {t : Fin 4} (hok : CoreOk c) : CoreOk (renumberTuner c t) := by
  unfold renumberTuner
  try dsimp only
  with_reducible repeat' first
    | assumption
    | (refine ite_ok ?_ ?_)
    | apply setTuner_ok

theorem swapIn_ok {version : Nat} {area : List AreaPart} {c : Core} (hok : CoreOk c) : CoreOk (swapIn version area c) := by
  unfold swapIn
  try dsimp only
  with_reducible repeat' first
    | assumption
    | (refine foldl_ok ?_ ?_)
    | apply setDir_ok
    | apply post_ok
    | apply watchTest_ok
    | apply reportToSessions_ok
    | apply reportToLocks_ok
    | apply startSnapshot_ok
    | apply renumberTuner_ok

theorem abandonAssembly_ok {c : Core} (hok : CoreOk c) : CoreOk (abandonAssembly c) := by
  unfold abandonAssembly
  try dsimp only
  with_reducible repeat' first
    | assumption
    | apply setDir_ok

theorem restartAssembly_ok {version : Nat} {last : Nat} {c : Core} (hok : CoreOk c) : CoreOk (restartAssembly version last c) := by
  unfold restartAssembly
  try dsimp only
  with_reducible repeat' first
    | assumption
    | apply setDir_ok

theorem joinArea_ok {h : SegmentHeader} {p : AreaPart} {c : Core} (hok : CoreOk c) : CoreOk (joinArea h p c) := by
  unfold joinArea
  try dsimp only
  with_reducible repeat' first
    | assumption
    | (refine ite_ok ?_ ?_)
    | apply setDir_ok
    | apply swapIn_ok

theorem takeDirectory_ok {h : SegmentHeader} {guide : Option Nat} {carriers : List CarrierEntry} {channels : List ChannelEntry} {c : Core} (hok : CoreOk c) : CoreOk (takeDirectory h guide carriers channels c) := by
  unfold takeDirectory
  try dsimp only
  with_reducible repeat' first
    | assumption
    | (refine ite_ok ?_ ?_)
    | apply abandonAssembly_ok
    | apply restartAssembly_ok
    | apply joinArea_ok

theorem settleHome_ok {x : Option Carrier} {c : Core} (hok : CoreOk c) : CoreOk (settleHome x c).2 := by
  unfold settleHome
  try dsimp only
  with_reducible repeat' first
    | assumption
    | apply setDir_ok
    | (refine settle_ok ?_ ?_)
    | apply watchReclaim_ok
    | intro _

theorem setHomeCarrier_ok {a : Option CarrierReq} {c : Core} (hok : CoreOk c) : CoreOk (setHomeCarrier a c).2 := by
  unfold setHomeCarrier
  try dsimp only
  with_reducible repeat' first
    | assumption
    | apply settleHome_ok
    | split

theorem setAcqLimit_ok {n : Nat} {c : Core} (hok : CoreOk c) : CoreOk (setAcqLimit n c) := by
  unfold setAcqLimit
  try dsimp only
  with_reducible repeat' first
    | assumption
    | (refine coreOk_mk ?_ ?_)
    | (refine CoreOk.linkOk ?_)
    | (refine CoreOk.queueOk ?_)

theorem setTuning_ok {n : Nat} {c : Core} (hok : CoreOk c) : CoreOk (setTuning n c).2 := by
  unfold setTuning
  try dsimp only
  with_reducible repeat' first
    | assumption
    | (refine ite_ok ?_ ?_)
    | (refine settle_ok ?_ ?_)
    | apply setAcqLimit_ok
    | (refine ite_ok2 ?_ ?_)

end Sys2Proof.Machine
end

