-- ==== Sys2Proof/Laws/KeepsLines.lean ====
section
/-! SUPPORT. Cells, bulletins and the link: their operations keep CoreOk. -/

namespace Sys2Proof.Machine

open Sys2Proof

theorem addEvent_ok {lcn : Nat} {event : Nat} {expiry : Nat} {c : Core} (hok : CoreOk c) : CoreOk (addEvent lcn event expiry c) := by
  unfold addEvent
  try dsimp only
  with_reducible repeat' first
    | assumption
    | (refine ite_ok ?_ ?_)
    | apply setEvents_ok
    | intro _
    | split

theorem setCut_ok {b : Bool} {c : Core} (hok : CoreOk c) : CoreOk (setCut b c) := by
  unfold setCut
  try dsimp only
  with_reducible repeat' first
    | assumption
    | (refine coreOk_mk ?_ ?_)
    | (refine CoreOk.linkOk ?_)
    | (refine CoreOk.queueOk ?_)

theorem applyOp_ok {c : Core} {x : GrantOp} (hok : CoreOk c) : CoreOk (applyOp c x) := by
  cases x with
  | addPackage => exact setPackages_ok hok
  | dropPackage => exact setPackages_ok hok
  | addEvent => exact addEvent_ok hok
  | creditLimit => exact creditLimit_ok hok
  | creditTopUp => exact creditTopUp_ok hok
  | purchaseAck => exact purchaseAck_ok hok
  | cut => exact setCut_ok hok
  | restore => exact setCut_ok hok
  | unknown => exact hok

theorem setLast_ok {k : Fin 5} {n : Seq} {c : Core} (hok : CoreOk c) : CoreOk (setLast k n c) := by
  unfold setLast
  try dsimp only
  with_reducible repeat' first
    | assumption
    | (refine coreOk_mk ?_ ?_)
    | (refine CoreOk.linkOk ?_)
    | (refine CoreOk.queueOk ?_)

theorem applyBulletin_ok {k : Fin 5} {b : GrantBulletin} {c : Core} (hok : CoreOk c) : CoreOk (applyBulletin k b c) := by
  have h1 : CoreOk (setLast k b.number (b.ops.foldl applyOp c)) :=
    setLast_ok (foldl_ok hok fun _ _ h => applyOp_ok h)
  unfold applyBulletin
  generalize setLast k b.number (b.ops.foldl applyOp c) = d at h1
  dsimp only
  split
  · exact reevaluate_ok (postGrants_ok (commitGroup_ok h1))
  · exact commitGroup_ok h1

theorem setKeyTold_ok {k : Fin 4} {x : KeySlot} {c : Core} (hok : CoreOk c) : CoreOk (setKeyTold k x c) := by
  unfold setKeyTold
  try dsimp only
  with_reducible repeat' first
    | assumption
    | (refine ite_ok ?_ ?_)
    | apply setKeySlot_ok
    | apply reevaluate_ok

theorem takeKeys_ok {k : Fin 4} {b : KeyBulletin} {c : Core} (hok : CoreOk c) : CoreOk (takeKeys k b c) := by
  unfold takeKeys
  try dsimp only
  with_reducible repeat' first
    | assumption
    | (refine ite_ok ?_ ?_)
    | apply setKeyTold_ok
    | split

theorem keyLifeExpired_ok {k : Fin 4} {c : Core} (hok : CoreOk c) : CoreOk (keyLifeExpired k c) := by
  unfold keyLifeExpired
  try dsimp only
  with_reducible repeat' first
    | assumption
    | (refine ite_ok ?_ ?_)
    | apply post_ok
    | apply setKeyTold_ok

theorem consume_ok {f : Filter} {h : SegmentHeader} {r : TableBody} {c : Core} (hok : CoreOk c) : CoreOk (consume f h r c) := by
  unfold consume
  try dsimp only
  with_reducible repeat' first
    | assumption
    | apply takeLaneMap_ok
    | apply takeSchedule_ok
    | apply takePresentNext_ok
    | apply takeTime_ok
    | apply takeDirectory_ok
    | apply takeKeys_ok
    | split

theorem releaseBuffer_ok {i : Fin 16} {c : Core} (hok : CoreOk c) : CoreOk (releaseBuffer i c) := by
  unfold releaseBuffer
  try dsimp only
  with_reducible repeat' first
    | assumption
    | apply setSlot_ok

theorem takeHanded_ok {i : Fin 16} {c : Core} (hok : CoreOk c) : CoreOk (takeHanded i c).1 := by
  unfold takeHanded
  try dsimp only
  with_reducible repeat' first
    | assumption
    | apply applyBulletin_ok
    | apply consume_ok
    | apply releaseBuffer_ok
    | split

theorem takeHanded_ok' {i : Fin 16} {c : Core} {ans : Bool} {c' : Core} (e : takeHanded i c = (c', ans)) (hok : CoreOk c) : CoreOk c' := by
  have := takeHanded_ok (i := i) (c := c) hok
  rw [e] at this; exact this

theorem handOver_ok {i : Fin 16} : ∀ (n : Nat) {c : Core}, CoreOk c → CoreOk (handOver n i c) := by
  intro n
  induction n with
  | zero => exact fun h => h
  | succ n ih =>
    intro c h
    unfold handOver
    split
    · exact takeHanded_ok' (by assumption) h
    · have h' := takeHanded_ok' (by assumption) h
      dsimp only
      split
      · exact ih (setSlot_ok h')
      · exact h'

theorem handIfNew_ok {i : Fin 16} {x : Slot} {c : Core} (hok : CoreOk c) : CoreOk (handIfNew i x c) := by
  unfold handIfNew
  try dsimp only
  with_reducible repeat' first
    | assumption
    | (refine ite_ok ?_ ?_)
    | apply setSlot_ok
    | apply handOver_ok

theorem bufferHandOver_ok {i : Fin 16} {c : Core} (hok : CoreOk c) : CoreOk (bufferHandOver i c) := by
  unfold bufferHandOver
  try dsimp only
  with_reducible repeat' first
    | assumption
    | apply handIfNew_ok

theorem retestOne_ok {c : Core} {i : Fin 16} (hok : CoreOk c) : CoreOk (retestOne c i) := by
  unfold retestOne
  try dsimp only
  with_reducible repeat' first
    | assumption
    | (refine ite_ok ?_ ?_)
    | apply handOver_ok

theorem retestKept_ok {c : Core} (hok : CoreOk c) : CoreOk (retestKept c) := by
  unfold retestKept
  try dsimp only
  with_reducible repeat' first
    | assumption
    | (refine foldl_ok ?_ ?_)
    | apply retestOne_ok

theorem slotTakesCell_ok {p : KeyParity} {c : Core} {k : Fin 4} (hok : CoreOk c) : CoreOk (slotTakesCell p c k) := by
  unfold slotTakesCell
  try dsimp only
  with_reducible repeat' first
    | assumption
    | (refine ite_ok ?_ ?_)
    | apply setKeySlot_ok

theorem routeTo_ok {h : CellHeader} {f : Output → Option (List Byte)} {c : Core} {o : Output} (hok : CoreOk c) : CoreOk (routeTo h f c o) := by
  unfold routeTo
  try dsimp only
  with_reducible repeat' first
    | assumption
    | apply carry_ok
    | split

theorem clearCell_ok {t : Fin 4} {h : CellHeader} {payload : List Byte} {c : Core} (hok : CoreOk c) : CoreOk (clearCell t h payload c) := by
  unfold clearCell
  try dsimp only
  with_reducible repeat' first
    | assumption
    | (refine ite_ok ?_ ?_)
    | (refine foldl_ok ?_ ?_)
    | apply reevaluate_ok
    | apply slotTakesCell_ok
    | apply routeTo_ok
    | intro _
    | split

theorem collectCell_ok {t : Fin 4} {h : CellHeader} {payload : List Byte} {reading : TableBody} {c : Core} (hok : CoreOk c) : CoreOk (collectCell t h payload reading c) := by
  unfold collectCell
  try dsimp only
  with_reducible repeat' first
    | assumption
    | apply handIfNew_ok
    | split

theorem cellArrival_ok {t : Fin 4} {header : BitVec 32} {payload : List Byte} {reading : TableBody} {c : Core} (hok : CoreOk c) : CoreOk (cellArrival t header payload reading c) := by
  unfold cellArrival
  try dsimp only
  with_reducible repeat' first
    | assumption
    | (refine ite_ok ?_ ?_)
    | apply clearCell_ok
    | apply collectCell_ok

theorem gapExpired_ok {c : Core} (hok : CoreOk c) : CoreOk (gapExpired c) := by
  unfold gapExpired
  split
  · exact ⟨hok.1.same rfl rfl rfl (by simp [Timer.expired]), hok.2⟩
  · exact hok

theorem keyReportTaken_ok {code : Byte} {mark : KeyMark} {c : Core} (hok : CoreOk c) : CoreOk (keyReportTaken code mark c) := by
  unfold keyReportTaken
  try dsimp only
  with_reducible repeat' first
    | assumption
    | (refine ite_ok ?_ ?_)
    | apply post_ok
    | apply assertWake_ok
    | intro _
    | split

theorem setAttention_ok {a : AttentionReq} {c : Core} (hok : CoreOk c) : CoreOk (setAttention a c).2 := by
  unfold setAttention
  try dsimp only
  with_reducible repeat' first
    | assumption
    | (refine ite_ok ?_ ?_)
    | (refine setLink_ok ?_ ?_)
    | (refine settle_ok ?_ ?_)
    | intro _
    | split
    | (refine ite_ok2 ?_ ?_)
    | (refine LinkOk.withMode ?_ _ _)
    | (refine CoreOk.linkOk ?_)

theorem setKeys_ok {n : Nat} {c : Core} (hok : CoreOk c) : CoreOk (setKeys n c).2 := by
  unfold setKeys
  try dsimp only
  with_reducible repeat' first
    | assumption
    | (refine ite_ok ?_ ?_)
    | (refine setLink_ok ?_ ?_)
    | (refine settle_ok ?_ ?_)
    | intro _
    | (refine ite_ok2 ?_ ?_)
    | (refine CoreOk.linkOk ?_)
    | (refine LinkOk.powerKey ?_ _)

theorem wipeLink_ok {c : Core} (hok : CoreOk c) : CoreOk (wipeLink c) := by
  unfold wipeLink
  try dsimp only
  with_reducible repeat' first
    | assumption
    | (refine setLink_ok ?_ ?_)
    | (refine LinkOk.withMode ?_ _ _)
    | (refine CoreOk.linkOk ?_)
    | (refine LinkOk.powerKey ?_ _)

end Sys2Proof.Machine
end

