-- ==== Sys2Proof/Laws/KeepsStore.lean ====
section
/-! SUPPORT. The Account Store and the loads: their operations keep CoreOk. -/

namespace Sys2Proof.Machine

open Sys2Proof

theorem foldl_queue {α : Type} {f : Store → α → Store} (hf : ∀ st x, (f st x).queue = st.queue) (l : List α) (st : Store) :
    (l.foldl f st).queue = st.queue := by
  induction l generalizing st with
  | nil => rfl
  | cons x t ih => exact (ih (f st x)).trans (hf st x)

theorem setPage_queue (p : PageNo) (x : Page) (st : Store) : (setPage p x st).queue = st.queue := rfl
theorem addEntry_queue (p : PageNo) (e : PageEntry) (st : Store) : (addEntry p e st).queue = st.queue := rfl
theorem beginBanks_queue (l : List (Fin 8)) (st : Store) : (beginBanks l st).queue = st.queue := by
  unfold beginBanks; split <;> rfl
theorem applyMark_queue (m : PageMark) (good : Bool) (st : Store) : (applyMark m good st).queue = st.queue := by
  unfold applyMark; split <;> rfl
theorem blankBank_queue (b : Fin 8) (st : Store) : (blankBank b st).queue = st.queue := by
  unfold blankBank; apply foldl_queue; exact fun st p => setPage_queue p _ st
theorem settlePages_queue (st : Store) : (settlePages st).queue = st.queue := by
  unfold settlePages; apply foldl_queue; exact fun st p => setPage_queue p _ st
theorem eraseRetiring_queue (l : List PageNo) (st : Store) : (eraseRetiring l st).queue = st.queue := by
  unfold eraseRetiring; apply foldl_queue; exact fun st p => setPage_queue p _ st
theorem settleSerials_queue (st : Store) : (settleSerials st).queue = st.queue := rfl
theorem settleGroups_queue (st : Store) : (settleGroups st).queue = st.queue := rfl
theorem scanned_queue (l : List PageNo) (st : Store) : (scanned l st).queue = st.queue := by
  unfold scanned; rw [eraseRetiring_queue, settleGroups_queue, settleSerials_queue, settlePages_queue]
theorem noteWhole_queue (j : Job) (st : Store) : (noteWhole j st).queue = st.queue := by
  unfold noteWhole; split <;> rfl

theorem offerOwedClock_ok {c : Core} (hok : CoreOk c) : CoreOk (offerOwedClock c) := by
  unfold offerOwedClock
  try dsimp only
  with_reducible repeat' first
    | assumption
    | (refine ite_ok ?_ ?_)
    | (refine foldl_ok ?_ ?_)
    | apply commitBooking_ok
    | apply commitLastDay_ok
    | intro _

theorem offerOwedGroup_ok {c : Core} (hok : CoreOk c) : CoreOk (offerOwedGroup c) := by
  unfold offerOwedGroup
  try dsimp only
  with_reducible repeat' first
    | assumption
    | (refine ite_ok ?_ ?_)
    | apply commitGroup_ok

theorem offerOwedAck_ok {c : Core} (hok : CoreOk c) : CoreOk (offerOwedAck c) := by
  unfold offerOwedAck
  try dsimp only
  with_reducible repeat' first
    | assumption
    | (refine ite_ok ?_ ?_)
    | apply commitLogAck_ok

theorem offerOwedLimits_ok {c : Core} (hok : CoreOk c) : CoreOk (offerOwedLimits c) := by
  unfold offerOwedLimits
  try dsimp only
  with_reducible repeat' first
    | assumption
    | (refine foldl_ok ?_ ?_)
    | apply commitLimit'_ok
    | intro _

theorem offerOwed_ok {c : Core} (hok : CoreOk c) : CoreOk (offerOwed c) := by
  unfold offerOwed
  try dsimp only
  with_reducible repeat' first
    | assumption
    | apply offerSnapshot_ok
    | apply offerOwedClock_ok
    | apply offerOwedGroup_ok
    | apply offerOwedAck_ok
    | apply offerOwedLimits_ok

theorem itemLeft_ok {c : Core} (hok : CoreOk c) : CoreOk (itemLeft c) := by
  unfold itemLeft
  try dsimp only
  with_reducible repeat' first
    | assumption
    | apply retestKept_ok
    | apply offerOwed_ok

theorem toldWritten_ok {k : StoreKey} {c : Core} (hok : CoreOk c) : CoreOk (toldWritten k c) := by
  unfold toldWritten
  try dsimp only
  with_reducible repeat' first
    | assumption
    | (refine ite_ok ?_ ?_)
    | apply pinReported_ok
    | apply purchaseWritten_ok
    | split

theorem clearOwed_ok {k : StoreKey} {c : Core} (hok : CoreOk c) : CoreOk (clearOwed k c) := by
  unfold clearOwed
  try dsimp only
  with_reducible repeat' first
    | assumption
    | (refine ite_ok ?_ ?_)
    | apply setLimits_ok
    | apply setPurchase_ok
    | apply setClock_ok
    | apply setDir_ok
    | intro _
    | split
    | (refine coreOk_mk ?_ ?_)
    | (refine CoreOk.linkOk ?_)
    | (refine CoreOk.queueOk ?_)

theorem toldEnded_ok {writing : Bool} {k : StoreKey} {c : Core} (hok : CoreOk c) : CoreOk (toldEnded writing k c) := by
  unfold toldEnded
  try dsimp only
  with_reducible repeat' first
    | assumption
    | (refine ite_ok ?_ ?_)
    | apply pinReported_ok
    | apply purchaseFailed_ok
    | split

theorem toldFailed_ok {writing : Bool} {k : StoreKey} {c : Core} (hok : CoreOk c) : CoreOk (toldFailed writing k c) := by
  unfold toldFailed
  try dsimp only
  with_reducible repeat' first
    | assumption
    | apply clearOwed_ok
    | apply toldEnded_ok

theorem writingFailed_ok {j : Option Job} {c : Core} (hok : CoreOk c) : CoreOk (writingFailed j c) := by
  unfold writingFailed
  try dsimp only
  with_reducible repeat' first
    | assumption
    | apply toldFailed_ok
    | split

theorem waitingFailed_ok {keys : List StoreKey} {c : Core} (hok : CoreOk c) : CoreOk (waitingFailed keys c) := by
  unfold waitingFailed
  try dsimp only
  with_reducible repeat' first
    | assumption
    | (refine foldl_ok ?_ ?_)
    | apply toldFailed_ok
    | intro _

theorem enterFault_ok {cause : StoreCause} {p : Option PageNo} {c : Core} (hok : CoreOk c) : CoreOk (enterFault cause p c) := by
  unfold enterFault
  try dsimp only
  with_reducible repeat' first
    | assumption
    | (refine foldl_ok ?_ ?_)
    | apply post_ok
    | (refine setStore_ok ?_ ?_)
    | apply toldFailed_ok
    | intro _
    | (refine CoreOk.queueOk ?_)
    | exact QueueOk.nil
    | apply waitingFailed_ok
    | apply writingFailed_ok

theorem enterStoreFull_ok {c : Core} (hok : CoreOk c) : CoreOk (enterStoreFull c) := by
  unfold enterStoreFull
  try dsimp only
  with_reducible repeat' first
    | assumption
    | (refine foldl_ok ?_ ?_)
    | apply post_ok
    | (refine setStore_ok ?_ ?_)
    | apply itemLeft_ok
    | apply toldFailed_ok
    | intro _
    | (refine CoreOk.queueOk ?_)
    | exact QueueOk.nil
    | apply waitingFailed_ok

theorem setActivity_ok {a : Activity} {c : Core} (hok : CoreOk c) : CoreOk (setActivity a c) := by
  unfold setActivity
  try dsimp only
  with_reducible repeat' first
    | assumption
    | (refine setStore_ok ?_ ?_)
    | (refine CoreOk.queueOk ?_)

theorem pursueWipe_ok {c : Core} (hok : CoreOk c) : CoreOk (pursueWipe c) := by
  unfold pursueWipe
  try dsimp only
  with_reducible repeat' first
    | assumption
    | (refine ite_ok ?_ ?_)
    | (refine setStore_ok ?_ ?_)
    | apply setActivity_ok
    | split
    | (refine CoreOk.queueOk ?_)
    | dsimp only
    | simp only [beginBanks_queue]

theorem noteWhole_ok {j : Job} {x : Store} {c : Core} (hok : CoreOk c) (hq : QueueOk x.queue) :
    CoreOk (setStore (noteWhole j x) c) := setStore_ok hok (by rw [noteWhole_queue]; exact hq)

theorem toldInWipe_ok {e : WriteEnd} {j : Job} {c : Core} (hok : CoreOk c) : CoreOk (toldInWipe e j c) := by
  unfold toldInWipe
  try dsimp only
  with_reducible repeat' first
    | assumption
    | (refine ite_ok ?_ ?_)
    | apply toldWritten_ok
    | exact noteWhole_ok hok hok.queueOk
    | apply toldFailed_ok
    | apply toldEnded_ok
    | split

theorem endInWipe_ok {e : WriteEnd} {c : Core} (hok : CoreOk c) : CoreOk (endInWipe e c) := by
  unfold endInWipe
  try dsimp only
  with_reducible repeat' first
    | assumption
    | (refine ite_ok ?_ ?_)
    | (refine setStore_ok ?_ ?_)
    | apply toldWritten_ok
    | apply toldEnded_ok
    | apply pursueWipe_ok
    | apply toldInWipe_ok
    | split
    | (refine CoreOk.queueOk ?_)

theorem noRoom_ok {second : Bool} {c : Core} (hok : CoreOk c) : CoreOk (noRoom second c) := by
  unfold noRoom
  try dsimp only
  with_reducible repeat' first
    | assumption
    | (refine ite_ok ?_ ?_)
    | apply enterFault_ok
    | apply endInWipe_ok

theorem pursue_ok {n : Need} {c : Core} (hok : CoreOk c) : CoreOk (pursue n c) := by
  unfold pursue
  try dsimp only
  with_reducible repeat' first
    | assumption
    | (refine ite_ok ?_ ?_)
    | apply enterStoreFull_ok
    | apply setActivity_ok
    | apply pursueWipe_ok
    | apply endInWipe_ok
    | apply noRoom_ok
    | split

theorem copyNext_ok {p : PageNo} {c : Core} (hok : CoreOk c) : CoreOk (copyNext p c) := by
  unfold copyNext
  try dsimp only
  with_reducible repeat' first
    | assumption
    | (refine setStore_ok ?_ ?_)
    | apply pursue_ok
    | split
    | (refine CoreOk.queueOk ?_)

theorem continueRun_ok {force : Bool} {c : Core} (hok : CoreOk c) : CoreOk (continueRun force c) := by
  unfold continueRun
  try dsimp only
  with_reducible repeat' first
    | assumption
    | (refine ite_ok ?_ ?_)
    | (refine setStore_ok ?_ ?_)
    | apply enterStoreFull_ok
    | apply copyNext_ok
    | split
    | (refine CoreOk.queueOk ?_)

theorem startRun_ok {force : Bool} {c : Core} (hok : CoreOk c) : CoreOk (startRun force c) := by
  unfold startRun
  try dsimp only
  with_reducible repeat' first
    | assumption
    | (refine setStore_ok ?_ ?_)
    | apply continueRun_ok
    | (refine CoreOk.queueOk ?_)

theorem settleIdle_ok {c : Core} (hok : CoreOk c) : CoreOk (settleIdle c) := by
  unfold settleIdle
  try dsimp only
  with_reducible repeat' first
    | assumption
    | (refine ite_ok ?_ ?_)
    | (refine setStore_ok ?_ ?_)
    | apply startRun_ok
    | (refine CoreOk.queueOk ?_)

theorem beginErase_ok {p : PageNo} {c : Core} (hok : CoreOk c) : CoreOk (beginErase p c) := by
  unfold beginErase
  try dsimp only
  with_reducible repeat' first
    | assumption
    | (refine setStore_ok ?_ ?_)
    | apply drawErase_ok
    | split
    | (refine CoreOk.queueOk ?_)

theorem resumeErase_ok {c : Core} (hok : CoreOk c) : CoreOk (resumeErase c) := by
  unfold resumeErase
  try dsimp only
  with_reducible repeat' first
    | assumption
    | (refine setStore_ok ?_ ?_)
    | split
    | (refine CoreOk.queueOk ?_)

theorem afterErase_ok {c : Core} (hok : CoreOk c) : CoreOk (afterErase c) := by
  unfold afterErase
  try dsimp only
  with_reducible repeat' first
    | assumption
    | (refine ite_ok ?_ ?_)
    | (refine setStore_ok ?_ ?_)
    | apply enterStoreFull_ok
    | apply continueRun_ok
    | apply settleIdle_ok
    | split
    | (refine CoreOk.queueOk ?_)

theorem pageEraseDone_ok {blank : Bool} {c : Core} (hok : CoreOk c) : CoreOk (pageEraseDone blank c) := by
  unfold pageEraseDone
  try dsimp only
  with_reducible repeat' first
    | assumption
    | (refine ite_ok ?_ ?_)
    | (refine setStore_ok ?_ ?_)
    | apply enterFault_ok
    | apply afterErase_ok
    | split
    | (refine CoreOk.queueOk ?_)
    | dsimp only
    | simp only [setStore_store, setPage_queue]

theorem pinBegun_ok {k : StoreKey} {c : Core} (hok : CoreOk c) : CoreOk (pinBegun k c) := by
  unfold pinBegun
  try dsimp only
  with_reducible repeat' first
    | assumption
    | (refine ite_ok ?_ ?_)
    | apply setLimits_ok

theorem beginItem_ok {it : Item} {lengths : List Nat} {state : StoreState} {c : Core} (hok : CoreOk c) : CoreOk (beginItem it lengths state c) := by
  unfold beginItem
  try dsimp only
  with_reducible repeat' first
    | assumption
    | (refine setStore_ok ?_ ?_)
    | apply itemLeft_ok
    | apply pursue_ok
    | (refine CoreOk.queueOk ?_)
    | (refine QueueOk.tail ?_)
    | apply pinBegun_ok

theorem itemWriteBegin_ok {lengths : List Nat} {c : Core} (hok : CoreOk c) : CoreOk (itemWriteBegin lengths c) := by
  unfold itemWriteBegin
  try dsimp only
  with_reducible repeat' first
    | assumption
    | (refine ite_ok ?_ ?_)
    | apply continueRun_ok
    | apply startRun_ok
    | apply resumeErase_ok
    | apply beginItem_ok
    | split

theorem afterWrite_ok {c : Core} (hok : CoreOk c) : CoreOk (afterWrite c) := by
  unfold afterWrite
  try dsimp only
  with_reducible repeat' first
    | assumption
    | (refine ite_ok ?_ ?_)
    | (refine setStore_ok ?_ ?_)
    | apply continueRun_ok
    | apply settleIdle_ok
    | apply resumeErase_ok
    | split
    | (refine CoreOk.queueOk ?_)

theorem itemWritten_ok {j : Job} {c : Core} (hok : CoreOk c) : CoreOk (itemWritten j c) := by
  unfold itemWritten
  try dsimp only
  with_reducible repeat' first
    | assumption
    | (refine ite_ok ?_ ?_)
    | exact noteWhole_ok hok hok.queueOk
    | (refine setStore_ok ?_ ?_)
    | apply toldWritten_ok
    | apply afterWrite_ok

theorem itemWriteDone_ok {ok : Bool} {c : Core} (hok : CoreOk c) : CoreOk (itemWriteDone ok c) := by
  unfold itemWriteDone
  try dsimp only
  with_reducible repeat' first
    | assumption
    | (refine ite_ok ?_ ?_)
    | (refine setStore_ok ?_ ?_)
    | apply enterFault_ok
    | apply endInWipe_ok
    | apply pursue_ok
    | apply itemWritten_ok
    | split
    | (refine CoreOk.queueOk ?_)
    | dsimp only
    | simp only [addEntry_queue]

theorem copyWriteDone_ok {ok : Bool} {c : Core} (hok : CoreOk c) : CoreOk (copyWriteDone ok c) := by
  unfold copyWriteDone
  try dsimp only
  with_reducible repeat' first
    | assumption
    | (refine ite_ok ?_ ?_)
    | (refine setStore_ok ?_ ?_)
    | apply enterFault_ok
    | apply setActivity_ok
    | apply pursueWipe_ok
    | apply pursue_ok
    | apply continueRun_ok
    | split
    | (refine CoreOk.queueOk ?_)
    | dsimp only
    | simp only [addEntry_queue]

theorem markEndedInWipe_ok {m : PageMark} {ok : Bool} {n : Need} {c : Core} (hok : CoreOk c) : CoreOk (markEndedInWipe m ok n c) := by
  unfold markEndedInWipe
  try dsimp only
  with_reducible repeat' first
    | assumption
    | (refine ite_ok ?_ ?_)
    | (refine setStore_ok ?_ ?_)
    | apply pursueWipe_ok
    | apply endInWipe_ok
    | apply pursue_ok
    | split
    | (refine CoreOk.queueOk ?_)
    | dsimp only
    | simp only [beginBanks_queue]

theorem markWriteDone_ok {ok : Bool} {c : Core} (hok : CoreOk c) : CoreOk (markWriteDone ok c) := by
  unfold markWriteDone
  try dsimp only
  with_reducible repeat' first
    | assumption
    | (refine ite_ok ?_ ?_)
    | (refine setStore_ok ?_ ?_)
    | apply enterFault_ok
    | apply setActivity_ok
    | apply pursue_ok
    | apply beginErase_ok
    | apply markEndedInWipe_ok
    | split
    | (refine CoreOk.queueOk ?_)
    | dsimp only
    | simp only [applyMark_queue]

theorem beginWipe_ok {c : Core} (hok : CoreOk c) : CoreOk (beginWipe c) := by
  unfold beginWipe
  try dsimp only
  with_reducible repeat' first
    | assumption
    | (refine ite_ok ?_ ?_)
    | (refine foldl_ok ?_ ?_)
    | (refine setStore_ok ?_ ?_)
    | apply toldEnded_ok
    | apply pursueWipe_ok
    | intro _
    | (refine CoreOk.queueOk ?_)
    | exact QueueOk.nil

theorem wipeAccount_ok {pin : Option Pin} {c : Core} (hok : CoreOk c) : CoreOk (wipeAccount pin c).2 := by
  unfold wipeAccount
  try dsimp only
  with_reducible repeat' first
    | assumption
    | (refine ite_ok ?_ ?_)
    | apply withPin_ok
    | apply beginWipe_ok
    | intro _
    | (refine ite_ok2 ?_ ?_)

theorem wipeDirectory_ok {c : Core} (hok : CoreOk c) : CoreOk (wipeDirectory c) := by
  unfold wipeDirectory
  try dsimp only
  with_reducible repeat' first
    | assumption
    | apply setDir_ok
    | apply watchReclaim_ok
    | apply startSnapshot_ok

theorem wipeGuide_ok {c : Core} (hok : CoreOk c) : CoreOk (wipeGuide c) := by
  unfold wipeGuide
  try dsimp only
  with_reducible repeat' first
    | assumption
    | apply setGuide_ok
    | apply setInterval_ok

theorem completeWipe_ok {c : Core} (hok : CoreOk c) : CoreOk (completeWipe c) := by
  unfold completeWipe
  try dsimp only
  with_reducible repeat' first
    | assumption
    | (refine ite_ok ?_ ?_)
    | apply post_ok
    | (refine setStore_ok ?_ ?_)
    | apply wipeAccess_ok
    | apply wipeLimits_ok
    | apply wipePurchases_ok
    | apply wipeClock_ok
    | apply setAcqLimit_ok
    | apply retestKept_ok
    | apply wipeLink_ok
    | apply wipeDirectory_ok
    | apply wipeGuide_ok
    | (refine CoreOk.queueOk ?_)

theorem bankEraseDone_ok {blank : Bool} {c : Core} (hok : CoreOk c) : CoreOk (bankEraseDone blank c) := by
  unfold bankEraseDone
  try dsimp only
  with_reducible repeat' first
    | assumption
    | (refine setStore_ok ?_ ?_)
    | apply completeWipe_ok
    | split
    | (refine CoreOk.queueOk ?_)
    | dsimp only
    | simp only [beginBanks_queue, blankBank_queue]

theorem postReady_ok {c : Core} (hok : CoreOk c) : CoreOk (postReady c) := by
  unfold postReady
  try dsimp only
  with_reducible repeat' first
    | assumption
    | (refine setLink_ok ?_ ?_)
    | (refine LinkOk.ready ?_ _)
    | (refine CoreOk.linkOk ?_)

theorem leaveScanning_ok {failed : Option PageNo} {c : Core} (hok : CoreOk c) : CoreOk (leaveScanning failed c) := by
  unfold leaveScanning
  try dsimp only
  with_reducible repeat' first
    | assumption
    | (refine ite_ok ?_ ?_)
    | apply post_ok
    | (refine setStore_ok ?_ ?_)
    | split
    | (refine CoreOk.queueOk ?_)

theorem loadClock_ok {c : Core} (hok : CoreOk c) : CoreOk (loadClock c) := by
  unfold loadClock
  try dsimp only
  with_reducible repeat' first
    | assumption
    | (refine foldl_ok ?_ ?_)
    | apply setClock_ok

theorem loadDirectory_ok {c : Core} (hok : CoreOk c) : CoreOk (loadDirectory c) := by
  unfold loadDirectory
  try dsimp only
  with_reducible repeat' first
    | assumption
    | apply setDir_ok

theorem loadSettings_ok {c : Core} (hok : CoreOk c) : CoreOk (loadSettings c) := by
  unfold loadSettings
  try dsimp only
  with_reducible repeat' first
    | assumption
    | apply setGuide_ok
    | apply setAcqLimit_ok
    | apply setInterval_ok
    | split

theorem loadAccess_ok {c : Core} (hok : CoreOk c) : CoreOk (loadAccess c) := by
  unfold loadAccess
  try dsimp only
  with_reducible repeat' first
    | assumption
    | (refine ite_ok ?_ ?_)
    | apply setEvents_ok
    | apply setPackages_ok
    | split
    | (refine coreOk_mk ?_ ?_)
    | (refine CoreOk.linkOk ?_)
    | (refine CoreOk.queueOk ?_)

theorem replay_ok {c : Core} {x : PurchaseRecord × EventGrant} (hok : CoreOk c) : CoreOk (replay c x) := by
  unfold replay
  try dsimp only
  with_reducible repeat' first
    | assumption
    | apply setPurchase_ok
    | apply setEvents_ok

theorem loadCredit_ok {c : Core} (hok : CoreOk c) : CoreOk (loadCredit c) := by
  unfold loadCredit
  try dsimp only
  with_reducible repeat' first
    | assumption
    | apply setUplinkState_ok
    | apply setPurchase_ok
    | split

theorem loadPurchases_ok {c : Core} (hok : CoreOk c) : CoreOk (loadPurchases c) := by
  unfold loadPurchases
  try dsimp only
  with_reducible repeat' first
    | assumption
    | (refine ite_ok ?_ ?_)
    | (refine foldl_ok ?_ ?_)
    | apply setPurchase_ok
    | apply commitGroup_ok
    | apply becameUnreported_ok
    | apply dueTest_ok
    | apply replay_ok
    | apply loadCredit_ok

theorem loadProfiles_ok {c : Core} (hok : CoreOk c) : CoreOk (loadProfiles c) := by
  unfold loadProfiles
  try dsimp only
  with_reducible repeat' first
    | assumption
    | apply setLimits_ok

theorem loadPin_ok {c : Core} (hok : CoreOk c) : CoreOk (loadPin c) := by
  unfold loadPin
  try dsimp only
  with_reducible repeat' first
    | assumption
    | (refine ite_ok ?_ ?_)
    | apply setLimits_ok
    | apply post_ok
    | split

theorem loadDefaults_ok {c : Core} (hok : CoreOk c) : CoreOk (loadDefaults c) := by
  unfold loadDefaults
  try dsimp only
  with_reducible repeat' first
    | assumption
    | apply setContext_ok
    | intro _
    | split

theorem loadLimits_ok {c : Core} (hok : CoreOk c) : CoreOk (loadLimits c) := by
  unfold loadLimits
  try dsimp only
  with_reducible repeat' first
    | assumption
    | apply setLimits_ok
    | apply loadProfiles_ok
    | apply loadPin_ok
    | apply loadDefaults_ok
    | split

theorem loadLink_ok {c : Core} (hok : CoreOk c) : CoreOk (loadLink c) := by
  unfold loadLink
  try dsimp only
  with_reducible repeat' first
    | assumption
    | (refine setLink_ok ?_ ?_)
    | split
    | (refine LinkOk.withMode ?_ _ _)
    | (refine CoreOk.linkOk ?_)
    | (refine LinkOk.powerKey ?_ _)

theorem loadAll_ok {c : Core} (hok : CoreOk c) : CoreOk (loadAll c) := by
  unfold loadAll
  try dsimp only
  with_reducible repeat' first
    | assumption
    | apply loadClock_ok
    | apply loadDirectory_ok
    | apply loadSettings_ok
    | apply loadAccess_ok
    | apply loadPurchases_ok
    | apply loadLimits_ok
    | apply loadLink_ok

theorem afterLoads_ok {c : Core} (hok : CoreOk c) : CoreOk (afterLoads c) := by
  unfold afterLoads
  try dsimp only
  with_reducible repeat' first
    | assumption
    | (refine setStore_ok ?_ ?_)
    | apply retestKept_ok
    | apply settleIdle_ok
    | apply completeWipe_ok
    | intro _
    | split
    | (refine CoreOk.queueOk ?_)
    | dsimp only
    | simp only [beginBanks_queue]

theorem startUpScanDone_ok {notBlank : List PageNo} {c : Core} (hok : CoreOk c) : CoreOk (startUpScanDone notBlank c) := by
  unfold startUpScanDone
  try dsimp only
  with_reducible repeat' first
    | assumption
    | (refine ite_ok ?_ ?_)
    | (refine setStore_ok ?_ ?_)
    | apply watchTest_ok
    | apply postReady_ok
    | apply leaveScanning_ok
    | apply loadAll_ok
    | apply afterLoads_ok
    | intro _
    | (refine CoreOk.queueOk ?_)
    | dsimp only
    | simp only [scanned_queue]

end Sys2Proof.Machine
end

