-- ==== Sys2Proof/Laws/PerInstr.lean ====
section
/-! SUPPORT. The family Tagged: no well-formed command carries tag 0, the tag of the replies that answer no request (R214). -/

namespace Sys2Proof.Laws.Tagged

open Sys2Proof

/-- A well-formed command's tag, where it has one, is not 0. -/
def Statement (i : Instr) : Prop := i.wellFormed = true → i.tag ≠ some 0

theorem of_wellFormed (i : Instr) : Statement i := by
  intro h e
  simp [Instr.wellFormed, e] at h

theorem frameReceived (bytes : List Byte) : Statement (.frameReceived bytes) := of_wellFormed _
theorem frameReceiveLimit : Statement .frameReceiveLimit := of_wellFormed _
theorem listChannels (tag : Byte) (a : Option ListChannelsReq) : Statement (.listChannels tag a) := of_wellFormed _
theorem channelInfo (tag : Byte) (a : Option Nat) : Statement (.channelInfo tag a) := of_wellFormed _
theorem setHomeCarrier (tag : Byte) (a : Option (Option CarrierReq)) : Statement (.setHomeCarrier tag a) := of_wellFormed _
theorem setTuning (tag : Byte) (a : Option Nat) : Statement (.setTuning tag a) := of_wellFormed _
theorem tunerStatus (tag : Byte) (a : Option Unit) : Statement (.tunerStatus tag a) := of_wellFormed _
theorem selectChannel (tag : Byte) (a : Option SelectReq) : Statement (.selectChannel tag a) := of_wellFormed _
theorem stopOutput (tag : Byte) (a : Option Nat) : Statement (.stopOutput tag a) := of_wellFormed _
theorem sessionStatus (tag : Byte) (a : Option (Option Nat)) : Statement (.sessionStatus tag a) := of_wellFormed _
theorem keyStatus (tag : Byte) (a : Option (Option Nat)) : Statement (.keyStatus tag a) := of_wellFormed _
theorem issue (tag : Byte) (a : Option IssueReq) : Statement (.issue tag a) := of_wellFormed _
theorem issueWriteDone (ok : Bool) : Statement (.issueWriteDone ok) := of_wellFormed _
theorem lockIssue (tag : Byte) (a : Option Unit) : Statement (.lockIssue tag a) := of_wellFormed _
theorem lockIssueWriteDone (ok : Bool) : Statement (.lockIssueWriteDone ok) := of_wellFormed _
theorem accessStatus (tag : Byte) (a : Option AccessReq) : Statement (.accessStatus tag a) := of_wellFormed _
theorem issueStatus (tag : Byte) (a : Option Unit) : Statement (.issueStatus tag a) := of_wellFormed _
theorem guideQuery (tag : Byte) (a : Option GuideReq) : Statement (.guideQuery tag a) := of_wellFormed _
theorem nowNext (tag : Byte) (a : Option Nat) : Statement (.nowNext tag a) := of_wellFormed _
theorem refreshGuide (tag : Byte) (a : Option (Option Nat)) : Statement (.refreshGuide tag a) := of_wellFormed _
theorem unlockRoom (tag : Byte) (a : Option RoomPinReq) : Statement (.unlockRoom tag a) := of_wellFormed _
theorem relockRoom (tag : Byte) (a : Option Nat) : Statement (.relockRoom tag a) := of_wellFormed _
theorem relockAll (tag : Byte) (a : Option Unit) : Statement (.relockAll tag a) := of_wellFormed _
theorem switchProfile (tag : Byte) (a : Option ProfilePinReq) : Statement (.switchProfile tag a) := of_wellFormed _
theorem returnProfile (tag : Byte) (a : Option Nat) : Statement (.returnProfile tag a) := of_wellFormed _
theorem setRoomDefault (tag : Byte) (a : Option ProfilePinReq) : Statement (.setRoomDefault tag a) := of_wellFormed _
theorem setProfile (tag : Byte) (a : Option SetProfileReq) : Statement (.setProfile tag a) := of_wellFormed _
theorem setPin (tag : Byte) (a : Option SetPinReq) : Statement (.setPin tag a) := of_wellFormed _
theorem lockChannel (tag : Byte) (a : Option LcnPinReq) : Statement (.lockChannel tag a) := of_wellFormed _
theorem unlockChannel (tag : Byte) (a : Option LcnPinReq) : Statement (.unlockChannel tag a) := of_wellFormed _
theorem limitStatus (tag : Byte) (a : Option Unit) : Statement (.limitStatus tag a) := of_wellFormed _
theorem purchase (tag : Byte) (a : Option PurchaseReq) : Statement (.purchase tag a) := of_wellFormed _
theorem uplinkNow (tag : Byte) (a : Option Unit) : Statement (.uplinkNow tag a) := of_wellFormed _
theorem uplinkRelease (tag : Byte) (a : Option Unit) : Statement (.uplinkRelease tag a) := of_wellFormed _
theorem setUplink (tag : Byte) (a : Option UplinkReq) : Statement (.setUplink tag a) := of_wellFormed _
theorem purchaseLog (tag : Byte) (a : Option Nat) : Statement (.purchaseLog tag a) := of_wellFormed _
theorem creditStatus (tag : Byte) (a : Option Unit) : Statement (.creditStatus tag a) := of_wellFormed _
theorem wipeAccount (tag : Byte) (a : Option (Option Pin)) : Statement (.wipeAccount tag a) := of_wellFormed _
theorem storeStatus (tag : Byte) (a : Option Unit) : Statement (.storeStatus tag a) := of_wellFormed _
theorem addBooking (tag : Byte) (a : Option AddBookingReq) : Statement (.addBooking tag a) := of_wellFormed _
theorem dropBooking (tag : Byte) (a : Option Nat) : Statement (.dropBooking tag a) := of_wellFormed _
theorem listBookings (tag : Byte) (a : Option Nat) : Statement (.listBookings tag a) := of_wellFormed _
theorem standby (tag : Byte) (a : Option Unit) : Statement (.standby tag a) := of_wellFormed _
theorem resume (tag : Byte) (a : Option Unit) : Statement (.resume tag a) := of_wellFormed _
theorem wakeAt (tag : Byte) (a : Option WakeAtReq) : Statement (.wakeAt tag a) := of_wellFormed _
theorem setZone (tag : Byte) (a : Option (Option Int)) : Statement (.setZone tag a) := of_wellFormed _
theorem clockStatus (tag : Byte) (a : Option Unit) : Statement (.clockStatus tag a) := of_wellFormed _
theorem takeNotices (tag : Byte) (a : Option Unit) : Statement (.takeNotices tag a) := of_wellFormed _
theorem ping (tag : Byte) (a : Option Unit) : Statement (.ping tag a) := of_wellFormed _
theorem setAttention (tag : Byte) (a : Option AttentionReq) : Statement (.setAttention tag a) := of_wellFormed _
theorem setKeys (tag : Byte) (a : Option Nat) : Statement (.setKeys tag a) := of_wellFormed _
theorem resetUnit (tag : Byte) (a : Option Unit) : Statement (.resetUnit tag a) := of_wellFormed _
theorem requestReset (r : ResetInput) : Statement (.requestReset r) := of_wellFormed _
theorem powerOn (r : ResetInput) : Statement (.powerOn r) := of_wellFormed _
theorem resetLine (r : ResetInput) : Statement (.resetLine r) := of_wellFormed _
theorem lockReport (tuner : Fin 4) (count : BitVec 4) : Statement (.lockReport tuner count) := of_wellFormed _
theorem lossReport (tuner : Fin 4) (count : BitVec 4) : Statement (.lossReport tuner count) := of_wellFormed _
theorem acquisitionLimit (tuner : Fin 4) : Statement (.acquisitionLimit tuner) := of_wellFormed _
theorem lossTimer (tuner : Fin 4) : Statement (.lossTimer tuner) := of_wellFormed _
theorem standbyWatchHold : Statement .standbyWatchHold := of_wellFormed _
theorem cellArrival (input : Fin 4) (header : BitVec 32) (payload : List Byte) (reading : TableBody) : Statement (.cellArrival input header payload reading) := of_wellFormed _
theorem bufferHandOver (slot : Fin 16) : Statement (.bufferHandOver slot) := of_wellFormed _
theorem keptBulletinRetest : Statement .keptBulletinRetest := of_wellFormed _
theorem keyLife (slot : Fin 4) : Statement (.keyLife slot) := of_wellFormed _
theorem sweepTimer : Statement .sweepTimer := of_wellFormed _
theorem sweepLimit : Statement .sweepLimit := of_wellFormed _
theorem laneMapWait (output : Output) : Statement (.laneMapWait output) := of_wellFormed _
theorem keyWait (output : Output) : Statement (.keyWait output) := of_wellFormed _
theorem lockoutTimer : Statement .lockoutTimer := of_wellFormed _
theorem allowanceMinute : Statement .allowanceMinute := of_wellFormed _
theorem reportTimer : Statement .reportTimer := of_wellFormed _
theorem sendBegin : Statement .sendBegin := of_wellFormed _
theorem modemAnswer (attempt : Byte) (answer : Byte) : Statement (.modemAnswer attempt answer) := of_wellFormed _
theorem answerWait : Statement .answerWait := of_wellFormed _
theorem retryTimer : Statement .retryTimer := of_wellFormed _
theorem ackWait : Statement .ackWait := of_wellFormed _
theorem backoffTimer : Statement .backoffTimer := of_wellFormed _
theorem quietTimer : Statement .quietTimer := of_wellFormed _
theorem owedCommitOffer : Statement .owedCommitOffer := of_wellFormed _
theorem itemWriteBegin (lengths : List Nat) : Statement (.itemWriteBegin lengths) := of_wellFormed _
theorem itemWriteDone (ok : Bool) : Statement (.itemWriteDone ok) := of_wellFormed _
theorem markWriteDone (ok : Bool) : Statement (.markWriteDone ok) := of_wellFormed _
theorem copyWriteDone (ok : Bool) : Statement (.copyWriteDone ok) := of_wellFormed _
theorem pageEraseDone (blank : Bool) : Statement (.pageEraseDone blank) := of_wellFormed _
theorem bankEraseDone (blank : Bool) : Statement (.bankEraseDone blank) := of_wellFormed _
theorem startUpScanDone (notBlank : List (Fin 128)) : Statement (.startUpScanDone notBlank) := of_wellFormed _
theorem clockSecond : Statement .clockSecond := of_wellFormed _
theorem keyReport (code : Byte) (mark : KeyMark) : Statement (.keyReport code mark) := of_wellFormed _
theorem gapTimer : Statement .gapTimer := of_wellFormed _
theorem bodyLengthExceeded (kind tag length : Byte) : Statement (.bodyLengthExceeded kind tag length) := of_wellFormed _

end Sys2Proof.Laws.Tagged
end

