-- ==== Sys2Proof/Laws/Sessions.lean ====
section
/-! SUPPORT. What a session does on its own leaves every other block as it was, but for the bookings, the commit queue and the notices. -/

namespace Sys2Proof.Machine

open Sys2Proof

theorem SessionsOnly.refl (c : Core) : SessionsOnly c c := ⟨rfl, rfl, rfl, rfl, rfl, rfl, rfl, rfl, rfl, rfl, rfl⟩

section

variable {c0 : Core}

theorem ite_sessions {P : Prop} [Decidable P] {a b : Core} (ha : SessionsOnly c0 a) (hb : SessionsOnly c0 b) : SessionsOnly c0 (if P then a else b) := by
  split
  · exact ha
  · exact hb

theorem foldl_sessions {α : Type} {f : Core → α → Core} {l : List α} {c : Core} (h : SessionsOnly c0 c)
    (hf : ∀ c x, SessionsOnly c0 c → SessionsOnly c0 (f c x)) : SessionsOnly c0 (l.foldl f c) := by
  induction l generalizing c with
  | nil => exact h
  | cons x t ih => exact ih (hf c x h)

theorem setSession_sessions {o : Output} {x : Session} {c : Core} (h : SessionsOnly c0 c) : SessionsOnly c0 (setSession o x c) := ⟨h.dir, h.arb, h.slots, h.keys, h.access, h.guide, h.limits, h.purchase, h.uplink, h.pages, h.time⟩
theorem setContext_sessions {r : Room} {x : RoomContext} {c : Core} (h : SessionsOnly c0 c) : SessionsOnly c0 (setContext r x c) := ⟨h.dir, h.arb, h.slots, h.keys, h.access, h.guide, h.limits, h.purchase, h.uplink, h.pages, h.time⟩
theorem setBooking_sessions {b : Booking} {c : Core} (h : SessionsOnly c0 c) : SessionsOnly c0 (setBooking b c) := ⟨h.dir, h.arb, h.slots, h.keys, h.access, h.guide, h.limits, h.purchase, h.uplink, h.pages, h.time⟩
theorem post_sessions {b : NoticeBody} {c : Core} (h : SessionsOnly c0 c) : SessionsOnly c0 (post b c) := ⟨h.dir, h.arb, h.slots, h.keys, h.access, h.guide, h.limits, h.purchase, h.uplink, h.pages, h.time⟩

theorem StoreOnly.sessions {c c' : Core} (s : StoreOnly c c') (h : SessionsOnly c0 c) : SessionsOnly c0 c' :=
  ⟨s.dir.trans h.dir, s.arb.trans h.arb, s.slots.trans h.slots, s.keys.trans h.keys, s.access.trans h.access,
   s.guide.trans h.guide, s.limits.trans h.limits, s.purchase.trans h.purchase, s.uplink.trans h.uplink,
   s.pages.trans h.pages, (congrArg Clock.time s.clock).trans h.time⟩

theorem offer_sessions {it : Item} {a : OfferAnswer} {c c' : Core} (e : offer it c = (a, c')) (h : SessionsOnly c0 c) :
    SessionsOnly c0 c' := (offer_only e).sessions h

theorem commitBooking_sessions {id : Nat} {c : Core} (hok : SessionsOnly c0 c) : SessionsOnly c0 (commitBooking id c) := by
  unfold commitBooking
  split
  · have s := offer_sessions (by assumption) hok
    have t : (oweBooking id (‹Core›).clock).time = (‹Core›).clock.time := by unfold oweBooking; split <;> rfl
    exact ⟨s.dir, s.arb, s.slots, s.keys, s.access, s.guide, s.limits, s.purchase, s.uplink, s.pages, t.trans s.time⟩
  · exact offer_sessions (by assumption) hok
  · have s := offer_sessions (by assumption) hok
    exact ⟨s.dir, s.arb, s.slots, s.keys, s.access, s.guide, s.limits, s.purchase, s.uplink, s.pages, s.time⟩

theorem postBookingState_sessions {b : Booking} {cause : Option MissedCause} {c : Core} (hok : SessionsOnly c0 c) : SessionsOnly c0 (postBookingState b cause c) := by
  unfold postBookingState
  try dsimp only
  with_reducible repeat' first
    | assumption
    | apply post_sessions

theorem changeBooking_sessions {b : Booking} {cause : Option MissedCause} {c : Core} (hok : SessionsOnly c0 c) : SessionsOnly c0 (changeBooking b cause c) := by
  unfold changeBooking
  try dsimp only
  with_reducible repeat' first
    | assumption
    | apply setBooking_sessions
    | apply commitBooking_sessions
    | apply postBookingState_sessions

theorem missBooking_sessions {b : Booking} {cause : MissedCause} {c : Core} (hok : SessionsOnly c0 c) : SessionsOnly c0 (missBooking b cause c) := by
  unfold missBooking
  try dsimp only
  with_reducible repeat' first
    | assumption
    | apply changeBooking_sessions

theorem bookingOutcome_sessions {id : Nat} {outcome : ChangeOutcome} {c : Core} (hok : SessionsOnly c0 c) : SessionsOnly c0 (bookingOutcome id outcome c) := by
  unfold bookingOutcome
  try dsimp only
  with_reducible repeat' first
    | assumption
    | (refine ite_sessions ?_ ?_)
    | apply missBooking_sessions
    | split

theorem endChange_sessions {o : Output} {old : Session} {outcome : ChangeOutcome} {reasons : Option Reasons} {c : Core} (hok : SessionsOnly c0 c) : SessionsOnly c0 (endChange o old outcome reasons c) := by
  unfold endChange
  try dsimp only
  with_reducible repeat' first
    | assumption
    | apply post_sessions
    | apply bookingOutcome_sessions
    | split

theorem postSession_sessions {o : Output} {c : Core} (hok : SessionsOnly c0 c) : SessionsOnly c0 (postSession o c) := by
  unfold postSession
  try dsimp only
  with_reducible repeat' first
    | assumption
    | apply post_sessions

theorem purchaseOffer_sessions {o : Output} {c : Core} (hok : SessionsOnly c0 c) : SessionsOnly c0 (purchaseOffer o c) := by
  unfold purchaseOffer
  try dsimp only
  with_reducible repeat' first
    | assumption
    | (refine ite_sessions ?_ ?_)
    | apply post_sessions
    | split

theorem arrive_sessions {o : Output} {old : Session} {s : Session} {entering : Bool} {c : Core} (hok : SessionsOnly c0 c) : SessionsOnly c0 (arrive o old s entering c) := by
  unfold arrive
  try dsimp only
  with_reducible repeat' first
    | assumption
    | (refine ite_sessions ?_ ?_)
    | apply setSession_sessions
    | apply endChange_sessions
    | apply postSession_sessions
    | apply purchaseOffer_sessions
    | split

theorem reevalOne_sessions {c : Core} {o : Output} (hok : SessionsOnly c0 c) : SessionsOnly c0 (reevalOne c o) := by
  unfold reevalOne
  try dsimp only
  with_reducible repeat' first
    | assumption
    | (refine ite_sessions ?_ ?_)
    | apply setSession_sessions
    | apply arrive_sessions
    | split

theorem reevaluate_sessions {c : Core} (hok : SessionsOnly c0 c) : SessionsOnly c0 (reevaluate c) := by
  unfold reevaluate
  try dsimp only
  with_reducible repeat' first
    | assumption
    | (refine foldl_sessions ?_ ?_)
    | apply reevalOne_sessions

theorem signalLost_sessions {o : Output} {c : Core} (hok : SessionsOnly c0 c) : SessionsOnly c0 (signalLost o c) := by
  unfold signalLost
  try dsimp only
  with_reducible repeat' first
    | assumption
    | (refine ite_sessions ?_ ?_)
    | apply setSession_sessions
    | apply postSession_sessions
    | split

theorem endEventGrant_sessions {o : Output} {c : Core} (hok : SessionsOnly c0 c) : SessionsOnly c0 (endEventGrant o c) := by
  unfold endEventGrant
  try dsimp only
  with_reducible repeat' first
    | assumption
    | (refine ite_sessions ?_ ?_)
    | apply setContext_sessions
    | split

theorem testSession_sessions {c : Core} {o : Output} (hok : SessionsOnly c0 c) : SessionsOnly c0 (testSession c o) := by
  unfold testSession
  try dsimp only
  with_reducible repeat' first
    | assumption
    | (refine ite_sessions ?_ ?_)
    | apply setSession_sessions
    | apply post_sessions
    | apply purchaseOffer_sessions
    | apply reevaluate_sessions
    | apply endEventGrant_sessions
    | split

theorem testPresent_sessions {c : Core} (hok : SessionsOnly c0 c) : SessionsOnly c0 (testPresent c) := by
  unfold testPresent
  try dsimp only
  with_reducible repeat' first
    | assumption
    | (refine foldl_sessions ?_ ?_)
    | apply testSession_sessions

theorem supersede_sessions {o : Output} {c : Core} (hok : SessionsOnly c0 c) : SessionsOnly c0 (supersede o c) := by
  unfold supersede
  try dsimp only
  with_reducible repeat' first
    | assumption
    | (refine ite_sessions ?_ ?_)
    | apply setSession_sessions
    | apply endChange_sessions

theorem endGrant_sessions {o : Output} {c : Core} (hok : SessionsOnly c0 c) : SessionsOnly c0 (endGrant o c) := by
  unfold endGrant
  try dsimp only
  with_reducible repeat' first
    | assumption
    | apply setContext_sessions
    | split

theorem keyWaitExpired_sessions {o : Output} {c : Core} (hok : SessionsOnly c0 c) : SessionsOnly c0 (keyWaitExpired o c) := by
  unfold keyWaitExpired
  try dsimp only
  with_reducible repeat' first
    | assumption
    | (refine ite_sessions ?_ ?_)
    | apply setSession_sessions
    | apply arrive_sessions

end

end Sys2Proof.Machine
end

