-- ==== Sys2Proof/Laws/Steady.lean ====
section
/-! SUPPORT. What no operation outside the Account Store's own steps changes: the pages, the write or erase in progress, the
reference seconds, the commands already on the tuner line and the notice at the head of the queue. -/

namespace Sys2Proof.Machine

open Sys2Proof

/-- From `c0` to `c` the pages, the running write, the reference seconds, the first notice and the tuner line's history stand. -/
structure Steady (c0 c : Core) : Prop where
  seconds : c.link.refSeconds = c0.link.refSeconds
  pages : c.store.pages = c0.store.pages
  first : ∀ n, c0.link.notices.head? = some n → c.link.notices.head? = some n
  line : c0.arb.line <+: c.arb.line
  running : c0.store.state ≠ .erasing → c.store.state = c0.store.state ∧ c.store.job = c0.store.job ∧
    c.store.activity = c0.store.activity ∧ c.store.nextSerial = c0.store.nextSerial ∧ c.store.run = c0.store.run ∧
    c.store.banks = c0.store.banks ∧ c.store.wipeFailed = c0.store.wipeFailed

theorem Steady.refl (c : Core) : Steady c c :=
  ⟨rfl, rfl, fun _ h => h, List.prefix_refl _, fun _ => ⟨rfl, rfl, rfl, rfl, rfl, rfl, rfl⟩⟩

theorem Steady.trans {a b c : Core} (h : Steady a b) (k : Steady b c) : Steady a c :=
  ⟨k.seconds.trans h.seconds, k.pages.trans h.pages, fun n e => k.first n (h.first n e), h.line.trans k.line, fun e => by
    obtain ⟨h1, h2, h3, h4, h5, h6, h7⟩ := h.running e
    obtain ⟨k1, k2, k3, k4, k5, k6, k7⟩ := k.running (by rw [h1]; exact e)
    exact ⟨k1.trans h1, k2.trans h2, k3.trans h3, k4.trans h4, k5.trans h5, k6.trans h6, k7.trans h7⟩⟩

theorem Link.join_head (l : Link) (x n : Notice) (h : l.notices.head? = some n) : (l.join x).notices.head? = some n := by
  unfold Link.join
  split
  · cases l.mode <;> dsimp only
    · cases hn : l.notices <;> simp_all
    · split <;> cases hn : l.notices <;> simp_all
  · exact h

theorem Link.join_seconds (l : Link) (x : Notice) : (l.join x).refSeconds = l.refSeconds := by
  unfold Link.join
  split
  · cases l.mode <;> dsimp only
    split <;> rfl
  · rfl

theorem post_steady' (b : NoticeBody) (c : Core) : Steady c (post b c) :=
  ⟨Link.join_seconds _ _, rfl, fun n h => Link.join_head _ _ n h, List.prefix_refl _, fun _ => ⟨rfl, rfl, rfl, rfl, rfl, rfl, rfl⟩⟩

theorem suspendErase_calm (c : Core) (h : c.store.state ≠ .erasing) : suspendErase c = c := by
  unfold suspendErase; rw [if_neg (by simp [h])]

/-- An offer to a store that is not erasing changes the queue alone. -/
theorem offer_calm {it : Item} {c c' : Core} {a : OfferAnswer} (h : offer it c = (a, c')) (hs : c.store.state ≠ .erasing) :
    ∃ q, c' = { c with store := { c.store with queue := q } } := by
  unfold offer at h
  split at h
  · simp only [Prod.mk.injEq] at h; exact ⟨_, h.2.symm⟩
  · split at h
    · simp only [Prod.mk.injEq] at h; exact ⟨_, h.2.symm⟩
    · rename_i q u _
      simp only [Prod.mk.injEq] at h
      refine ⟨q, ?_⟩
      rw [← h.2]
      split
      · exact suspendErase_calm _ hs
      · rfl

theorem offer_steady' {it : Item} {c c' : Core} {a : OfferAnswer} (h : offer it c = (a, c')) : Steady c c' :=
  ⟨by rw [(offer_only h).link], (offer_only h).pages, by rw [(offer_only h).link]; exact fun _ e => e,
   by rw [(offer_only h).arb], fun hs => by
    obtain ⟨q, rfl⟩ := offer_calm h hs
    exact ⟨rfl, rfl, rfl, rfl, rfl, rfl, rfl⟩⟩

section

variable {c0 : Core}

theorem ite_steady {P : Prop} [Decidable P] {a b : Core} (ha : Steady c0 a) (hb : Steady c0 b) :
    Steady c0 (if P then a else b) := by
  split
  · exact ha
  · exact hb

theorem ite_steady2 {α : Type} {P : Prop} [Decidable P] {a b : α × Core} (ha : Steady c0 a.2) (hb : Steady c0 b.2) :
    Steady c0 (if P then a else b).2 := by
  split
  · exact ha
  · exact hb

theorem foldl_steady {α : Type} {f : Core → α → Core} {l : List α} {c : Core} (h : Steady c0 c)
    (hf : ∀ c x, Steady c0 c → Steady c0 (f c x)) : Steady c0 (l.foldl f c) := by
  induction l generalizing c with
  | nil => exact h
  | cons x t ih => exact ih (hf c x h)

theorem offer_steady {it : Item} {a : OfferAnswer} {c c' : Core} (e : offer it c = (a, c')) (h : Steady c0 c) :
    Steady c0 c' := h.trans (offer_steady' e)

theorem setLink_steady {x : Link} {c : Core} (h : Steady c0 c) (hn : x.notices = c.link.notices)
    (hr : x.refSeconds = c.link.refSeconds) : Steady c0 (setLink x c) :=
  ⟨hr.trans h.seconds, h.pages, by show ∀ n, _ → x.notices.head? = _; rw [hn]; exact h.first, h.line, h.running⟩

theorem setSession_steady {o : Output} {x : Session} {c : Core} (h : Steady c0 c) : Steady c0 (setSession o x c) :=
  ⟨h.seconds, h.pages, h.first, h.line, h.running⟩
theorem setLaneMap_steady {t : Fin 4} {x : LaneMap} {c : Core} (h : Steady c0 c) : Steady c0 (setLaneMap t x c) :=
  ⟨h.seconds, h.pages, h.first, h.line, h.running⟩
theorem setContext_steady {r : Room} {x : RoomContext} {c : Core} (h : Steady c0 c) : Steady c0 (setContext r x c) :=
  ⟨h.seconds, h.pages, h.first, h.line, h.running⟩
theorem setTuner_steady {t : Fin 4} {x : Tuner} {c : Core} (h : Steady c0 c) : Steady c0 (setTuner t x c) :=
  ⟨h.seconds, h.pages, h.first, h.line, h.running⟩
theorem setSlot_steady {i : Fin 16} {x : Slot} {c : Core} (h : Steady c0 c) : Steady c0 (setSlot i x c) :=
  ⟨h.seconds, h.pages, h.first, h.line, h.running⟩
theorem setKeySlot_steady {k : Fin 4} {x : KeySlot} {c : Core} (h : Steady c0 c) : Steady c0 (setKeySlot k x c) :=
  ⟨h.seconds, h.pages, h.first, h.line, h.running⟩
theorem setBooking_steady {b : Booking} {c : Core} (h : Steady c0 c) : Steady c0 (setBooking b c) :=
  ⟨h.seconds, h.pages, h.first, h.line, h.running⟩
theorem setGuide_steady {x : Guide} {c : Core} (h : Steady c0 c) : Steady c0 (setGuide x c) :=
  ⟨h.seconds, h.pages, h.first, h.line, h.running⟩
theorem setLimits_steady {x : Limits} {c : Core} (h : Steady c0 c) : Steady c0 (setLimits x c) :=
  ⟨h.seconds, h.pages, h.first, h.line, h.running⟩
theorem setUplinkState_steady {x : Uplink} {c : Core} (h : Steady c0 c) : Steady c0 (setUplinkState x c) :=
  ⟨h.seconds, h.pages, h.first, h.line, h.running⟩
theorem setPurchase_steady {x : Purchase} {c : Core} (h : Steady c0 c) : Steady c0 (setPurchase x c) :=
  ⟨h.seconds, h.pages, h.first, h.line, h.running⟩
theorem setClock_steady {x : Clock} {c : Core} (h : Steady c0 c) : Steady c0 (setClock x c) :=
  ⟨h.seconds, h.pages, h.first, h.line, h.running⟩
theorem setDir_steady {x : Directory} {c : Core} (h : Steady c0 c) : Steady c0 (setDir x c) :=
  ⟨h.seconds, h.pages, h.first, h.line, h.running⟩
theorem guide_steady {c : Core} {x : Guide} (h : Steady c0 c) : Steady c0 { c with guide := x } :=
  ⟨h.seconds, h.pages, h.first, h.line, h.running⟩
theorem rooms_steady {c : Core} {x : Rooms} (h : Steady c0 c) : Steady c0 { c with rooms := x } :=
  ⟨h.seconds, h.pages, h.first, h.line, h.running⟩
theorem clock_steady {c : Core} {x : Clock} (h : Steady c0 c) : Steady c0 { c with clock := x } :=
  ⟨h.seconds, h.pages, h.first, h.line, h.running⟩
theorem access_steady {c : Core} {x : Access} (h : Steady c0 c) : Steady c0 { c with access := x } :=
  ⟨h.seconds, h.pages, h.first, h.line, h.running⟩
theorem free_steady {c : Core} {x : Nat} (h : Steady c0 c) : Steady c0 { c with free := x } :=
  ⟨h.seconds, h.pages, h.first, h.line, h.running⟩
theorem post_steady {b : NoticeBody} {c : Core} (h : Steady c0 c) : Steady c0 (post b c) := h.trans (post_steady' b c)

theorem withMode_keeps (l : Link) (m : AttnMode) (gap : Nat) :
    (l.withMode m gap).notices = l.notices ∧ (l.withMode m gap).refSeconds = l.refSeconds := by
  unfold Link.withMode
  dsimp only
  split
  · exact ⟨rfl, rfl⟩
  · cases m <;> exact ⟨rfl, rfl⟩

theorem openFilter_steady {f : Filter} {c : Core} (hok : Steady c0 c) : Steady c0 (openFilter f c) := by
  unfold openFilter
  try dsimp only
  with_reducible repeat' first
    | assumption
    | apply setSlot_steady
    | split

theorem closeWhere_steady {p : Slot → Bool} {c : Core} (hok : Steady c0 c) : Steady c0 (closeWhere p c) := by
  unfold closeWhere
  try dsimp only
  with_reducible repeat' first
    | assumption
    | (refine ite_steady ?_ ?_)
    | (refine foldl_steady ?_ ?_)
    | apply setSlot_steady
    | intro _

theorem closeTunerSlots_steady {t : Fin 4} {c : Core} (hok : Steady c0 c) : Steady c0 (closeTunerSlots t c) := by
  unfold closeTunerSlots
  try dsimp only
  with_reducible repeat' first
    | assumption
    | (refine ite_steady ?_ ?_)
    | (refine foldl_steady ?_ ?_)
    | apply setKeySlot_steady
    | apply closeWhere_steady
    | intro _

theorem settleControl_steady {c : Core} (hok : Steady c0 c) : Steady c0 (settleControl c) := by
  unfold settleControl
  try dsimp only
  with_reducible repeat' first
    | assumption
    | (refine ite_steady ?_ ?_)
    | apply openFilter_steady
    | apply closeWhere_steady
    | split

theorem discardAssembly_steady {t : Fin 4} {c : Core} (hok : Steady c0 c) : Steady c0 (discardAssembly t c) := by
  unfold discardAssembly
  try dsimp only
  with_reducible repeat' first
    | assumption
    | (refine ite_steady ?_ ?_)
    | (refine foldl_steady ?_ ?_)
    | apply setSlot_steady
    | intro _

theorem ensureKeyFilter_steady {k : Fin 4} {t : Fin 4} {c : Core} (hok : Steady c0 c) : Steady c0 (ensureKeyFilter k t c) := by
  unfold ensureKeyFilter
  try dsimp only
  with_reducible repeat' first
    | assumption
    | (refine ite_steady ?_ ?_)
    | apply setKeySlot_steady
    | apply openFilter_steady
    | split

theorem closeKeyFilter_steady {k : Fin 4} {c : Core} (hok : Steady c0 c) : Steady c0 (closeKeyFilter k c) := by
  unfold closeKeyFilter
  try dsimp only
  with_reducible repeat' first
    | assumption
    | apply setKeySlot_steady
    | apply closeWhere_steady
    | intro _
    | split

theorem dropRef_steady {k : Fin 4} {c : Core} (hok : Steady c0 c) : Steady c0 (dropRef k c) := by
  unfold dropRef
  try dsimp only
  with_reducible repeat' first
    | assumption
    | (refine ite_steady ?_ ?_)
    | apply setKeySlot_steady
    | apply closeKeyFilter_steady

theorem setSessionSlot_steady {o : Output} {k : Option (Fin 4)} {c : Core} (hok : Steady c0 c) : Steady c0 (setSessionSlot o k c) := by
  unfold setSessionSlot
  try dsimp only
  with_reducible repeat' first
    | assumption
    | apply setSession_steady

theorem unbindKey_steady {o : Output} {c : Core} (hok : Steady c0 c) : Steady c0 (unbindKey o c) := by
  unfold unbindKey
  try dsimp only
  with_reducible repeat' first
    | assumption
    | apply dropRef_steady
    | apply setSessionSlot_steady
    | split

theorem dropOld_steady {old : Option (Fin 4)} {c : Core} (hok : Steady c0 c) : Steady c0 (dropOld old c) := by
  unfold dropOld
  try dsimp only
  with_reducible repeat' first
    | assumption
    | apply dropRef_steady
    | split

theorem bindKey_steady {o : Output} {x : Carrier} {lane : Nat} {t : Fin 4} {c : Core} (hok : Steady c0 c) : Steady c0 (bindKey o x lane t c) := by
  unfold bindKey
  try dsimp only
  with_reducible repeat' first
    | assumption
    | (refine ite_steady ?_ ?_)
    | apply setKeySlot_steady
    | apply ensureKeyFilter_steady
    | apply closeKeyFilter_steady
    | apply dropRef_steady
    | apply setSessionSlot_steady
    | apply dropOld_steady
    | split

theorem commitBooking_steady {id : Nat} {c : Core} (hok : Steady c0 c) : Steady c0 (commitBooking id c) := by
  unfold commitBooking
  try dsimp only
  with_reducible repeat' first
    | assumption
    | exact offer_steady (by assumption) (by assumption)
    | apply offer_steady (by assumption)
    | split
    | (refine clock_steady ?_)

theorem commitLastDay_steady {c : Core} (hok : Steady c0 c) : Steady c0 (commitLastDay c) := by
  unfold commitLastDay
  try dsimp only
  with_reducible repeat' first
    | assumption
    | (refine ite_steady ?_ ?_)
    | exact offer_steady (by assumption) (by assumption)
    | apply offer_steady (by assumption)
    | split
    | (refine clock_steady ?_)

theorem postBookingState_steady {b : Booking} {cause : Option MissedCause} {c : Core} (hok : Steady c0 c) : Steady c0 (postBookingState b cause c) := by
  unfold postBookingState
  try dsimp only
  with_reducible repeat' first
    | assumption
    | apply post_steady

theorem changeBooking_steady {b : Booking} {cause : Option MissedCause} {c : Core} (hok : Steady c0 c) : Steady c0 (changeBooking b cause c) := by
  unfold changeBooking
  try dsimp only
  with_reducible repeat' first
    | assumption
    | apply setBooking_steady
    | apply commitBooking_steady
    | apply postBookingState_steady

theorem missBooking_steady {b : Booking} {cause : MissedCause} {c : Core} (hok : Steady c0 c) : Steady c0 (missBooking b cause c) := by
  unfold missBooking
  try dsimp only
  with_reducible repeat' first
    | assumption
    | apply changeBooking_steady

theorem assertWake_steady {f : WakeCauses → WakeCauses} {c : Core} (hok : Steady c0 c) : Steady c0 (assertWake f c) := by
  unfold assertWake
  try dsimp only
  with_reducible repeat' first
    | assumption
    | (refine ite_steady ?_ ?_)
    | (refine clock_steady ?_)

theorem bookingOutcome_steady {id : Nat} {outcome : ChangeOutcome} {c : Core} (hok : Steady c0 c) : Steady c0 (bookingOutcome id outcome c) := by
  unfold bookingOutcome
  try dsimp only
  with_reducible repeat' first
    | assumption
    | (refine ite_steady ?_ ?_)
    | apply missBooking_steady
    | split

theorem endChange_steady {o : Output} {old : Session} {outcome : ChangeOutcome} {reasons : Option Reasons} {c : Core} (hok : Steady c0 c) : Steady c0 (endChange o old outcome reasons c) := by
  unfold endChange
  try dsimp only
  with_reducible repeat' first
    | assumption
    | apply post_steady
    | apply bookingOutcome_steady
    | split

theorem postSession_steady {o : Output} {c : Core} (hok : Steady c0 c) : Steady c0 (postSession o c) := by
  unfold postSession
  try dsimp only
  with_reducible repeat' first
    | assumption
    | apply post_steady

theorem purchaseOffer_steady {o : Output} {c : Core} (hok : Steady c0 c) : Steady c0 (purchaseOffer o c) := by
  unfold purchaseOffer
  try dsimp only
  with_reducible repeat' first
    | assumption
    | (refine ite_steady ?_ ?_)
    | apply post_steady
    | split

theorem arrive_steady {o : Output} {old : Session} {s : Session} {entering : Bool} {c : Core} (hok : Steady c0 c) : Steady c0 (arrive o old s entering c) := by
  unfold arrive
  try dsimp only
  with_reducible repeat' first
    | assumption
    | (refine ite_steady ?_ ?_)
    | apply setSession_steady
    | apply endChange_steady
    | apply postSession_steady
    | apply purchaseOffer_steady
    | split

theorem bindService_steady {o : Output} {e : LaneEntry} {c : Core} (hok : Steady c0 c) : Steady c0 (bindService o e c) := by
  unfold bindService
  try dsimp only
  with_reducible repeat' first
    | assumption
    | (refine ite_steady ?_ ?_)
    | apply unbindKey_steady
    | apply bindKey_steady
    | split

theorem enterChecking_steady {o : Output} {e : LaneEntry} {c : Core} (hok : Steady c0 c) : Steady c0 (enterChecking o e c) := by
  unfold enterChecking
  try dsimp only
  with_reducible repeat' first
    | assumption
    | (refine ite_steady ?_ ?_)
    | apply setSession_steady
    | apply postSession_steady
    | apply arrive_steady
    | apply bindService_steady

theorem tryChecking_steady {o : Output} {old : Session} {c : Core} (hok : Steady c0 c) : Steady c0 (tryChecking o old c) := by
  unfold tryChecking
  try dsimp only
  with_reducible repeat' first
    | assumption
    | (refine ite_steady ?_ ?_)
    | apply postSession_steady
    | apply enterChecking_steady
    | split

theorem reopen_steady {o : Output} {c : Core} (hok : Steady c0 c) : Steady c0 (reopen o c) := by
  unfold reopen
  try dsimp only
  with_reducible repeat' first
    | assumption
    | apply setSession_steady
    | apply tryChecking_steady

theorem reevalOne_steady {c : Core} {o : Output} (hok : Steady c0 c) : Steady c0 (reevalOne c o) := by
  unfold reevalOne
  try dsimp only
  with_reducible repeat' first
    | assumption
    | (refine ite_steady ?_ ?_)
    | apply setSession_steady
    | apply arrive_steady
    | split

theorem reevaluate_steady {c : Core} (hok : Steady c0 c) : Steady c0 (reevaluate c) := by
  unfold reevaluate
  try dsimp only
  with_reducible repeat' first
    | assumption
    | (refine foldl_steady ?_ ?_)
    | apply reevalOne_steady

theorem signalLost_steady {o : Output} {c : Core} (hok : Steady c0 c) : Steady c0 (signalLost o c) := by
  unfold signalLost
  try dsimp only
  with_reducible repeat' first
    | assumption
    | (refine ite_steady ?_ ?_)
    | apply setSession_steady
    | apply postSession_steady
    | split

theorem signalRegained_steady {o : Output} {c : Core} (hok : Steady c0 c) : Steady c0 (signalRegained o c) := by
  unfold signalRegained
  try dsimp only
  with_reducible repeat' first
    | assumption
    | (refine ite_steady ?_ ?_)
    | apply setSession_steady
    | apply arrive_steady
    | apply enterChecking_steady
    | apply tryChecking_steady
    | split

theorem endEventGrant_steady {o : Output} {c : Core} (hok : Steady c0 c) : Steady c0 (endEventGrant o c) := by
  unfold endEventGrant
  try dsimp only
  with_reducible repeat' first
    | assumption
    | (refine ite_steady ?_ ?_)
    | apply setContext_steady
    | split

theorem testSession_steady {c : Core} {o : Output} (hok : Steady c0 c) : Steady c0 (testSession c o) := by
  unfold testSession
  try dsimp only
  with_reducible repeat' first
    | assumption
    | (refine ite_steady ?_ ?_)
    | apply setSession_steady
    | apply post_steady
    | apply purchaseOffer_steady
    | apply reevaluate_steady
    | apply endEventGrant_steady
    | split

theorem testPresent_steady {c : Core} (hok : Steady c0 c) : Steady c0 (testPresent c) := by
  unfold testPresent
  try dsimp only
  with_reducible repeat' first
    | assumption
    | (refine foldl_steady ?_ ?_)
    | apply testSession_steady

theorem carry_steady {o : Output} {x : OutCell} {c : Core} (hok : Steady c0 c) : Steady c0 (carry o x c) := by
  unfold carry
  try dsimp only
  with_reducible repeat' first
    | assumption
    | (refine rooms_steady ?_)

theorem sendCommand_steady {t : Fin 4} {x : Option Carrier} {c : Core} (hok : Steady c0 c) : Steady c0 (sendCommand t x c) := by
  unfold sendCommand
  exact setTuner_steady ⟨hok.seconds, hok.pages, hok.first, hok.line.trans (List.prefix_append _ _), hok.running⟩

theorem tune_steady {t : Fin 4} {x : Carrier} {holders : Holders} {c : Core} (hok : Steady c0 c) : Steady c0 (tune t x holders c) := by
  unfold tune
  try dsimp only
  with_reducible repeat' first
    | assumption
    | apply setTuner_steady
    | apply sendCommand_steady

theorem turnOff_steady {t : Fin 4} {c : Core} (hok : Steady c0 c) : Steady c0 (turnOff t c) := by
  unfold turnOff
  try dsimp only
  with_reducible repeat' first
    | assumption
    | apply setTuner_steady
    | apply sendCommand_steady

theorem setHolder_steady {t : Fin 4} {x : Claimant} {b : Bool} {c : Core} (hok : Steady c0 c) : Steady c0 (setHolder t x b c) := by
  unfold setHolder
  try dsimp only
  with_reducible repeat' first
    | assumption
    | apply setTuner_steady

theorem startHold_steady {c : Core} (hok : Steady c0 c) : Steady c0 (startHold c) := by
  unfold startHold
  try dsimp only
  with_reducible repeat' first
    | assumption
    | (refine ite_steady ?_ ?_)
    | (refine clock_steady ?_)

theorem stopHold_steady {c : Core} (hok : Steady c0 c) : Steady c0 (stopHold c) := by
  unfold stopHold
  try dsimp only
  with_reducible repeat' first
    | assumption
    | (refine clock_steady ?_)

theorem watchTest_steady {c : Core} (hok : Steady c0 c) : Steady c0 (watchTest c) := by
  unfold watchTest
  try dsimp only
  with_reducible repeat' first
    | assumption
    | (refine ite_steady ?_ ?_)
    | apply tune_steady
    | apply setHolder_steady
    | apply startHold_steady
    | split

theorem endRecording_steady {stop : Output → Core → Core} {b : Booking} {c : Core} (hstop : ∀ o c, Steady c0 c → Steady c0 (stop o c)) (hok : Steady c0 c) : Steady c0 (endRecording stop b c) := by
  unfold endRecording
  try dsimp only
  with_reducible repeat' first
    | assumption
    | apply hstop
    | apply setBooking_steady
    | apply commitBooking_steady
    | apply postBookingState_steady
    | split

theorem judgeExtended_steady {stop : Output → Core → Core} {c : Core} {id : Nat} (hstop : ∀ o c, Steady c0 c → Steady c0 (stop o c)) (hok : Steady c0 c) : Steady c0 (judgeExtended stop c id) := by
  unfold judgeExtended
  try dsimp only
  with_reducible repeat' first
    | assumption
    | apply hstop
    | (refine ite_steady ?_ ?_)
    | apply endRecording_steady
    | split

theorem markerChanged_steady {stop : Output → Core → Core} {lcn : Nat} {c : Core} (hstop : ∀ o c, Steady c0 c → Steady c0 (stop o c)) (hok : Steady c0 c) : Steady c0 (markerChanged stop lcn c) := by
  unfold markerChanged
  try dsimp only
  with_reducible repeat' first
    | assumption
    | apply hstop
    | (refine foldl_steady ?_ ?_)
    | apply judgeExtended_steady
    | intro _

theorem removeMarkers_steady {stop : Output → Core → Core} {p : Marker → Bool} {c : Core} (hstop : ∀ o c, Steady c0 c → Steady c0 (stop o c)) (hok : Steady c0 c) : Steady c0 (removeMarkers stop p c) := by
  unfold removeMarkers
  try dsimp only
  with_reducible repeat' first
    | assumption
    | apply hstop
    | (refine foldl_steady ?_ ?_)
    | apply markerChanged_steady
    | intro _
    | (refine guide_steady ?_)

theorem carrierUnlocked_steady {stop : Output → Core → Core} {x : Option Carrier} {c : Core} (hstop : ∀ o c, Steady c0 c → Steady c0 (stop o c)) (hok : Steady c0 c) : Steady c0 (carrierUnlocked stop x c) := by
  unfold carrierUnlocked
  try dsimp only
  with_reducible repeat' first
    | assumption
    | apply hstop
    | apply testPresent_steady
    | apply removeMarkers_steady
    | split

theorem handLeft_steady {stop : Output → Core → Core} {t : Fin 4} {u : Tuner} {c : Core} (hstop : ∀ o c, Steady c0 c → Steady c0 (stop o c)) (hok : Steady c0 c) : Steady c0 (handLeft stop t u c) := by
  unfold handLeft
  try dsimp only
  with_reducible repeat' first
    | assumption
    | apply hstop
    | (refine ite_steady ?_ ?_)
    | apply setLaneMap_steady
    | apply closeTunerSlots_steady
    | apply settleControl_steady
    | apply watchTest_steady
    | apply carrierUnlocked_steady

theorem goOff_steady {stop : Output → Core → Core} {t : Fin 4} {c : Core} (hstop : ∀ o c, Steady c0 c → Steady c0 (stop o c)) (hok : Steady c0 c) : Steady c0 (goOff stop t c) := by
  unfold goOff
  try dsimp only
  with_reducible repeat' first
    | assumption
    | apply hstop
    | apply turnOff_steady
    | apply handLeft_steady

theorem releaseFrom_steady {stop : Output → Core → Core} {x : Claimant} {t : Fin 4} {c : Core} (hstop : ∀ o c, Steady c0 c → Steady c0 (stop o c)) (hok : Steady c0 c) : Steady c0 (releaseFrom stop x t c) := by
  unfold releaseFrom
  try dsimp only
  with_reducible repeat' first
    | assumption
    | apply hstop
    | (refine ite_steady ?_ ?_)
    | apply setHolder_steady
    | apply goOff_steady

theorem releaseWith_steady {stop : Output → Core → Core} {x : Claimant} {c : Core} (hstop : ∀ o c, Steady c0 c → Steady c0 (stop o c)) (hok : Steady c0 c) : Steady c0 (releaseWith stop x c) := by
  unfold releaseWith
  try dsimp only
  with_reducible repeat' first
    | assumption
    | apply hstop
    | apply releaseFrom_steady
    | split

theorem handStop_steady {origin : Origin} {c : Core} (hok : Steady c0 c) : Steady c0 (handStop origin c) := by
  unfold handStop
  try dsimp only
  with_reducible repeat' first
    | assumption
    | apply bookingOutcome_steady
    | split

theorem stopBody_steady {rel : Claimant → Core → Core} {o : Output} {c : Core} (hrel : ∀ o c, Steady c0 c → Steady c0 (rel o c)) (hok : Steady c0 c) : Steady c0 (stopBody rel o c) := by
  unfold stopBody
  try dsimp only
  with_reducible repeat' first
    | assumption
    | apply hrel
    | (refine ite_steady ?_ ?_)
    | apply setSession_steady
    | apply post_steady
    | apply unbindKey_steady
    | apply postSession_steady
    | apply handStop_steady

theorem stopN_steady (n : Nat) : ∀ (o : Output) (c : Core), Steady c0 c → Steady c0 (stopN n o c) := by
  induction n with
  | zero => exact fun _ _ h => h
  | succ n ih =>
    intro o c h
    exact stopBody_steady (fun x c hc => releaseWith_steady ih hc) h

theorem stopSession_steady {o : Output} {c : Core} (h : Steady c0 c) : Steady c0 (stopSession o c) := stopN_steady 33 o c h

theorem release_steady {x : Claimant} {c : Core} (h : Steady c0 c) : Steady c0 (release x c) :=
  releaseWith_steady (fun o c hc => stopN_steady 33 o c hc) h

theorem watchEnds_steady {c : Core} (hok : Steady c0 c) : Steady c0 (watchEnds c) := by
  unfold watchEnds
  try dsimp only
  with_reducible repeat' first
    | assumption
    | apply release_steady
    | apply stopHold_steady

theorem watchFailed_steady {c : Core} (hok : Steady c0 c) : Steady c0 (watchFailed c) := by
  unfold watchFailed
  try dsimp only
  with_reducible repeat' first
    | assumption
    | apply startHold_steady

theorem closeSchedule_steady {c : Core} (hok : Steady c0 c) : Steady c0 (closeSchedule c) := by
  unfold closeSchedule
  try dsimp only
  with_reducible repeat' first
    | assumption
    | apply closeWhere_steady

theorem endSweep_steady {c : Core} (hok : Steady c0 c) : Steady c0 (endSweep c) := by
  unfold endSweep
  try dsimp only
  with_reducible repeat' first
    | assumption
    | apply release_steady
    | apply closeSchedule_steady
    | (refine guide_steady ?_)

theorem openSchedule_steady {t : Fin 4} {c : Core} (hok : Steady c0 c) : Steady c0 (openSchedule t c) := by
  unfold openSchedule
  try dsimp only
  with_reducible repeat' first
    | assumption
    | apply openFilter_steady

theorem sweepLocked_steady {t : Fin 4} {c : Core} (hok : Steady c0 c) : Steady c0 (sweepLocked t c) := by
  unfold sweepLocked
  try dsimp only
  with_reducible repeat' first
    | assumption
    | (refine ite_steady ?_ ?_)
    | apply openSchedule_steady
    | (refine guide_steady ?_)

theorem holdTerminal_steady {o : Output} {r : Reasons} {outcome : ChangeOutcome} {reasons : Option Reasons} {c : Core} (hok : Steady c0 c) : Steady c0 (holdTerminal o r outcome reasons c) := by
  unfold holdTerminal
  try dsimp only
  with_reducible repeat' first
    | assumption
    | (refine ite_steady ?_ ?_)
    | apply setSession_steady
    | apply release_steady
    | apply unbindKey_steady
    | apply endChange_steady
    | apply postSession_steady

theorem loseService_steady {o : Output} {c : Core} (hok : Steady c0 c) : Steady c0 (loseService o c) := by
  unfold loseService
  try dsimp only
  with_reducible repeat' first
    | assumption
    | apply holdTerminal_steady

theorem tellTaken_steady {c : Core} {x : Claimant} (hok : Steady c0 c) : Steady c0 (tellTaken c x) := by
  unfold tellTaken
  try dsimp only
  with_reducible repeat' first
    | assumption
    | apply watchFailed_steady
    | apply endSweep_steady
    | apply holdTerminal_steady
    | split

theorem tellNoSignal_steady {c : Core} {x : Claimant} (hok : Steady c0 c) : Steady c0 (tellNoSignal c x) := by
  unfold tellNoSignal
  try dsimp only
  with_reducible repeat' first
    | assumption
    | apply setSession_steady
    | apply unbindKey_steady
    | apply endChange_steady
    | apply watchFailed_steady
    | apply endSweep_steady
    | split

theorem leaveOld_steady {x : Claimant} {old : Option (Fin 4)} {t : Fin 4} {c : Core} (hok : Steady c0 c) : Steady c0 (leaveOld x old t c) := by
  unfold leaveOld
  try dsimp only
  with_reducible repeat' first
    | assumption
    | (refine ite_steady ?_ ?_)
    | apply stopSession_steady
    | apply releaseFrom_steady
    | split

theorem carryOut_steady {x : Claimant} {car : Carrier} {p : Plan} {c : Core} (hok : Steady c0 c) : Steady c0 (carryOut x car p c) := by
  unfold carryOut
  try dsimp only
  with_reducible repeat' first
    | assumption
    | (refine ite_steady ?_ ?_)
    | (refine foldl_steady ?_ ?_)
    | apply stopSession_steady
    | apply tune_steady
    | apply setHolder_steady
    | apply handLeft_steady
    | apply watchEnds_steady
    | apply tellTaken_steady
    | apply leaveOld_steady
    | intro _
    | split

theorem watchReclaim_steady {c : Core} (hok : Steady c0 c) : Steady c0 (watchReclaim c) := by
  unfold watchReclaim
  try dsimp only
  with_reducible repeat' first
    | assumption
    | apply release_steady
    | apply startHold_steady
    | apply watchTest_steady
    | apply carryOut_steady
    | split

theorem toldLocked_steady {t : Fin 4} {c : Core} (hok : Steady c0 c) : Steady c0 (toldLocked t c) := by
  unfold toldLocked
  try dsimp only
  with_reducible repeat' first
    | assumption
    | (refine ite_steady ?_ ?_)
    | apply watchEnds_steady

theorem sessionLocked_steady {t : Fin 4} {c : Core} {o : Output} (hok : Steady c0 c) : Steady c0 (sessionLocked t c o) := by
  unfold sessionLocked
  try dsimp only
  with_reducible repeat' first
    | assumption
    | (refine ite_steady ?_ ?_)
    | apply setSession_steady
    | apply tryChecking_steady

theorem acquired_steady {t : Fin 4} {c : Core} (hok : Steady c0 c) : Steady c0 (acquired t c) := by
  unfold acquired
  try dsimp only
  with_reducible repeat' first
    | assumption
    | (refine ite_steady ?_ ?_)
    | (refine foldl_steady ?_ ?_)
    | apply setTuner_steady
    | apply openFilter_steady
    | apply settleControl_steady
    | apply sweepLocked_steady
    | apply toldLocked_steady
    | apply sessionLocked_steady

theorem regained_steady {t : Fin 4} {c : Core} (hok : Steady c0 c) : Steady c0 (regained t c) := by
  unfold regained
  try dsimp only
  with_reducible repeat' first
    | assumption
    | (refine foldl_steady ?_ ?_)
    | apply setTuner_steady
    | apply settleControl_steady
    | apply signalRegained_steady
    | apply toldLocked_steady
    | intro _

theorem lost_steady {t : Fin 4} {c : Core} (hok : Steady c0 c) : Steady c0 (lost t c) := by
  unfold lost
  try dsimp only
  with_reducible repeat' first
    | assumption
    | (refine ite_steady ?_ ?_)
    | (refine foldl_steady ?_ ?_)
    | apply setTuner_steady
    | apply stopSession_steady
    | apply settleControl_steady
    | apply discardAssembly_steady
    | apply signalLost_steady
    | apply watchTest_steady
    | apply carrierUnlocked_steady
    | intro _

theorem lockReport_steady {t : Fin 4} {count : BitVec 4} {c : Core} (hok : Steady c0 c) : Steady c0 (lockReport t count c) := by
  unfold lockReport
  try dsimp only
  with_reducible repeat' first
    | assumption
    | (refine ite_steady ?_ ?_)
    | apply acquired_steady
    | apply regained_steady
    | split

theorem lossReport_steady {t : Fin 4} {count : BitVec 4} {c : Core} (hok : Steady c0 c) : Steady c0 (lossReport t count c) := by
  unfold lossReport
  try dsimp only
  with_reducible repeat' first
    | assumption
    | (refine ite_steady ?_ ?_)
    | apply lost_steady

theorem acquisitionFailed_steady {t : Fin 4} {c : Core} (hok : Steady c0 c) : Steady c0 (acquisitionFailed t c) := by
  unfold acquisitionFailed
  try dsimp only
  with_reducible repeat' first
    | assumption
    | (refine ite_steady ?_ ?_)
    | (refine foldl_steady ?_ ?_)
    | apply stopSession_steady
    | apply turnOff_steady
    | apply handLeft_steady
    | apply tellNoSignal_steady

theorem lossTimerExpired_steady {t : Fin 4} {c : Core} (hok : Steady c0 c) : Steady c0 (lossTimerExpired t c) := by
  unfold lossTimerExpired
  try dsimp only
  with_reducible repeat' first
    | assumption
    | (refine ite_steady ?_ ?_)
    | apply setTuner_steady
    | apply post_steady

theorem holdExpired_steady {c : Core} (hok : Steady c0 c) : Steady c0 (holdExpired c) := by
  unfold holdExpired
  try dsimp only
  with_reducible repeat' first
    | assumption
    | (refine ite_steady ?_ ?_)
    | apply watchTest_steady
    | (refine clock_steady ?_)

theorem claimFor_steady {o : Output} {lcn : Nat} {x : Carrier} {tag : ChangeTag} {origin : Origin} {m : ClaimMode} {refusedBy : Core → Core} {c : Core} (hrefusedBy : ∀ c, Steady c0 c → Steady c0 (refusedBy c)) (hok : Steady c0 c) : Steady c0 (claimFor o lcn x tag origin m refusedBy c) := by
  unfold claimFor
  try dsimp only
  with_reducible repeat' first
    | assumption
    | apply hrefusedBy
    | (refine ite_steady ?_ ?_)
    | apply setSession_steady
    | apply tryChecking_steady
    | apply carryOut_steady
    | split

theorem toIdle_steady {o : Output} {c : Core} (hok : Steady c0 c) : Steady c0 (toIdle o c) := by
  unfold toIdle
  try dsimp only
  with_reducible repeat' first
    | assumption
    | apply setSession_steady
    | apply release_steady
    | apply unbindKey_steady

theorem changeRefused_steady {o : Output} {lcn : Nat} {tag : ChangeTag} {origin : Origin} {superseded : Bool} {c : Core} (hok : Steady c0 c) : Steady c0 (changeRefused o lcn tag origin superseded c) := by
  unfold changeRefused
  try dsimp only
  with_reducible repeat' first
    | assumption
    | (refine ite_steady ?_ ?_)
    | apply endChange_steady
    | apply toIdle_steady

theorem supersede_steady {o : Output} {c : Core} (hok : Steady c0 c) : Steady c0 (supersede o c) := by
  unfold supersede
  try dsimp only
  with_reducible repeat' first
    | assumption
    | (refine ite_steady ?_ ?_)
    | apply setSession_steady
    | apply endChange_steady

theorem beginChange_steady {o : Output} {lcn : Nat} {e : ChannelEntry} {tag : ChangeTag} {origin : Origin} {m : ClaimMode} {superseded : Bool} {c : Core} (hok : Steady c0 c) : Steady c0 (beginChange o lcn e tag origin m superseded c) := by
  unfold beginChange
  try dsimp only
  with_reducible repeat' first
    | assumption
    | apply setSession_steady
    | apply loseService_steady
    | apply claimFor_steady
    | apply changeRefused_steady
    | split

theorem select_steady {o : Output} {lcn : Nat} {e : ChannelEntry} {tag : ChangeTag} {origin : Origin} {m : ClaimMode} {c : Core} (hok : Steady c0 c) : Steady c0 (select o lcn e tag origin m c) := by
  unfold select
  try dsimp only
  with_reducible repeat' first
    | assumption
    | apply supersede_steady
    | apply beginChange_steady

theorem endGrant_steady {o : Output} {c : Core} (hok : Steady c0 c) : Steady c0 (endGrant o c) := by
  unfold endGrant
  try dsimp only
  with_reducible repeat' first
    | assumption
    | apply setContext_steady
    | split

theorem laneEntryChanged_steady {t : Fin 4} {e : LaneEntry} {c : Core} {o : Output} (hok : Steady c0 c) : Steady c0 (laneEntryChanged t e c o) := by
  unfold laneEntryChanged
  try dsimp only
  with_reducible repeat' first
    | assumption
    | (refine ite_steady ?_ ?_)
    | apply setSession_steady
    | apply bindService_steady
    | apply enterChecking_steady
    | apply reevaluate_steady

theorem laneEntryRemoved_steady {t : Fin 4} {n : Nat} {c : Core} {o : Output} (hok : Steady c0 c) : Steady c0 (laneEntryRemoved t n c o) := by
  unfold laneEntryRemoved
  try dsimp only
  with_reducible repeat' first
    | assumption
    | (refine ite_steady ?_ ?_)
    | apply setSession_steady
    | apply postSession_steady

theorem takeLaneEntry_steady {t : Fin 4} {version : Nat} {c : Core} {e : LaneEntry} (hok : Steady c0 c) : Steady c0 (takeLaneEntry t version c e) := by
  unfold takeLaneEntry
  try dsimp only
  with_reducible repeat' first
    | assumption
    | (refine ite_steady ?_ ?_)
    | (refine foldl_steady ?_ ?_)
    | apply setLaneMap_steady
    | apply laneEntryChanged_steady

theorem completeLaneMap_steady {t : Fin 4} {version : Nat} {c : Core} (hok : Steady c0 c) : Steady c0 (completeLaneMap t version c) := by
  unfold completeLaneMap
  try dsimp only
  with_reducible repeat' first
    | assumption
    | (refine foldl_steady ?_ ?_)
    | apply setLaneMap_steady
    | apply laneEntryRemoved_steady
    | intro _

theorem takeLaneMap_steady {t : Fin 4} {h : SegmentHeader} {entries : List LaneEntry} {c : Core} (hok : Steady c0 c) : Steady c0 (takeLaneMap t h entries c) := by
  unfold takeLaneMap
  try dsimp only
  with_reducible repeat' first
    | assumption
    | (refine ite_steady ?_ ?_)
    | (refine foldl_steady ?_ ?_)
    | apply setLaneMap_steady
    | apply takeLaneEntry_steady
    | apply completeLaneMap_steady

theorem moveSession_steady {o : Output} {old : Carrier} {new : Carrier} {c : Core} (hok : Steady c0 c) : Steady c0 (moveSession o old new c) := by
  unfold moveSession
  try dsimp only
  with_reducible repeat' first
    | assumption
    | (refine ite_steady ?_ ?_)
    | apply post_steady
    | apply endChange_steady
    | apply claimFor_steady
    | apply toIdle_steady
    | intro _
    | split

theorem renumberSession_steady {o : Output} {c : Core} (hok : Steady c0 c) : Steady c0 (renumberSession o c) := by
  unfold renumberSession
  try dsimp only
  with_reducible repeat' first
    | assumption
    | apply setSession_steady
    | apply tryChecking_steady
    | apply reopen_steady
    | split

theorem reportSession_steady {cls : Nat → ChangeClass × Option Carrier × Option Carrier} {c : Core} {o : Output} (hok : Steady c0 c) : Steady c0 (reportSession cls c o) := by
  unfold reportSession
  try dsimp only
  with_reducible repeat' first
    | assumption
    | (refine ite_steady ?_ ?_)
    | apply loseService_steady
    | apply moveSession_steady
    | apply renumberSession_steady
    | split

theorem reportToSessions_steady {cls : Nat → ChangeClass × Option Carrier × Option Carrier} {c : Core} (hok : Steady c0 c) : Steady c0 (reportToSessions cls c) := by
  unfold reportToSessions
  try dsimp only
  with_reducible repeat' first
    | assumption
    | (refine foldl_steady ?_ ?_)
    | apply reevaluate_steady
    | apply reportSession_steady

theorem laneWaitExpired_steady {o : Output} {c : Core} (hok : Steady c0 c) : Steady c0 (laneWaitExpired o c) := by
  unfold laneWaitExpired
  try dsimp only
  with_reducible repeat' first
    | assumption
    | (refine ite_steady ?_ ?_)
    | apply setSession_steady
    | apply loseService_steady

theorem keyWaitExpired_steady {o : Output} {c : Core} (hok : Steady c0 c) : Steady c0 (keyWaitExpired o c) := by
  unfold keyWaitExpired
  try dsimp only
  with_reducible repeat' first
    | assumption
    | (refine ite_steady ?_ ?_)
    | apply setSession_steady
    | apply arrive_steady

theorem setEvents_steady {l : List EventGrant} {c : Core} (hok : Steady c0 c) : Steady c0 (setEvents l c) := by
  unfold setEvents
  try dsimp only
  with_reducible repeat' first
    | assumption
    | (refine access_steady ?_)

theorem setPackages_steady {l : List PackageGrant} {c : Core} (hok : Steady c0 c) : Steady c0 (setPackages l c) := by
  unfold setPackages
  try dsimp only
  with_reducible repeat' first
    | assumption
    | (refine access_steady ?_)

theorem commitGroup_steady {credit : Bool} {c : Core} (hok : Steady c0 c) : Steady c0 (commitGroup credit c) := by
  unfold commitGroup
  try dsimp only
  with_reducible repeat' first
    | assumption
    | exact offer_steady (by assumption) (by assumption)
    | apply offer_steady (by assumption)
    | split
    | (refine access_steady ?_)

theorem postGrants_steady {cause : GrantsCause} {c : Core} (hok : Steady c0 c) : Steady c0 (postGrants cause c) := by
  unfold postGrants
  try dsimp only
  with_reducible repeat' first
    | assumption
    | apply post_steady

theorem expireEvents_steady {now : Nat} {c : Core} (hok : Steady c0 c) : Steady c0 (expireEvents now c) := by
  unfold expireEvents
  try dsimp only
  with_reducible repeat' first
    | assumption
    | (refine ite_steady ?_ ?_)
    | apply reevaluate_steady
    | apply setEvents_steady
    | apply commitGroup_steady
    | apply postGrants_steady

theorem expirePackages_steady {today : Int} {c : Core} (hok : Steady c0 c) : Steady c0 (expirePackages today c) := by
  unfold expirePackages
  try dsimp only
  with_reducible repeat' first
    | assumption
    | (refine ite_steady ?_ ?_)
    | apply reevaluate_steady
    | apply setPackages_steady
    | apply commitGroup_steady
    | apply postGrants_steady

theorem wipeAccess_steady {c : Core} (hok : Steady c0 c) : Steady c0 (wipeAccess c) := by
  unfold wipeAccess
  try dsimp only
  with_reducible repeat' first
    | assumption
    | apply reevaluate_steady
    | apply postGrants_steady
    | (refine access_steady ?_)

theorem commitLimit_steady {k : LimitCommit} {c : Core} (hok : Steady c0 c) : Steady c0 (commitLimit k c).2 := by
  unfold commitLimit
  try dsimp only
  with_reducible repeat' first
    | assumption
    | apply setLimits_steady
    | exact offer_steady (by assumption) (by assumption)
    | apply offer_steady (by assumption)
    | split

theorem commitLimit_steady' {k : LimitCommit} {c : Core} {ans : OfferAnswer} {c' : Core} (e : commitLimit k c = (ans, c')) (hok : Steady c0 c) : Steady c0 c' := by
  have := commitLimit_steady (k := k) (c := c) hok
  rw [e] at this; exact this

theorem commitLimit'_steady {k : LimitCommit} {c : Core} (hok : Steady c0 c) : Steady c0 (commitLimit' k c) := by
  unfold commitLimit'
  try dsimp only
  with_reducible repeat' first
    | assumption
    | apply commitLimit_steady

theorem pinFailure_steady {c : Core} (hok : Steady c0 c) : Steady c0 (pinFailure c) := by
  unfold pinFailure
  try dsimp only
  with_reducible repeat' first
    | assumption
    | (refine ite_steady ?_ ?_)
    | apply setLimits_steady
    | apply post_steady
    | apply commitLimit_steady

theorem pinSuccess_steady {c : Core} (hok : Steady c0 c) : Steady c0 (pinSuccess c) := by
  unfold pinSuccess
  try dsimp only
  with_reducible repeat' first
    | assumption
    | (refine ite_steady ?_ ?_)
    | apply setLimits_steady
    | apply commitLimit'_steady

theorem pinCheck_steady {p : Option Pin} {c : Core} (hok : Steady c0 c) : Steady c0 (pinCheck p c).2 := by
  unfold pinCheck
  try dsimp only
  with_reducible repeat' first
    | assumption
    | (refine ite_steady ?_ ?_)
    | apply pinFailure_steady
    | apply pinSuccess_steady
    | (refine ite_steady2 ?_ ?_)
    | split

theorem pinCheck_steady' {p : Option Pin} {c : Core} {ans : PinAnswer} {c' : Core} (e : pinCheck p c = (ans, c')) (hok : Steady c0 c) : Steady c0 c' := by
  have := pinCheck_steady (p := p) (c := c) hok
  rw [e] at this; exact this

theorem lockoutExpired_steady {c : Core} (hok : Steady c0 c) : Steady c0 (lockoutExpired c) := by
  unfold lockoutExpired
  try dsimp only
  with_reducible repeat' first
    | assumption
    | (refine ite_steady ?_ ?_)
    | apply setLimits_steady
    | apply commitLimit'_steady

theorem pinReported_steady {writing : Bool} {c : Core} (hok : Steady c0 c) : Steady c0 (pinReported writing c) := by
  unfold pinReported
  try dsimp only
  with_reducible repeat' first
    | assumption
    | apply setLimits_steady
    | (refine ite_steady ?_ ?_)

theorem relockContext_steady {r : Room} {c : Core} (hok : Steady c0 c) : Steady c0 (relockContext r c) := by
  unfold relockContext
  try dsimp only
  with_reducible repeat' first
    | assumption
    | apply setContext_steady

theorem setDefault_steady {r : Room} {n : Nat} {c : Core} (hok : Steady c0 c) : Steady c0 (setDefault r n c) := by
  unfold setDefault
  try dsimp only
  with_reducible repeat' first
    | assumption
    | apply setContext_steady

theorem restartContexts_steady {c : Core} (hok : Steady c0 c) : Steady c0 (restartContexts c) := by
  unfold restartContexts
  try dsimp only
  with_reducible repeat' first
    | assumption
    | apply setContext_steady

theorem putProfile_steady {n : Nat} {p : Option Profile} {c : Core} (hok : Steady c0 c) : Steady c0 (putProfile n p c) := by
  unfold putProfile
  try dsimp only
  with_reducible repeat' first
    | assumption
    | (refine ite_steady ?_ ?_)
    | apply setLimits_steady
    | split

theorem removeProfile_steady {n : Nat} {c : Core} (hok : Steady c0 c) : Steady c0 (removeProfile n c) := by
  unfold removeProfile
  try dsimp only
  with_reducible repeat' first
    | assumption
    | (refine ite_steady ?_ ?_)
    | apply setContext_steady
    | apply commitLimit'_steady
    | apply putProfile_steady

theorem applyProfile_steady {n : Nat} {f : Option ProfileFields} {c : Core} (hok : Steady c0 c) : Steady c0 (applyProfile n f c) := by
  unfold applyProfile
  try dsimp only
  with_reducible repeat' first
    | assumption
    | (refine ite_steady ?_ ?_)
    | apply reevaluate_steady
    | apply commitLimit'_steady
    | apply putProfile_steady
    | apply removeProfile_steady
    | split

theorem reportToLocks_steady {vanished : Nat → Bool} {c : Core} (hok : Steady c0 c) : Steady c0 (reportToLocks vanished c) := by
  unfold reportToLocks
  try dsimp only
  with_reducible repeat' first
    | assumption
    | (refine ite_steady ?_ ?_)
    | apply setLimits_steady
    | apply commitLimit'_steady

theorem limitMinute_steady {c : Core} (hok : Steady c0 c) : Steady c0 (limitMinute c) := by
  unfold limitMinute
  try dsimp only
  with_reducible repeat' first
    | assumption
    | (refine ite_steady ?_ ?_)
    | apply reevaluate_steady
    | intro _
    | split

theorem limitClockChanged_steady {c : Core} (hok : Steady c0 c) : Steady c0 (limitClockChanged c) := by
  unfold limitClockChanged
  try dsimp only
  with_reducible repeat' first
    | assumption
    | (refine ite_steady ?_ ?_)
    | apply reevaluate_steady

theorem charge_steady {c : Core} {n : Nat} (hok : Steady c0 c) : Steady c0 (charge c n) := by
  unfold charge
  try dsimp only
  with_reducible repeat' first
    | assumption
    | (refine ite_steady ?_ ?_)
    | apply post_steady
    | apply reevaluate_steady
    | apply commitLimit'_steady
    | apply putProfile_steady
    | split

theorem allowanceMinute_steady {c : Core} (hok : Steady c0 c) : Steady c0 (allowanceMinute c) := by
  unfold allowanceMinute
  try dsimp only
  with_reducible repeat' first
    | assumption
    | (refine ite_steady ?_ ?_)
    | (refine foldl_steady ?_ ?_)
    | apply setLimits_steady
    | apply charge_steady

theorem limitRollover_steady {c : Core} (hok : Steady c0 c) : Steady c0 (limitRollover c) := by
  unfold limitRollover
  try dsimp only
  with_reducible repeat' first
    | assumption
    | apply setLimits_steady
    | apply reevaluate_steady
    | apply commitLimit'_steady

theorem wipeLimits_steady {c : Core} (hok : Steady c0 c) : Steady c0 (wipeLimits c) := by
  unfold wipeLimits
  try dsimp only
  with_reducible repeat' first
    | assumption
    | apply setContext_steady
    | apply setLimits_steady
    | apply reevaluate_steady

theorem startReportTimer_steady {c : Core} (hok : Steady c0 c) : Steady c0 (startReportTimer c) := by
  unfold startReportTimer
  try dsimp only
  with_reducible repeat' first
    | assumption
    | (refine ite_steady ?_ ?_)
    | apply setUplinkState_steady

theorem stopReportTimer_steady {c : Core} (hok : Steady c0 c) : Steady c0 (stopReportTimer c) := by
  unfold stopReportTimer
  try dsimp only
  with_reducible repeat' first
    | assumption
    | apply setUplinkState_steady

theorem becameUnreported_steady {before : Nat} {c : Core} (hok : Steady c0 c) : Steady c0 (becameUnreported before c) := by
  unfold becameUnreported
  try dsimp only
  with_reducible repeat' first
    | assumption
    | (refine ite_steady ?_ ?_)
    | apply startReportTimer_steady

theorem stopIfReported_steady {c : Core} (hok : Steady c0 c) : Steady c0 (stopIfReported c) := by
  unfold stopIfReported
  try dsimp only
  with_reducible repeat' first
    | assumption
    | (refine ite_steady ?_ ?_)
    | apply stopReportTimer_steady

theorem handReport_steady {records : List PurchaseRecord} {parity : Bool} {c : Core} (hok : Steady c0 c) : Steady c0 (handReport records parity c) := by
  unfold handReport
  try dsimp only
  with_reducible repeat' first
    | assumption
    | apply setUplinkState_steady

theorem sendReport_steady {c : Core} (hok : Steady c0 c) : Steady c0 (sendReport c) := by
  unfold sendReport
  try dsimp only
  with_reducible repeat' first
    | assumption
    | apply setUplinkState_steady
    | apply handReport_steady

theorem dueTest_steady {c : Core} (hok : Steady c0 c) : Steady c0 (dueTest c) := by
  unfold dueTest
  try dsimp only
  with_reducible repeat' first
    | assumption
    | (refine ite_steady ?_ ?_)
    | apply setUplinkState_steady
    | apply sendReport_steady

theorem commitLogAck_steady {c : Core} (hok : Steady c0 c) : Steady c0 (commitLogAck c) := by
  unfold commitLogAck
  try dsimp only
  with_reducible repeat' first
    | assumption
    | apply setPurchase_steady
    | exact offer_steady (by assumption) (by assumption)
    | apply offer_steady (by assumption)
    | split

theorem acknowledged_steady {c : Core} (hok : Steady c0 c) : Steady c0 (acknowledged c) := by
  unfold acknowledged
  try dsimp only
  with_reducible repeat' first
    | assumption
    | apply setUplinkState_steady

theorem markReported_steady {b : Bool} {c : Core} (hok : Steady c0 c) : Steady c0 (markReported b c) := by
  unfold markReported
  try dsimp only
  with_reducible repeat' first
    | assumption
    | (refine ite_steady ?_ ?_)
    | apply setPurchase_steady

theorem failure_steady {c : Core} (hok : Steady c0 c) : Steady c0 (failure c) := by
  unfold failure
  try dsimp only
  with_reducible repeat' first
    | assumption
    | (refine ite_steady ?_ ?_)
    | apply setUplinkState_steady
    | apply post_steady
    | apply release_steady
    | apply becameUnreported_steady
    | apply markReported_steady

theorem testRecovery_steady {c : Core} (hok : Steady c0 c) : Steady c0 (testRecovery c) := by
  unfold testRecovery
  try dsimp only
  with_reducible repeat' first
    | assumption
    | (refine ite_steady ?_ ?_)
    | apply setUplinkState_steady
    | apply post_steady
    | apply release_steady
    | apply dueTest_steady

theorem reportTimerSent_steady {c : Core} (hok : Steady c0 c) : Steady c0 (reportTimerSent c) := by
  unfold reportTimerSent
  try dsimp only
  with_reducible repeat' first
    | assumption
    | (refine ite_steady ?_ ?_)
    | apply stopReportTimer_steady
    | apply startReportTimer_steady

theorem answerSent_steady {c : Core} (hok : Steady c0 c) : Steady c0 (answerSent c) := by
  unfold answerSent
  try dsimp only
  with_reducible repeat' first
    | assumption
    | (refine ite_steady ?_ ?_)
    | apply setUplinkState_steady
    | apply startReportTimer_steady
    | apply stopReportTimer_steady
    | apply dueTest_steady
    | apply commitLogAck_steady
    | apply acknowledged_steady
    | apply markReported_steady
    | apply reportTimerSent_steady

theorem modemAnswer_steady {attempt : Byte} {answer : Byte} {c : Core} (hok : Steady c0 c) : Steady c0 (modemAnswer attempt answer c) := by
  unfold modemAnswer
  try dsimp only
  with_reducible repeat' first
    | assumption
    | (refine ite_steady ?_ ?_)
    | apply setUplinkState_steady
    | apply failure_steady
    | apply answerSent_steady
    | split

theorem answerWaitExpired_steady {c : Core} (hok : Steady c0 c) : Steady c0 (answerWaitExpired c) := by
  unfold answerWaitExpired
  try dsimp only
  with_reducible repeat' first
    | assumption
    | (refine ite_steady ?_ ?_)
    | apply setUplinkState_steady
    | apply failure_steady

theorem retryExpired_steady {c : Core} (hok : Steady c0 c) : Steady c0 (retryExpired c) := by
  unfold retryExpired
  try dsimp only
  with_reducible repeat' first
    | assumption
    | (refine ite_steady ?_ ?_)
    | apply setUplinkState_steady
    | apply handReport_steady
    | split

theorem ackWaitExpired_steady {c : Core} (hok : Steady c0 c) : Steady c0 (ackWaitExpired c) := by
  unfold ackWaitExpired
  try dsimp only
  with_reducible repeat' first
    | assumption
    | (refine ite_steady ?_ ?_)
    | apply setUplinkState_steady
    | apply failure_steady

theorem backoffExpired_steady {c : Core} (hok : Steady c0 c) : Steady c0 (backoffExpired c) := by
  unfold backoffExpired
  try dsimp only
  with_reducible repeat' first
    | assumption
    | (refine ite_steady ?_ ?_)
    | apply setUplinkState_steady
    | apply dueTest_steady

theorem quietExpired_steady {c : Core} (hok : Steady c0 c) : Steady c0 (quietExpired c) := by
  unfold quietExpired
  try dsimp only
  with_reducible repeat' first
    | assumption
    | (refine ite_steady ?_ ?_)
    | apply setUplinkState_steady
    | apply testRecovery_steady

theorem reportTimerExpired_steady {c : Core} (hok : Steady c0 c) : Steady c0 (reportTimerExpired c) := by
  unfold reportTimerExpired
  try dsimp only
  with_reducible repeat' first
    | assumption
    | (refine ite_steady ?_ ?_)
    | apply setUplinkState_steady
    | apply dueTest_steady

theorem applyUplink_steady {m : Recovery} {interval : Nat} {c : Core} (hok : Steady c0 c) : Steady c0 (applyUplink m interval c) := by
  unfold applyUplink
  try dsimp only
  with_reducible repeat' first
    | assumption
    | (refine ite_steady ?_ ?_)
    | apply setUplinkState_steady
    | apply startReportTimer_steady
    | apply stopReportTimer_steady
    | apply testRecovery_steady

theorem creditLimit_steady {n : Nat} {c : Core} (hok : Steady c0 c) : Steady c0 (creditLimit n c) := by
  unfold creditLimit
  try dsimp only
  with_reducible repeat' first
    | assumption
    | apply setPurchase_steady

theorem creditTopUp_steady {n : Nat} {c : Core} (hok : Steady c0 c) : Steady c0 (creditTopUp n c) := by
  unfold creditTopUp
  try dsimp only
  with_reducible repeat' first
    | assumption
    | apply setPurchase_steady

theorem logPurchase_steady {f : InFlight} {c : Core} (hok : Steady c0 c) : Steady c0 (logPurchase f c) := by
  unfold logPurchase
  try dsimp only
  with_reducible repeat' first
    | assumption
    | apply setPurchase_steady

theorem completePurchase_steady {f : InFlight} {c : Core} (hok : Steady c0 c) : Steady c0 (completePurchase f c) := by
  unfold completePurchase
  try dsimp only
  with_reducible repeat' first
    | assumption
    | apply setPurchase_steady
    | apply post_steady
    | apply reevaluate_steady
    | apply setEvents_steady
    | apply commitGroup_steady
    | apply becameUnreported_steady
    | apply dueTest_steady
    | apply logPurchase_steady

theorem purchaseWritten_steady {c : Core} (hok : Steady c0 c) : Steady c0 (purchaseWritten c) := by
  unfold purchaseWritten
  try dsimp only
  with_reducible repeat' first
    | assumption
    | apply completePurchase_steady
    | split

theorem purchaseFailed_steady {c : Core} (hok : Steady c0 c) : Steady c0 (purchaseFailed c) := by
  unfold purchaseFailed
  try dsimp only
  with_reducible repeat' first
    | assumption
    | apply setPurchase_steady
    | apply post_steady
    | split

theorem purchaseAck_steady {s : Seq} {c : Core} (hok : Steady c0 c) : Steady c0 (purchaseAck s c) := by
  unfold purchaseAck
  try dsimp only
  with_reducible repeat' first
    | assumption
    | (refine ite_steady ?_ ?_)
    | apply setPurchase_steady
    | apply stopIfReported_steady
    | apply dueTest_steady
    | apply commitLogAck_steady
    | apply acknowledged_steady

theorem wipePurchases_steady {c : Core} (hok : Steady c0 c) : Steady c0 (wipePurchases c) := by
  unfold wipePurchases
  try dsimp only
  with_reducible repeat' first
    | assumption
    | apply setUplinkState_steady
    | apply setPurchase_steady
    | apply testRecovery_steady

theorem setRecords_steady {l : List EventRecord} {c : Core} (hok : Steady c0 c) : Steady c0 (setRecords l c) := by
  unfold setRecords
  try dsimp only
  with_reducible repeat' first
    | assumption
    | apply setGuide_steady

theorem followRecord_steady {r : EventRecord} {c : Core} {id : Nat} (hok : Steady c0 c) : Steady c0 (followRecord r c id) := by
  unfold followRecord
  try dsimp only
  with_reducible repeat' first
    | assumption
    | (refine ite_steady ?_ ?_)
    | apply setBooking_steady
    | apply commitBooking_steady
    | split

theorem recordInserted_steady {r : EventRecord} {c : Core} (hok : Steady c0 c) : Steady c0 (recordInserted r c) := by
  unfold recordInserted
  try dsimp only
  with_reducible repeat' first
    | assumption
    | (refine foldl_steady ?_ ?_)
    | apply followRecord_steady

theorem insertRecord_steady {n : EventRecord} {c : Core} (hok : Steady c0 c) : Steady c0 (insertRecord n c) := by
  unfold insertRecord
  try dsimp only
  with_reducible repeat' first
    | assumption
    | (refine ite_steady ?_ ?_)
    | apply setRecords_steady
    | apply recordInserted_steady
    | intro _
    | split

theorem offerRecord_steady {s : Source} {c : Core} {r : OfferedRecord} (hok : Steady c0 c) : Steady c0 (offerRecord s c r) := by
  unfold offerRecord
  try dsimp only
  with_reducible repeat' first
    | assumption
    | (refine ite_steady ?_ ?_)
    | apply insertRecord_steady

theorem minutePurge_steady {c : Core} (hok : Steady c0 c) : Steady c0 (minutePurge c) := by
  unfold minutePurge
  try dsimp only
  with_reducible repeat' first
    | assumption
    | apply setRecords_steady
    | intro _
    | split

theorem setBlock_steady {k : Fin 8} {x : BlockState} {c : Core} (hok : Steady c0 c) : Steady c0 (setBlock k x c) := by
  unfold setBlock
  try dsimp only
  with_reducible repeat' first
    | assumption
    | apply setGuide_steady

theorem completeSweep_steady {c : Core} (hok : Steady c0 c) : Steady c0 (completeSweep c) := by
  unfold completeSweep
  try dsimp only
  with_reducible repeat' first
    | assumption
    | apply setGuide_steady
    | apply post_steady
    | apply release_steady
    | apply closeSchedule_steady

theorem completeBlock_steady {k : Fin 8} {version : Nat} {c : Core} (hok : Steady c0 c) : Steady c0 (completeBlock k version c) := by
  unfold completeBlock
  try dsimp only
  with_reducible repeat' first
    | assumption
    | (refine ite_steady ?_ ?_)
    | apply testPresent_steady
    | apply setRecords_steady
    | apply setBlock_steady
    | apply completeSweep_steady

theorem takeSchedule_steady {h : SegmentHeader} {rs : List OfferedRecord} {c : Core} (hok : Steady c0 c) : Steady c0 (takeSchedule h rs c) := by
  unfold takeSchedule
  try dsimp only
  with_reducible repeat' first
    | assumption
    | (refine ite_steady ?_ ?_)
    | (refine foldl_steady ?_ ?_)
    | apply testPresent_steady
    | apply offerRecord_steady
    | apply setBlock_steady
    | apply completeBlock_steady
    | intro _
    | split

theorem guideRollover_steady {c : Core} (hok : Steady c0 c) : Steady c0 (guideRollover c) := by
  unfold guideRollover
  try dsimp only
  with_reducible repeat' first
    | assumption
    | apply setGuide_steady

theorem putMarker_steady {m : Marker} {c : Core} (hok : Steady c0 c) : Steady c0 (putMarker m c) := by
  unfold putMarker
  try dsimp only
  with_reducible repeat' first
    | assumption
    | apply setGuide_steady
    | apply stopSession_steady
    | apply markerChanged_steady

theorem takePresentEntry_steady {x : Carrier} {c : Core} {e : PresentNextEntry} (hok : Steady c0 c) : Steady c0 (takePresentEntry x c e) := by
  unfold takePresentEntry
  try dsimp only
  with_reducible repeat' first
    | assumption
    | (refine ite_steady ?_ ?_)
    | apply stopSession_steady
    | apply removeMarkers_steady
    | apply offerRecord_steady
    | apply putMarker_steady
    | split

theorem takePresentNext_steady {t : Fin 4} {es : List PresentNextEntry} {c : Core} (hok : Steady c0 c) : Steady c0 (takePresentNext t es c) := by
  unfold takePresentNext
  try dsimp only
  with_reducible repeat' first
    | assumption
    | (refine foldl_steady ?_ ?_)
    | apply testPresent_steady
    | apply takePresentEntry_steady
    | intro _
    | split

theorem dropUnusedMarkers_steady {c : Core} (hok : Steady c0 c) : Steady c0 (dropUnusedMarkers c) := by
  unfold dropUnusedMarkers
  try dsimp only
  with_reducible repeat' first
    | assumption
    | apply stopSession_steady
    | apply removeMarkers_steady

theorem beginSweep_steady {c : Core} (hok : Steady c0 c) : Steady c0 (beginSweep c) := by
  unfold beginSweep
  try dsimp only
  with_reducible repeat' first
    | assumption
    | (refine ite_steady ?_ ?_)
    | (refine foldl_steady ?_ ?_)
    | apply setGuide_steady
    | apply endSweep_steady
    | apply openSchedule_steady
    | apply carryOut_steady
    | apply setBlock_steady
    | intro _
    | split

theorem sweepTimerExpired_steady {c : Core} (hok : Steady c0 c) : Steady c0 (sweepTimerExpired c) := by
  unfold sweepTimerExpired
  try dsimp only
  with_reducible repeat' first
    | assumption
    | (refine ite_steady ?_ ?_)
    | apply setGuide_steady
    | apply beginSweep_steady

theorem sweepLimitExpired_steady {c : Core} (hok : Steady c0 c) : Steady c0 (sweepLimitExpired c) := by
  unfold sweepLimitExpired
  try dsimp only
  with_reducible repeat' first
    | assumption
    | (refine ite_steady ?_ ?_)
    | apply setGuide_steady
    | apply endSweep_steady

theorem refreshSweep_steady {c : Core} (hok : Steady c0 c) : Steady c0 (refreshSweep c) := by
  unfold refreshSweep
  try dsimp only
  with_reducible repeat' first
    | assumption
    | (refine ite_steady ?_ ?_)
    | apply setGuide_steady
    | apply beginSweep_steady

theorem startAction_steady {b : Booking} {c : Core} (hok : Steady c0 c) : Steady c0 (startAction b c) := by
  unfold startAction
  try dsimp only
  with_reducible repeat' first
    | assumption
    | apply changeBooking_steady
    | apply missBooking_steady
    | apply supersede_steady
    | apply beginChange_steady
    | split

theorem judgeEnd_steady {b : Booking} {now : Nat} {c : Core} (hok : Steady c0 c) : Steady c0 (judgeEnd b now c) := by
  unfold judgeEnd
  try dsimp only
  with_reducible repeat' first
    | assumption
    | (refine ite_steady ?_ ?_)
    | apply stopSession_steady
    | apply changeBooking_steady
    | apply endRecording_steady

theorem judgeRecording_steady {b : Booking} {now : Nat} {c : Core} (hok : Steady c0 c) : Steady c0 (judgeRecording b now c) := by
  unfold judgeRecording
  try dsimp only
  with_reducible repeat' first
    | assumption
    | (refine ite_steady ?_ ?_)
    | apply changeBooking_steady
    | apply missBooking_steady
    | apply assertWake_steady
    | apply startAction_steady
    | apply judgeEnd_steady
    | intro _
    | split

theorem judgeReminder_steady {b : Booking} {now : Nat} {c : Core} (hok : Steady c0 c) : Steady c0 (judgeReminder b now c) := by
  unfold judgeReminder
  try dsimp only
  with_reducible repeat' first
    | assumption
    | (refine ite_steady ?_ ?_)
    | apply setBooking_steady
    | apply post_steady
    | apply commitBooking_steady
    | apply changeBooking_steady
    | apply missBooking_steady
    | apply assertWake_steady
    | intro _
    | split

theorem dropFromList_steady {id : Nat} {c : Core} (hok : Steady c0 c) : Steady c0 (dropFromList id c) := by
  unfold dropFromList
  try dsimp only
  with_reducible repeat' first
    | assumption
    | apply setClock_steady

theorem judgeBooking_steady {now : Nat} {c : Core} {id : Nat} (hok : Steady c0 c) : Steady c0 (judgeBooking now c id) := by
  unfold judgeBooking
  try dsimp only
  with_reducible repeat' first
    | assumption
    | (refine ite_steady ?_ ?_)
    | apply commitBooking_steady
    | apply judgeRecording_steady
    | apply judgeReminder_steady
    | apply dropFromList_steady
    | split

theorem judgeBookings_steady {c : Core} (hok : Steady c0 c) : Steady c0 (judgeBookings c) := by
  unfold judgeBookings
  try dsimp only
  with_reducible repeat' first
    | assumption
    | (refine foldl_steady ?_ ?_)
    | apply judgeBooking_steady
    | intro _
    | split

theorem judgeAlarm_steady {c : Core} (hok : Steady c0 c) : Steady c0 (judgeAlarm c) := by
  unfold judgeAlarm
  try dsimp only
  with_reducible repeat' first
    | assumption
    | (refine ite_steady ?_ ?_)
    | apply setClock_steady
    | apply assertWake_steady
    | intro _
    | split

theorem joinBooking_steady {b : Booking} {c : Core} (hok : Steady c0 c) : Steady c0 (joinBooking b c) := by
  unfold joinBooking
  try dsimp only
  with_reducible repeat' first
    | assumption
    | apply setBooking_steady
    | apply setClock_steady
    | apply judgeBooking_steady
    | split

theorem removeBooking_steady {b : Booking} {c : Core} (hok : Steady c0 c) : Steady c0 (removeBooking b c) := by
  unfold removeBooking
  try dsimp only
  with_reducible repeat' first
    | assumption
    | apply setClock_steady
    | apply stopSession_steady
    | apply dropFromList_steady
    | split

theorem rollover_steady {day : Int} {c : Core} (hok : Steady c0 c) : Steady c0 (rollover day c) := by
  unfold rollover
  try dsimp only
  with_reducible repeat' first
    | assumption
    | apply setClock_steady
    | apply commitLastDay_steady
    | apply expirePackages_steady
    | apply limitRollover_steady
    | apply guideRollover_steady

theorem testRollover_steady {c : Core} (hok : Steady c0 c) : Steady c0 (testRollover c) := by
  unfold testRollover
  try dsimp only
  with_reducible repeat' first
    | assumption
    | (refine ite_steady ?_ ?_)
    | apply rollover_steady
    | split

theorem clockMoved_steady {c : Core} (hok : Steady c0 c) : Steady c0 (clockMoved c) := by
  unfold clockMoved
  try dsimp only
  with_reducible repeat' first
    | assumption
    | apply limitClockChanged_steady
    | apply judgeBookings_steady
    | apply judgeAlarm_steady
    | apply testRollover_steady

theorem offsetChanged_steady {c : Core} (hok : Steady c0 c) : Steady c0 (offsetChanged c) := by
  unfold offsetChanged
  try dsimp only
  with_reducible repeat' first
    | assumption
    | apply limitClockChanged_steady
    | apply testRollover_steady
    | split

theorem setTime_steady {t : Nat} {correction : Option Int} {c : Core} (hok : Steady c0 c) : Steady c0 (setTime t correction c) := by
  unfold setTime
  try dsimp only
  with_reducible repeat' first
    | assumption
    | apply setClock_steady

theorem takeTime_steady {t : Nat} {offset : Option Int} {c : Core} (hok : Steady c0 c) : Steady c0 (takeTime t offset c) := by
  unfold takeTime
  try dsimp only
  with_reducible repeat' first
    | assumption
    | (refine ite_steady ?_ ?_)
    | apply setClock_steady
    | apply post_steady
    | apply clockMoved_steady
    | apply offsetChanged_steady
    | apply setTime_steady
    | intro _
    | split
    | (refine free_steady ?_)

theorem clockSecond_steady {now : Nat} {c : Core} (hok : Steady c0 c) : Steady c0 (clockSecond now c) := by
  unfold clockSecond
  try dsimp only
  with_reducible repeat' first
    | assumption
    | (refine ite_steady ?_ ?_)
    | apply testPresent_steady
    | apply expireEvents_steady
    | apply limitMinute_steady
    | apply minutePurge_steady
    | apply dropUnusedMarkers_steady
    | apply judgeBookings_steady
    | apply judgeAlarm_steady
    | apply testRollover_steady

theorem wakeForDue_steady {c : Core} (hok : Steady c0 c) : Steady c0 (wakeForDue c) := by
  unfold wakeForDue
  try dsimp only
  with_reducible repeat' first
    | assumption
    | (refine ite_steady ?_ ?_)
    | apply assertWake_steady

theorem stopBookingOutput_steady {c : Core} {id : Nat} (hok : Steady c0 c) : Steady c0 (stopBookingOutput c id) := by
  unfold stopBookingOutput
  try dsimp only
  with_reducible repeat' first
    | assumption
    | apply stopSession_steady
    | (refine ite_steady ?_ ?_)
    | split

theorem wipeClock_steady {c : Core} (hok : Steady c0 c) : Steady c0 (wipeClock c) := by
  unfold wipeClock
  try dsimp only
  with_reducible repeat' first
    | assumption
    | (refine foldl_steady ?_ ?_)
    | apply setClock_steady
    | apply commitLastDay_steady
    | apply stopBookingOutput_steady
    | intro _
    | apply commitBooking_steady
    | split

theorem offerIndex_steady {c : Core} {k : Nat} (hok : Steady c0 c) : Steady c0 (offerIndex c k) := by
  unfold offerIndex
  try dsimp only
  with_reducible repeat' first
    | assumption
    | (refine ite_steady ?_ ?_)
    | apply setDir_steady
    | exact offer_steady (by assumption) (by assumption)
    | apply offer_steady (by assumption)
    | split

theorem offerSnapshot_steady {c : Core} (hok : Steady c0 c) : Steady c0 (offerSnapshot c) := by
  unfold offerSnapshot
  try dsimp only
  with_reducible repeat' first
    | assumption
    | (refine foldl_steady ?_ ?_)
    | apply offerIndex_steady

theorem startSnapshot_steady {c : Core} (hok : Steady c0 c) : Steady c0 (startSnapshot c) := by
  unfold startSnapshot
  try dsimp only
  with_reducible repeat' first
    | assumption
    | apply setDir_steady
    | apply offerSnapshot_steady

theorem renumberTuner_steady {c : Core} {t : Fin 4} (hok : Steady c0 c) : Steady c0 (renumberTuner c t) := by
  unfold renumberTuner
  try dsimp only
  with_reducible repeat' first
    | assumption
    | (refine ite_steady ?_ ?_)
    | apply setTuner_steady

theorem swapIn_steady {version : Nat} {area : List AreaPart} {c : Core} (hok : Steady c0 c) : Steady c0 (swapIn version area c) := by
  unfold swapIn
  try dsimp only
  with_reducible repeat' first
    | assumption
    | (refine foldl_steady ?_ ?_)
    | apply setDir_steady
    | apply post_steady
    | apply watchTest_steady
    | apply reportToSessions_steady
    | apply reportToLocks_steady
    | apply startSnapshot_steady
    | apply renumberTuner_steady

theorem abandonAssembly_steady {c : Core} (hok : Steady c0 c) : Steady c0 (abandonAssembly c) := by
  unfold abandonAssembly
  try dsimp only
  with_reducible repeat' first
    | assumption
    | apply setDir_steady

theorem restartAssembly_steady {version : Nat} {last : Nat} {c : Core} (hok : Steady c0 c) : Steady c0 (restartAssembly version last c) := by
  unfold restartAssembly
  try dsimp only
  with_reducible repeat' first
    | assumption
    | apply setDir_steady

theorem joinArea_steady {h : SegmentHeader} {p : AreaPart} {c : Core} (hok : Steady c0 c) : Steady c0 (joinArea h p c) := by
  unfold joinArea
  try dsimp only
  with_reducible repeat' first
    | assumption
    | (refine ite_steady ?_ ?_)
    | apply setDir_steady
    | apply swapIn_steady

theorem takeDirectory_steady {h : SegmentHeader} {guide : Option Nat} {carriers : List CarrierEntry} {channels : List ChannelEntry} {c : Core} (hok : Steady c0 c) : Steady c0 (takeDirectory h guide carriers channels c) := by
  unfold takeDirectory
  try dsimp only
  with_reducible repeat' first
    | assumption
    | (refine ite_steady ?_ ?_)
    | apply abandonAssembly_steady
    | apply restartAssembly_steady
    | apply joinArea_steady

theorem setAcqLimit_steady {n : Nat} {c : Core} (hok : Steady c0 c) : Steady c0 (setAcqLimit n c) := by
  exact ⟨hok.seconds, hok.pages, hok.first, hok.line, hok.running⟩

theorem addEvent_steady {lcn : Nat} {event : Nat} {expiry : Nat} {c : Core} (hok : Steady c0 c) : Steady c0 (addEvent lcn event expiry c) := by
  unfold addEvent
  try dsimp only
  with_reducible repeat' first
    | assumption
    | (refine ite_steady ?_ ?_)
    | apply setEvents_steady
    | intro _
    | split

theorem setCut_steady {b : Bool} {c : Core} (hok : Steady c0 c) : Steady c0 (setCut b c) := by
  unfold setCut
  try dsimp only
  with_reducible repeat' first
    | assumption
    | (refine access_steady ?_)

theorem applyOp_steady {c : Core} {x : GrantOp} (hok : Steady c0 c) : Steady c0 (applyOp c x) := by
  cases x with
  | addPackage => exact setPackages_steady hok
  | dropPackage => exact setPackages_steady hok
  | addEvent => exact addEvent_steady hok
  | creditLimit => exact creditLimit_steady hok
  | creditTopUp => exact creditTopUp_steady hok
  | purchaseAck => exact purchaseAck_steady hok
  | cut => exact setCut_steady hok
  | restore => exact setCut_steady hok
  | unknown => exact hok

theorem setLast_steady {k : Fin 5} {n : Seq} {c : Core} (hok : Steady c0 c) : Steady c0 (setLast k n c) := by
  unfold setLast
  try dsimp only
  with_reducible repeat' first
    | assumption
    | (refine access_steady ?_)

theorem applyBulletin_steady {k : Fin 5} {b : GrantBulletin} {c : Core} (hok : Steady c0 c) : Steady c0 (applyBulletin k b c) := by
  have h1 : Steady c0 (setLast k b.number (b.ops.foldl applyOp c)) :=
    setLast_steady (foldl_steady hok fun _ _ h => applyOp_steady h)
  unfold applyBulletin
  generalize setLast k b.number (b.ops.foldl applyOp c) = d at h1
  dsimp only
  split
  · exact reevaluate_steady (postGrants_steady (commitGroup_steady h1))
  · exact commitGroup_steady h1

theorem setKeyTold_steady {k : Fin 4} {x : KeySlot} {c : Core} (hok : Steady c0 c) : Steady c0 (setKeyTold k x c) := by
  unfold setKeyTold
  try dsimp only
  with_reducible repeat' first
    | assumption
    | (refine ite_steady ?_ ?_)
    | apply setKeySlot_steady
    | apply reevaluate_steady

theorem takeKeys_steady {k : Fin 4} {b : KeyBulletin} {c : Core} (hok : Steady c0 c) : Steady c0 (takeKeys k b c) := by
  unfold takeKeys
  try dsimp only
  with_reducible repeat' first
    | assumption
    | (refine ite_steady ?_ ?_)
    | apply setKeyTold_steady
    | split

theorem keyLifeExpired_steady {k : Fin 4} {c : Core} (hok : Steady c0 c) : Steady c0 (keyLifeExpired k c) := by
  unfold keyLifeExpired
  try dsimp only
  with_reducible repeat' first
    | assumption
    | (refine ite_steady ?_ ?_)
    | apply post_steady
    | apply setKeyTold_steady

theorem consume_steady {f : Filter} {h : SegmentHeader} {r : TableBody} {c : Core} (hok : Steady c0 c) : Steady c0 (consume f h r c) := by
  unfold consume
  try dsimp only
  with_reducible repeat' first
    | assumption
    | apply takeLaneMap_steady
    | apply takeSchedule_steady
    | apply takePresentNext_steady
    | apply takeTime_steady
    | apply takeDirectory_steady
    | apply takeKeys_steady
    | split

theorem releaseBuffer_steady {i : Fin 16} {c : Core} (hok : Steady c0 c) : Steady c0 (releaseBuffer i c) := by
  unfold releaseBuffer
  try dsimp only
  with_reducible repeat' first
    | assumption
    | apply setSlot_steady

theorem takeHanded_steady {i : Fin 16} {c : Core} (hok : Steady c0 c) : Steady c0 (takeHanded i c).1 := by
  unfold takeHanded
  try dsimp only
  with_reducible repeat' first
    | assumption
    | apply applyBulletin_steady
    | apply consume_steady
    | apply releaseBuffer_steady
    | split

theorem takeHanded_steady' {i : Fin 16} {c : Core} {ans : Bool} {c' : Core} (e : takeHanded i c = (c', ans)) (hok : Steady c0 c) : Steady c0 c' := by
  have := takeHanded_steady (i := i) (c := c) hok
  rw [e] at this; exact this

theorem handOver_steady {i : Fin 16} : ∀ (n : Nat) {c : Core}, Steady c0 c → Steady c0 (handOver n i c) := by
  intro n
  induction n with
  | zero => exact fun h => h
  | succ n ih =>
    intro c h
    unfold handOver
    split
    · exact takeHanded_steady' (by assumption) h
    · have h' := takeHanded_steady' (by assumption) h
      dsimp only
      split
      · exact ih (setSlot_steady h')
      · exact h'

theorem handIfNew_steady {i : Fin 16} {x : Slot} {c : Core} (hok : Steady c0 c) : Steady c0 (handIfNew i x c) := by
  unfold handIfNew
  try dsimp only
  with_reducible repeat' first
    | assumption
    | (refine ite_steady ?_ ?_)
    | apply setSlot_steady
    | apply handOver_steady

theorem bufferHandOver_steady {i : Fin 16} {c : Core} (hok : Steady c0 c) : Steady c0 (bufferHandOver i c) := by
  unfold bufferHandOver
  try dsimp only
  with_reducible repeat' first
    | assumption
    | apply handIfNew_steady

theorem retestOne_steady {c : Core} {i : Fin 16} (hok : Steady c0 c) : Steady c0 (retestOne c i) := by
  unfold retestOne
  try dsimp only
  with_reducible repeat' first
    | assumption
    | (refine ite_steady ?_ ?_)
    | apply handOver_steady

theorem retestKept_steady {c : Core} (hok : Steady c0 c) : Steady c0 (retestKept c) := by
  unfold retestKept
  try dsimp only
  with_reducible repeat' first
    | assumption
    | (refine foldl_steady ?_ ?_)
    | apply retestOne_steady

theorem slotTakesCell_steady {p : KeyParity} {c : Core} {k : Fin 4} (hok : Steady c0 c) : Steady c0 (slotTakesCell p c k) := by
  unfold slotTakesCell
  try dsimp only
  with_reducible repeat' first
    | assumption
    | (refine ite_steady ?_ ?_)
    | apply setKeySlot_steady

theorem routeTo_steady {h : CellHeader} {f : Output → Option (List Byte)} {c : Core} {o : Output} (hok : Steady c0 c) : Steady c0 (routeTo h f c o) := by
  unfold routeTo
  try dsimp only
  with_reducible repeat' first
    | assumption
    | apply carry_steady
    | split

theorem clearCell_steady {t : Fin 4} {h : CellHeader} {payload : List Byte} {c : Core} (hok : Steady c0 c) : Steady c0 (clearCell t h payload c) := by
  unfold clearCell
  try dsimp only
  with_reducible repeat' first
    | assumption
    | (refine ite_steady ?_ ?_)
    | (refine foldl_steady ?_ ?_)
    | apply reevaluate_steady
    | apply slotTakesCell_steady
    | apply routeTo_steady
    | intro _
    | split

theorem collectCell_steady {t : Fin 4} {h : CellHeader} {payload : List Byte} {reading : TableBody} {c : Core} (hok : Steady c0 c) : Steady c0 (collectCell t h payload reading c) := by
  unfold collectCell
  try dsimp only
  with_reducible repeat' first
    | assumption
    | apply handIfNew_steady
    | split

theorem cellArrival_steady {t : Fin 4} {header : BitVec 32} {payload : List Byte} {reading : TableBody} {c : Core} (hok : Steady c0 c) : Steady c0 (cellArrival t header payload reading c) := by
  unfold cellArrival
  try dsimp only
  with_reducible repeat' first
    | assumption
    | (refine ite_steady ?_ ?_)
    | apply clearCell_steady
    | apply collectCell_steady

theorem wipeLink_steady {c : Core} (hok : Steady c0 c) : Steady c0 (wipeLink c) := by
  exact setLink_steady hok (withMode_keeps _ _ _).1 (withMode_keeps _ _ _).2

theorem offerOwedClock_steady {c : Core} (hok : Steady c0 c) : Steady c0 (offerOwedClock c) := by
  unfold offerOwedClock
  try dsimp only
  with_reducible repeat' first
    | assumption
    | (refine ite_steady ?_ ?_)
    | (refine foldl_steady ?_ ?_)
    | apply commitBooking_steady
    | apply commitLastDay_steady
    | intro _

theorem offerOwedGroup_steady {c : Core} (hok : Steady c0 c) : Steady c0 (offerOwedGroup c) := by
  unfold offerOwedGroup
  try dsimp only
  with_reducible repeat' first
    | assumption
    | (refine ite_steady ?_ ?_)
    | apply commitGroup_steady

theorem offerOwedAck_steady {c : Core} (hok : Steady c0 c) : Steady c0 (offerOwedAck c) := by
  unfold offerOwedAck
  try dsimp only
  with_reducible repeat' first
    | assumption
    | (refine ite_steady ?_ ?_)
    | apply commitLogAck_steady

theorem offerOwedLimits_steady {c : Core} (hok : Steady c0 c) : Steady c0 (offerOwedLimits c) := by
  unfold offerOwedLimits
  try dsimp only
  with_reducible repeat' first
    | assumption
    | (refine foldl_steady ?_ ?_)
    | apply commitLimit'_steady
    | intro _

theorem offerOwed_steady {c : Core} (hok : Steady c0 c) : Steady c0 (offerOwed c) := by
  unfold offerOwed
  try dsimp only
  with_reducible repeat' first
    | assumption
    | apply offerSnapshot_steady
    | apply offerOwedClock_steady
    | apply offerOwedGroup_steady
    | apply offerOwedAck_steady
    | apply offerOwedLimits_steady

theorem itemLeft_steady {c : Core} (hok : Steady c0 c) : Steady c0 (itemLeft c) := by
  unfold itemLeft
  try dsimp only
  with_reducible repeat' first
    | assumption
    | apply retestKept_steady
    | apply offerOwed_steady

theorem toldWritten_steady {k : StoreKey} {c : Core} (hok : Steady c0 c) : Steady c0 (toldWritten k c) := by
  unfold toldWritten
  try dsimp only
  with_reducible repeat' first
    | assumption
    | (refine ite_steady ?_ ?_)
    | apply pinReported_steady
    | apply purchaseWritten_steady
    | split

theorem clearOwed_steady {k : StoreKey} {c : Core} (hok : Steady c0 c) : Steady c0 (clearOwed k c) := by
  unfold clearOwed
  try dsimp only
  with_reducible repeat' first
    | assumption
    | (refine ite_steady ?_ ?_)
    | apply setLimits_steady
    | apply setPurchase_steady
    | apply setClock_steady
    | apply setDir_steady
    | intro _
    | split
    | (refine access_steady ?_)

theorem toldEnded_steady {writing : Bool} {k : StoreKey} {c : Core} (hok : Steady c0 c) : Steady c0 (toldEnded writing k c) := by
  unfold toldEnded
  try dsimp only
  with_reducible repeat' first
    | assumption
    | (refine ite_steady ?_ ?_)
    | apply pinReported_steady
    | apply purchaseFailed_steady
    | split

theorem toldFailed_steady {writing : Bool} {k : StoreKey} {c : Core} (hok : Steady c0 c) : Steady c0 (toldFailed writing k c) := by
  unfold toldFailed
  try dsimp only
  with_reducible repeat' first
    | assumption
    | apply clearOwed_steady
    | apply toldEnded_steady

theorem wipeDirectory_steady {c : Core} (hok : Steady c0 c) : Steady c0 (wipeDirectory c) := by
  unfold wipeDirectory
  try dsimp only
  with_reducible repeat' first
    | assumption
    | apply setDir_steady
    | apply watchReclaim_steady
    | apply startSnapshot_steady

theorem setInterval_steady {n : Nat} {c : Core} (hok : Steady c0 c) : Steady c0 (setInterval n c) := by
  unfold setInterval
  try dsimp only
  with_reducible repeat' first
    | assumption
    | apply setGuide_steady

theorem wipeGuide_steady {c : Core} (hok : Steady c0 c) : Steady c0 (wipeGuide c) := by
  unfold wipeGuide
  try dsimp only
  with_reducible repeat' first
    | assumption
    | apply setGuide_steady
    | apply setInterval_steady

theorem loadClock_steady {c : Core} (hok : Steady c0 c) : Steady c0 (loadClock c) := by
  unfold loadClock
  try dsimp only
  with_reducible repeat' first
    | assumption
    | (refine foldl_steady ?_ ?_)
    | apply setClock_steady

theorem loadDirectory_steady {c : Core} (hok : Steady c0 c) : Steady c0 (loadDirectory c) := by
  unfold loadDirectory
  try dsimp only
  with_reducible repeat' first
    | assumption
    | apply setDir_steady

theorem loadSettings_steady {c : Core} (hok : Steady c0 c) : Steady c0 (loadSettings c) := by
  unfold loadSettings
  try dsimp only
  with_reducible repeat' first
    | assumption
    | apply setGuide_steady
    | apply setAcqLimit_steady
    | apply setInterval_steady
    | split

theorem loadAccess_steady {c : Core} (hok : Steady c0 c) : Steady c0 (loadAccess c) := by
  unfold loadAccess
  try dsimp only
  with_reducible repeat' first
    | assumption
    | (refine ite_steady ?_ ?_)
    | apply setEvents_steady
    | apply setPackages_steady
    | split
    | (refine access_steady ?_)

theorem replay_steady {c : Core} {x : PurchaseRecord × EventGrant} (hok : Steady c0 c) : Steady c0 (replay c x) := by
  unfold replay
  try dsimp only
  with_reducible repeat' first
    | assumption
    | apply setPurchase_steady
    | apply setEvents_steady

theorem loadCredit_steady {c : Core} (hok : Steady c0 c) : Steady c0 (loadCredit c) := by
  unfold loadCredit
  try dsimp only
  with_reducible repeat' first
    | assumption
    | apply setUplinkState_steady
    | apply setPurchase_steady
    | split

theorem loadPurchases_steady {c : Core} (hok : Steady c0 c) : Steady c0 (loadPurchases c) := by
  unfold loadPurchases
  try dsimp only
  with_reducible repeat' first
    | assumption
    | (refine ite_steady ?_ ?_)
    | (refine foldl_steady ?_ ?_)
    | apply setPurchase_steady
    | apply commitGroup_steady
    | apply becameUnreported_steady
    | apply dueTest_steady
    | apply replay_steady
    | apply loadCredit_steady

theorem loadProfiles_steady {c : Core} (hok : Steady c0 c) : Steady c0 (loadProfiles c) := by
  unfold loadProfiles
  try dsimp only
  with_reducible repeat' first
    | assumption
    | apply setLimits_steady

theorem loadPin_steady {c : Core} (hok : Steady c0 c) : Steady c0 (loadPin c) := by
  unfold loadPin
  try dsimp only
  with_reducible repeat' first
    | assumption
    | (refine ite_steady ?_ ?_)
    | apply setLimits_steady
    | apply post_steady
    | split

theorem loadDefaults_steady {c : Core} (hok : Steady c0 c) : Steady c0 (loadDefaults c) := by
  unfold loadDefaults
  try dsimp only
  with_reducible repeat' first
    | assumption
    | apply setContext_steady
    | intro _
    | split

theorem loadLimits_steady {c : Core} (hok : Steady c0 c) : Steady c0 (loadLimits c) := by
  unfold loadLimits
  try dsimp only
  with_reducible repeat' first
    | assumption
    | apply setLimits_steady
    | apply loadProfiles_steady
    | apply loadPin_steady
    | apply loadDefaults_steady
    | split

theorem loadLink_steady {c : Core} (hok : Steady c0 c) : Steady c0 (loadLink c) := by
  unfold loadLink
  split
  · exact setLink_steady hok (withMode_keeps _ _ _).1 (withMode_keeps _ _ _).2
  · exact hok

theorem loadAll_steady {c : Core} (hok : Steady c0 c) : Steady c0 (loadAll c) := by
  unfold loadAll
  try dsimp only
  with_reducible repeat' first
    | assumption
    | apply loadClock_steady
    | apply loadDirectory_steady
    | apply loadSettings_steady
    | apply loadAccess_steady
    | apply loadPurchases_steady
    | apply loadLimits_steady
    | apply loadLink_steady

end

end Sys2Proof.Machine
end

