-- ==== Sys2Proof/Laws/Still.lean ====
section
/-! SUPPORT. While no recording runs on past its end, a release and what it sets off leave a session that is not evaluated (IDLE,
or HELD with a terminal reason) as it was. -/

namespace Sys2Proof.Machine

open Sys2Proof

/-- The session of `o` is `x`, which no re-evaluation affects, and no recording runs on. -/
structure Still (o : Output) (x : Session) (c : Core) : Prop where
  sess : session c o = x
  dull : x.evaluated = false
  none : noneExtended c

section

variable {o0 : Output} {x0 : Session}

theorem ite_still {P : Prop} [Decidable P] {a b : Core} (ha : Still o0 x0 a) (hb : Still o0 x0 b) :
    Still o0 x0 (if P then a else b) := by
  split
  · exact ha
  · exact hb

theorem foldl_still {α : Type} {f : Core → α → Core} {l : List α} {c : Core} (h : Still o0 x0 c)
    (hf : ∀ c x, Still o0 x0 c → Still o0 x0 (f c x)) : Still o0 x0 (l.foldl f c) := by
  induction l generalizing c with
  | nil => exact h
  | cons x t ih => exact ih (hf c x h)

theorem same_still {c c' : Core} (h : Still o0 x0 c) (e : c'.rooms.sessions = c.rooms.sessions)
    (k : c'.clock.bookings = c.clock.bookings) : Still o0 x0 c' :=
  ⟨by rw [← h.sess]; unfold session; rw [e], h.dull, by unfold noneExtended; rw [k]; exact h.none⟩

theorem offer_still {it : Item} {a : OfferAnswer} {c c' : Core} (e : offer it c = (a, c')) (h : Still o0 x0 c) :
    Still o0 x0 c' := same_still h (by rw [(offer_only e).rooms]) (by rw [(offer_only e).clock])

theorem setBooking_still {b : Booking} {c : Core} (h : Still o0 x0 c) (hb : b.extended = false) : Still o0 x0 (setBooking b c) :=
  ⟨h.sess, h.dull, (setBooking_calm (c0 := c) ⟨rfl, h.none⟩ hb).none⟩

theorem setSession_still {p : Output} {s : Session} {c : Core} (h : Still o0 x0 c) (hp : p ≠ o0) :
    Still o0 x0 (setSession p s c) := ⟨(session_setSession_ne s c hp).trans h.sess, h.dull, h.none⟩

theorem setLaneMap_still {t : Fin 4} {x : LaneMap} {c : Core} (h : Still o0 x0 c) : Still o0 x0 (setLaneMap t x c) := same_still h rfl rfl
theorem setContext_still {r : Room} {x : RoomContext} {c : Core} (h : Still o0 x0 c) : Still o0 x0 (setContext r x c) := same_still h rfl rfl
theorem setTuner_still {t : Fin 4} {x : Tuner} {c : Core} (h : Still o0 x0 c) : Still o0 x0 (setTuner t x c) := same_still h rfl rfl
theorem setSlot_still {i : Fin 16} {x : Slot} {c : Core} (h : Still o0 x0 c) : Still o0 x0 (setSlot i x c) := same_still h rfl rfl
theorem setKeySlot_still {k : Fin 4} {x : KeySlot} {c : Core} (h : Still o0 x0 c) : Still o0 x0 (setKeySlot k x c) := same_still h rfl rfl
theorem setGuide_still {x : Guide} {c : Core} (h : Still o0 x0 c) : Still o0 x0 (setGuide x c) := same_still h rfl rfl
theorem setLimits_still {x : Limits} {c : Core} (h : Still o0 x0 c) : Still o0 x0 (setLimits x c) := same_still h rfl rfl
theorem setUplinkState_still {x : Uplink} {c : Core} (h : Still o0 x0 c) : Still o0 x0 (setUplinkState x c) := same_still h rfl rfl
theorem setPurchase_still {x : Purchase} {c : Core} (h : Still o0 x0 c) : Still o0 x0 (setPurchase x c) := same_still h rfl rfl
theorem setDir_still {x : Directory} {c : Core} (h : Still o0 x0 c) : Still o0 x0 (setDir x c) := same_still h rfl rfl
theorem guide_still {c : Core} {x : Guide} (h : Still o0 x0 c) : Still o0 x0 { c with guide := x } := same_still h rfl rfl
theorem access_still {c : Core} {x : Access} (h : Still o0 x0 c) : Still o0 x0 { c with access := x } := same_still h rfl rfl
theorem free_still {c : Core} {x : Nat} (h : Still o0 x0 c) : Still o0 x0 { c with free := x } := same_still h rfl rfl
theorem arb_still {c : Core} {x : Arbiter} (h : Still o0 x0 c) : Still o0 x0 { c with arb := x } := same_still h rfl rfl
theorem post_still {b : NoticeBody} {c : Core} (h : Still o0 x0 c) : Still o0 x0 (post b c) := same_still h rfl rfl

theorem openFilter_still {f : Filter} {c : Core} (hok : Still o0 x0 c) : Still o0 x0 (openFilter f c) := by
  unfold openFilter
  try dsimp only
  with_reducible repeat' first
    | assumption
    | apply setSlot_still
    | split

theorem closeWhere_still {p : Slot → Bool} {c : Core} (hok : Still o0 x0 c) : Still o0 x0 (closeWhere p c) := by
  unfold closeWhere
  try dsimp only
  with_reducible repeat' first
    | assumption
    | (refine ite_still ?_ ?_)
    | (refine foldl_still ?_ ?_)
    | apply setSlot_still
    | intro _

theorem closeTunerSlots_still {t : Fin 4} {c : Core} (hok : Still o0 x0 c) : Still o0 x0 (closeTunerSlots t c) := by
  unfold closeTunerSlots
  try dsimp only
  with_reducible repeat' first
    | assumption
    | (refine ite_still ?_ ?_)
    | (refine foldl_still ?_ ?_)
    | apply setKeySlot_still
    | apply closeWhere_still
    | intro _

theorem settleControl_still {c : Core} (hok : Still o0 x0 c) : Still o0 x0 (settleControl c) := by
  unfold settleControl
  try dsimp only
  with_reducible repeat' first
    | assumption
    | (refine ite_still ?_ ?_)
    | apply openFilter_still
    | apply closeWhere_still
    | split

theorem discardAssembly_still {t : Fin 4} {c : Core} (hok : Still o0 x0 c) : Still o0 x0 (discardAssembly t c) := by
  unfold discardAssembly
  try dsimp only
  with_reducible repeat' first
    | assumption
    | (refine ite_still ?_ ?_)
    | (refine foldl_still ?_ ?_)
    | apply setSlot_still
    | intro _

theorem ensureKeyFilter_still {k : Fin 4} {t : Fin 4} {c : Core} (hok : Still o0 x0 c) : Still o0 x0 (ensureKeyFilter k t c) := by
  unfold ensureKeyFilter
  try dsimp only
  with_reducible repeat' first
    | assumption
    | (refine ite_still ?_ ?_)
    | apply setKeySlot_still
    | apply openFilter_still
    | split

theorem closeKeyFilter_still {k : Fin 4} {c : Core} (hok : Still o0 x0 c) : Still o0 x0 (closeKeyFilter k c) := by
  unfold closeKeyFilter
  try dsimp only
  with_reducible repeat' first
    | assumption
    | apply setKeySlot_still
    | apply closeWhere_still
    | intro _
    | split

theorem dropRef_still {k : Fin 4} {c : Core} (hok : Still o0 x0 c) : Still o0 x0 (dropRef k c) := by
  unfold dropRef
  try dsimp only
  with_reducible repeat' first
    | assumption
    | (refine ite_still ?_ ?_)
    | apply setKeySlot_still
    | apply closeKeyFilter_still

theorem dropOld_still {old : Option (Fin 4)} {c : Core} (hok : Still o0 x0 c) : Still o0 x0 (dropOld old c) := by
  unfold dropOld
  try dsimp only
  with_reducible repeat' first
    | assumption
    | apply dropRef_still
    | split

theorem commitBooking_still {id : Nat} {c : Core} (hok : Still o0 x0 c) : Still o0 x0 (commitBooking id c) := by
  unfold commitBooking
  split
  · have h := offer_still (by assumption) hok
    exact same_still h rfl (by unfold oweBooking; split <;> rfl)
  · exact offer_still (by assumption) hok
  · have h := offer_still (by assumption) hok
    exact same_still h rfl rfl

theorem postBookingState_still {b : Booking} {cause : Option MissedCause} {c : Core} (hok : Still o0 x0 c) : Still o0 x0 (postBookingState b cause c) := by
  unfold postBookingState
  try dsimp only
  with_reducible repeat' first
    | assumption
    | apply post_still

theorem missBooking_still {b : Booking} {cause : MissedCause} {c : Core} (hok : Still o0 x0 c) : Still o0 x0 (missBooking b cause c) := by
  unfold missBooking changeBooking
  exact commitBooking_still (postBookingState_still (setBooking_still hok rfl))

theorem bookingOutcome_still {id : Nat} {outcome : ChangeOutcome} {c : Core} (hok : Still o0 x0 c) : Still o0 x0 (bookingOutcome id outcome c) := by
  unfold bookingOutcome
  try dsimp only
  with_reducible repeat' first
    | assumption
    | (refine ite_still ?_ ?_)
    | apply missBooking_still
    | split

theorem endChange_still {o : Output} {old : Session} {outcome : ChangeOutcome} {reasons : Option Reasons} {c : Core} (hok : Still o0 x0 c) : Still o0 x0 (endChange o old outcome reasons c) := by
  unfold endChange
  try dsimp only
  with_reducible repeat' first
    | assumption
    | apply post_still
    | apply bookingOutcome_still
    | split

theorem postSession_still {o : Output} {c : Core} (hok : Still o0 x0 c) : Still o0 x0 (postSession o c) := by
  unfold postSession
  try dsimp only
  with_reducible repeat' first
    | assumption
    | apply post_still

theorem purchaseOffer_still {o : Output} {c : Core} (hok : Still o0 x0 c) : Still o0 x0 (purchaseOffer o c) := by
  unfold purchaseOffer
  try dsimp only
  with_reducible repeat' first
    | assumption
    | (refine ite_still ?_ ?_)
    | apply post_still
    | split

theorem arrive_still {p : Output} {old s : Session} {entering : Bool} {c : Core} (hok : Still o0 x0 c) (hp : p ≠ o0) :
    Still o0 x0 (arrive p old s entering c) := by
  unfold arrive
  dsimp only
  have h1 := setSession_still (s := { s with change := .absent }) hok hp
  have h2 : ∀ c, Still o0 x0 c → Still o0 x0
      (if s.state = .held && s.reasons.noGrant && (entering || !old.reasons.noGrant) then purchaseOffer p c else c) :=
    fun c h => ite_still (purchaseOffer_still h) h
  apply h2
  refine ite_still ?_ (ite_still (postSession_still h1) h1)
  split
  · exact endChange_still h1
  · exact endChange_still h1

theorem reevalOne_still {c : Core} {p : Output} (hok : Still o0 x0 c) : Still o0 x0 (reevalOne c p) := by
  by_cases hp : p = o0
  · subst hp
    unfold reevalOne
    rw [hok.sess]
    simp [hok.dull, hok]
  · unfold reevalOne
    dsimp only
    refine ite_still ?_ hok
    split
    · exact ite_still (arrive_still hok hp) (ite_still (arrive_still hok hp) hok)
    · exact ite_still hok (arrive_still hok hp)
    · exact ite_still (arrive_still hok hp) (ite_still hok (arrive_still hok hp))
    · exact setSession_still hok hp
    · exact hok

theorem reevaluate_still {c : Core} (hok : Still o0 x0 c) : Still o0 x0 (reevaluate c) := by
  unfold reevaluate
  try dsimp only
  with_reducible repeat' first
    | assumption
    | (refine foldl_still ?_ ?_)
    | apply reevalOne_still

theorem endEventGrant_still {o : Output} {c : Core} (hok : Still o0 x0 c) : Still o0 x0 (endEventGrant o c) := by
  unfold endEventGrant
  try dsimp only
  with_reducible repeat' first
    | assumption
    | (refine ite_still ?_ ?_)
    | apply setContext_still
    | split

theorem testSession_still {c : Core} {p : Output} (hok : Still o0 x0 c) : Still o0 x0 (testSession c p) := by
  by_cases hp : p = o0
  · subst hp
    unfold testSession
    rw [hok.sess]
    simp [hok.dull, hok]
  · unfold testSession
    dsimp only
    split
    · refine ite_still hok ?_
      have h1 := fun s b => reevaluate_still (endEventGrant_still (o := p) (setSession_still (s := s) (post_still (b := b) hok) hp))
      exact ite_still (purchaseOffer_still (h1 _ _)) (h1 _ _)
    · exact hok

theorem testPresent_still {c : Core} (hok : Still o0 x0 c) : Still o0 x0 (testPresent c) := by
  unfold testPresent
  try dsimp only
  with_reducible repeat' first
    | assumption
    | (refine foldl_still ?_ ?_)
    | apply testSession_still

theorem sendCommand_still {t : Fin 4} {x : Option Carrier} {c : Core} (hok : Still o0 x0 c) : Still o0 x0 (sendCommand t x c) := by
  exact setTuner_still (same_still hok rfl rfl)

theorem tune_still {t : Fin 4} {x : Carrier} {holders : Holders} {c : Core} (hok : Still o0 x0 c) : Still o0 x0 (tune t x holders c) := by
  unfold tune
  try dsimp only
  with_reducible repeat' first
    | assumption
    | apply setTuner_still
    | apply sendCommand_still

theorem turnOff_still {t : Fin 4} {c : Core} (hok : Still o0 x0 c) : Still o0 x0 (turnOff t c) := by
  unfold turnOff
  try dsimp only
  with_reducible repeat' first
    | assumption
    | apply setTuner_still
    | apply sendCommand_still

theorem setHolder_still {t : Fin 4} {x : Claimant} {b : Bool} {c : Core} (hok : Still o0 x0 c) : Still o0 x0 (setHolder t x b c) := by
  unfold setHolder
  try dsimp only
  with_reducible repeat' first
    | assumption
    | apply setTuner_still

theorem startHold_still {c : Core} (hok : Still o0 x0 c) : Still o0 x0 (startHold c) := by
  unfold startHold
  split
  · exact same_still hok rfl rfl
  · exact hok

theorem stopHold_still {c : Core} (hok : Still o0 x0 c) : Still o0 x0 (stopHold c) := by
  exact same_still hok rfl rfl

theorem watchTest_still {c : Core} (hok : Still o0 x0 c) : Still o0 x0 (watchTest c) := by
  unfold watchTest
  try dsimp only
  with_reducible repeat' first
    | assumption
    | (refine ite_still ?_ ?_)
    | apply tune_still
    | apply setHolder_still
    | apply startHold_still
    | split

theorem judgeExtended_still {stop : Output → Core → Core} {c : Core} {id : Nat} (hok : Still o0 x0 c) : Still o0 x0 (judgeExtended stop c id) := by
  unfold judgeExtended
  split
  · rename_i b now hb _
    have he : b.extended = false := hok.none b (List.mem_of_find?_eq_some hb)
    simp [he, hok]
  · exact hok

theorem markerChanged_still {stop : Output → Core → Core} {lcn : Nat} {c : Core} (hok : Still o0 x0 c) : Still o0 x0 (markerChanged stop lcn c) := by
  unfold markerChanged
  try dsimp only
  with_reducible repeat' first
    | assumption
    | (refine foldl_still ?_ ?_)
    | apply judgeExtended_still

theorem removeMarkers_still {stop : Output → Core → Core} {p : Marker → Bool} {c : Core} (hok : Still o0 x0 c) : Still o0 x0 (removeMarkers stop p c) := by
  unfold removeMarkers
  try dsimp only
  with_reducible repeat' first
    | assumption
    | (refine foldl_still ?_ ?_)
    | apply markerChanged_still
    | intro _
    | (refine guide_still ?_)

theorem carrierUnlocked_still {stop : Output → Core → Core} {x : Option Carrier} {c : Core} (hok : Still o0 x0 c) : Still o0 x0 (carrierUnlocked stop x c) := by
  unfold carrierUnlocked
  try dsimp only
  with_reducible repeat' first
    | assumption
    | apply testPresent_still
    | apply removeMarkers_still
    | split

theorem handLeft_still {stop : Output → Core → Core} {t : Fin 4} {u : Tuner} {c : Core} (hok : Still o0 x0 c) : Still o0 x0 (handLeft stop t u c) := by
  unfold handLeft
  try dsimp only
  with_reducible repeat' first
    | assumption
    | (refine ite_still ?_ ?_)
    | apply setLaneMap_still
    | apply closeTunerSlots_still
    | apply settleControl_still
    | apply watchTest_still
    | apply carrierUnlocked_still

theorem goOff_still {stop : Output → Core → Core} {t : Fin 4} {c : Core} (hok : Still o0 x0 c) : Still o0 x0 (goOff stop t c) := by
  unfold goOff
  try dsimp only
  with_reducible repeat' first
    | assumption
    | apply turnOff_still
    | apply handLeft_still

theorem releaseFrom_still {stop : Output → Core → Core} {x : Claimant} {t : Fin 4} {c : Core} (hok : Still o0 x0 c) : Still o0 x0 (releaseFrom stop x t c) := by
  unfold releaseFrom
  try dsimp only
  with_reducible repeat' first
    | assumption
    | (refine ite_still ?_ ?_)
    | apply setHolder_still
    | apply goOff_still

theorem releaseWith_still {stop : Output → Core → Core} {x : Claimant} {c : Core} (hok : Still o0 x0 c) : Still o0 x0 (releaseWith stop x c) := by
  unfold releaseWith
  try dsimp only
  with_reducible repeat' first
    | assumption
    | apply releaseFrom_still
    | split

theorem release_still {x : Claimant} {c : Core} (hok : Still o0 x0 c) : Still o0 x0 (release x c) := releaseWith_still hok

theorem watchEnds_still {c : Core} (hok : Still o0 x0 c) : Still o0 x0 (watchEnds c) := by
  unfold watchEnds
  try dsimp only
  with_reducible repeat' first
    | assumption
    | apply release_still
    | apply stopHold_still

theorem watchFailed_still {c : Core} (hok : Still o0 x0 c) : Still o0 x0 (watchFailed c) := by
  unfold watchFailed
  try dsimp only
  with_reducible repeat' first
    | assumption
    | apply startHold_still

theorem closeSchedule_still {c : Core} (hok : Still o0 x0 c) : Still o0 x0 (closeSchedule c) := by
  unfold closeSchedule
  try dsimp only
  with_reducible repeat' first
    | assumption
    | apply closeWhere_still

theorem endSweep_still {c : Core} (hok : Still o0 x0 c) : Still o0 x0 (endSweep c) := by
  unfold endSweep
  try dsimp only
  with_reducible repeat' first
    | assumption
    | apply release_still
    | apply closeSchedule_still
    | (refine guide_still ?_)

theorem openSchedule_still {t : Fin 4} {c : Core} (hok : Still o0 x0 c) : Still o0 x0 (openSchedule t c) := by
  unfold openSchedule
  try dsimp only
  with_reducible repeat' first
    | assumption
    | apply openFilter_still

theorem sweepLocked_still {t : Fin 4} {c : Core} (hok : Still o0 x0 c) : Still o0 x0 (sweepLocked t c) := by
  unfold sweepLocked
  try dsimp only
  with_reducible repeat' first
    | assumption
    | (refine ite_still ?_ ?_)
    | apply openSchedule_still
    | (refine guide_still ?_)

end

end Sys2Proof.Machine
end

