-- ==== Sys2Proof/Laws/Timed.lean ====
section
/-! SUPPORT. What an event does in the blocks leaves network time, the offset, the wake lead and the power state as they were. -/

namespace Sys2Proof.Machine

open Sys2Proof

/-- From `c0` to `c` network time, the offset's two sources, the wake lead and the power state stand. -/
structure Timed (c0 c : Core) : Prop where
  time : c.clock.time = c0.clock.time
  broadcast : c.clock.broadcast = c0.clock.broadcast
  zone : c.clock.zone = c0.clock.zone
  lead : c.clock.wakeLead = c0.clock.wakeLead
  power : c.clock.power = c0.clock.power

theorem Timed.refl (c : Core) : Timed c c := ⟨rfl, rfl, rfl, rfl, rfl⟩

section

variable {c0 : Core}

theorem ite_timed {P : Prop} [Decidable P] {a b : Core} (ha : Timed c0 a) (hb : Timed c0 b) :
    Timed c0 (if P then a else b) := by
  split
  · exact ha
  · exact hb

theorem ite_timed2 {α : Type} {P : Prop} [Decidable P] {a b : α × Core} (ha : Timed c0 a.2) (hb : Timed c0 b.2) :
    Timed c0 (if P then a else b).2 := by
  split
  · exact ha
  · exact hb

theorem foldl_timed {α : Type} {f : Core → α → Core} {l : List α} {c : Core} (h : Timed c0 c)
    (hf : ∀ c x, Timed c0 c → Timed c0 (f c x)) : Timed c0 (l.foldl f c) := by
  induction l generalizing c with
  | nil => exact h
  | cons x t ih => exact ih (hf c x h)

theorem same_timed {c c' : Core} (h : Timed c0 c) (e : c'.clock = c.clock) : Timed c0 c' :=
  ⟨e ▸ h.time, e ▸ h.broadcast, e ▸ h.zone, e ▸ h.lead, e ▸ h.power⟩

theorem offer_timed {it : Item} {a : OfferAnswer} {c c' : Core} (e : offer it c = (a, c')) (h : Timed c0 c) :
    Timed c0 c' := same_timed h (offer_only e).clock

theorem clock_timed {c : Core} {x : Clock} (h : Timed c0 c) (t : x.time = c.clock.time) (b : x.broadcast = c.clock.broadcast)
    (z : x.zone = c.clock.zone) (l : x.wakeLead = c.clock.wakeLead) (p : x.power = c.clock.power) :
    Timed c0 { c with clock := x } :=
  ⟨t.trans h.time, b.trans h.broadcast, z.trans h.zone, l.trans h.lead, p.trans h.power⟩

theorem setClock_timed {c : Core} {x : Clock} (h : Timed c0 c) (t : x.time = c.clock.time)
    (b : x.broadcast = c.clock.broadcast) (z : x.zone = c.clock.zone) (l : x.wakeLead = c.clock.wakeLead)
    (p : x.power = c.clock.power) : Timed c0 (setClock x c) := clock_timed h t b z l p

theorem setSession_timed {o : Output} {x : Session} {c : Core} (h : Timed c0 c) : Timed c0 (setSession o x c) := same_timed h rfl
theorem setLaneMap_timed {t : Fin 4} {x : LaneMap} {c : Core} (h : Timed c0 c) : Timed c0 (setLaneMap t x c) := same_timed h rfl
theorem setContext_timed {r : Room} {x : RoomContext} {c : Core} (h : Timed c0 c) : Timed c0 (setContext r x c) := same_timed h rfl
theorem setTuner_timed {t : Fin 4} {x : Tuner} {c : Core} (h : Timed c0 c) : Timed c0 (setTuner t x c) := same_timed h rfl
theorem setSlot_timed {i : Fin 16} {x : Slot} {c : Core} (h : Timed c0 c) : Timed c0 (setSlot i x c) := same_timed h rfl
theorem setKeySlot_timed {k : Fin 4} {x : KeySlot} {c : Core} (h : Timed c0 c) : Timed c0 (setKeySlot k x c) := same_timed h rfl
theorem setBooking_timed {b : Booking} {c : Core} (h : Timed c0 c) : Timed c0 (setBooking b c) := ⟨h.time, h.broadcast, h.zone, h.lead, h.power⟩
theorem setGuide_timed {x : Guide} {c : Core} (h : Timed c0 c) : Timed c0 (setGuide x c) := same_timed h rfl
theorem setLimits_timed {x : Limits} {c : Core} (h : Timed c0 c) : Timed c0 (setLimits x c) := same_timed h rfl
theorem setUplinkState_timed {x : Uplink} {c : Core} (h : Timed c0 c) : Timed c0 (setUplinkState x c) := same_timed h rfl
theorem setPurchase_timed {x : Purchase} {c : Core} (h : Timed c0 c) : Timed c0 (setPurchase x c) := same_timed h rfl
theorem setDir_timed {x : Directory} {c : Core} (h : Timed c0 c) : Timed c0 (setDir x c) := same_timed h rfl
theorem arb_timed {c : Core} {x : Arbiter} (h : Timed c0 c) : Timed c0 { c with arb := x } := same_timed h rfl
theorem guide_timed {c : Core} {x : Guide} (h : Timed c0 c) : Timed c0 { c with guide := x } := same_timed h rfl
theorem rooms_timed {c : Core} {x : Rooms} (h : Timed c0 c) : Timed c0 { c with rooms := x } := same_timed h rfl
theorem access_timed {c : Core} {x : Access} (h : Timed c0 c) : Timed c0 { c with access := x } := same_timed h rfl
theorem free_timed {c : Core} {x : Nat} (h : Timed c0 c) : Timed c0 { c with free := x } := same_timed h rfl
theorem post_timed {b : NoticeBody} {c : Core} (h : Timed c0 c) : Timed c0 (post b c) := same_timed h rfl

theorem openFilter_timed {f : Filter} {c : Core} (hok : Timed c0 c) : Timed c0 (openFilter f c) := by
  unfold openFilter
  try dsimp only
  with_reducible repeat' first
    | assumption
    | apply setSlot_timed
    | split

theorem closeWhere_timed {p : Slot → Bool} {c : Core} (hok : Timed c0 c) : Timed c0 (closeWhere p c) := by
  unfold closeWhere
  try dsimp only
  with_reducible repeat' first
    | assumption
    | (refine ite_timed ?_ ?_)
    | (refine foldl_timed ?_ ?_)
    | apply setSlot_timed
    | intro _

theorem closeTunerSlots_timed {t : Fin 4} {c : Core} (hok : Timed c0 c) : Timed c0 (closeTunerSlots t c) := by
  unfold closeTunerSlots
  try dsimp only
  with_reducible repeat' first
    | assumption
    | (refine ite_timed ?_ ?_)
    | (refine foldl_timed ?_ ?_)
    | apply setKeySlot_timed
    | apply closeWhere_timed
    | intro _

theorem settleControl_timed {c : Core} (hok : Timed c0 c) : Timed c0 (settleControl c) := by
  unfold settleControl
  try dsimp only
  with_reducible repeat' first
    | assumption
    | (refine ite_timed ?_ ?_)
    | apply openFilter_timed
    | apply closeWhere_timed
    | split

theorem discardAssembly_timed {t : Fin 4} {c : Core} (hok : Timed c0 c) : Timed c0 (discardAssembly t c) := by
  unfold discardAssembly
  try dsimp only
  with_reducible repeat' first
    | assumption
    | (refine ite_timed ?_ ?_)
    | (refine foldl_timed ?_ ?_)
    | apply setSlot_timed
    | intro _

theorem ensureKeyFilter_timed {k : Fin 4} {t : Fin 4} {c : Core} (hok : Timed c0 c) : Timed c0 (ensureKeyFilter k t c) := by
  unfold ensureKeyFilter
  try dsimp only
  with_reducible repeat' first
    | assumption
    | (refine ite_timed ?_ ?_)
    | apply setKeySlot_timed
    | apply openFilter_timed
    | split

theorem closeKeyFilter_timed {k : Fin 4} {c : Core} (hok : Timed c0 c) : Timed c0 (closeKeyFilter k c) := by
  unfold closeKeyFilter
  try dsimp only
  with_reducible repeat' first
    | assumption
    | apply setKeySlot_timed
    | apply closeWhere_timed
    | intro _
    | split

theorem dropRef_timed {k : Fin 4} {c : Core} (hok : Timed c0 c) : Timed c0 (dropRef k c) := by
  unfold dropRef
  try dsimp only
  with_reducible repeat' first
    | assumption
    | (refine ite_timed ?_ ?_)
    | apply setKeySlot_timed
    | apply closeKeyFilter_timed

theorem setSessionSlot_timed {o : Output} {k : Option (Fin 4)} {c : Core} (hok : Timed c0 c) : Timed c0 (setSessionSlot o k c) := by
  unfold setSessionSlot
  try dsimp only
  with_reducible repeat' first
    | assumption
    | apply setSession_timed

theorem unbindKey_timed {o : Output} {c : Core} (hok : Timed c0 c) : Timed c0 (unbindKey o c) := by
  unfold unbindKey
  try dsimp only
  with_reducible repeat' first
    | assumption
    | apply dropRef_timed
    | apply setSessionSlot_timed
    | split

theorem dropOld_timed {old : Option (Fin 4)} {c : Core} (hok : Timed c0 c) : Timed c0 (dropOld old c) := by
  unfold dropOld
  try dsimp only
  with_reducible repeat' first
    | assumption
    | apply dropRef_timed
    | split

theorem bindKey_timed {o : Output} {x : Carrier} {lane : Nat} {t : Fin 4} {c : Core} (hok : Timed c0 c) : Timed c0 (bindKey o x lane t c) := by
  unfold bindKey
  try dsimp only
  with_reducible repeat' first
    | assumption
    | (refine ite_timed ?_ ?_)
    | apply setKeySlot_timed
    | apply ensureKeyFilter_timed
    | apply closeKeyFilter_timed
    | apply dropRef_timed
    | apply setSessionSlot_timed
    | apply dropOld_timed
    | split

theorem commitBooking_timed {id : Nat} {c : Core} (hok : Timed c0 c) : Timed c0 (commitBooking id c) := by
  unfold commitBooking
  split
  · have h := offer_timed (by assumption) hok
    refine clock_timed h ?_ ?_ ?_ ?_ ?_ <;> (unfold oweBooking; split <;> rfl)
  · exact offer_timed (by assumption) hok
  · exact clock_timed (offer_timed (by assumption) hok) rfl rfl rfl rfl rfl

theorem commitLastDay_timed {c : Core} (hok : Timed c0 c) : Timed c0 (commitLastDay c) := by
  unfold commitLastDay
  try dsimp only
  with_reducible repeat' first
    | assumption
    | (refine ite_timed ?_ ?_)
    | exact offer_timed (by assumption) (by assumption)
    | apply offer_timed (by assumption)
    | split
    | (refine clock_timed ?_ rfl rfl rfl rfl rfl)

theorem postBookingState_timed {b : Booking} {cause : Option MissedCause} {c : Core} (hok : Timed c0 c) : Timed c0 (postBookingState b cause c) := by
  unfold postBookingState
  try dsimp only
  with_reducible repeat' first
    | assumption
    | apply post_timed

theorem changeBooking_timed {b : Booking} {cause : Option MissedCause} {c : Core} (hok : Timed c0 c) : Timed c0 (changeBooking b cause c) := by
  unfold changeBooking
  try dsimp only
  with_reducible repeat' first
    | assumption
    | apply setBooking_timed
    | apply commitBooking_timed
    | apply postBookingState_timed

theorem missBooking_timed {b : Booking} {cause : MissedCause} {c : Core} (hok : Timed c0 c) : Timed c0 (missBooking b cause c) := by
  unfold missBooking
  try dsimp only
  with_reducible repeat' first
    | assumption
    | apply changeBooking_timed

theorem assertWake_timed {f : WakeCauses → WakeCauses} {c : Core} (hok : Timed c0 c) : Timed c0 (assertWake f c) := by
  unfold assertWake
  try dsimp only
  with_reducible repeat' first
    | assumption
    | (refine ite_timed ?_ ?_)
    | (refine clock_timed ?_ rfl rfl rfl rfl rfl)

theorem bookingOutcome_timed {id : Nat} {outcome : ChangeOutcome} {c : Core} (hok : Timed c0 c) : Timed c0 (bookingOutcome id outcome c) := by
  unfold bookingOutcome
  try dsimp only
  with_reducible repeat' first
    | assumption
    | (refine ite_timed ?_ ?_)
    | apply missBooking_timed
    | split

theorem endChange_timed {o : Output} {old : Session} {outcome : ChangeOutcome} {reasons : Option Reasons} {c : Core} (hok : Timed c0 c) : Timed c0 (endChange o old outcome reasons c) := by
  unfold endChange
  try dsimp only
  with_reducible repeat' first
    | assumption
    | apply post_timed
    | apply bookingOutcome_timed
    | split

theorem postSession_timed {o : Output} {c : Core} (hok : Timed c0 c) : Timed c0 (postSession o c) := by
  unfold postSession
  try dsimp only
  with_reducible repeat' first
    | assumption
    | apply post_timed

theorem purchaseOffer_timed {o : Output} {c : Core} (hok : Timed c0 c) : Timed c0 (purchaseOffer o c) := by
  unfold purchaseOffer
  try dsimp only
  with_reducible repeat' first
    | assumption
    | (refine ite_timed ?_ ?_)
    | apply post_timed
    | split

theorem arrive_timed {o : Output} {old : Session} {s : Session} {entering : Bool} {c : Core} (hok : Timed c0 c) : Timed c0 (arrive o old s entering c) := by
  unfold arrive
  try dsimp only
  with_reducible repeat' first
    | assumption
    | (refine ite_timed ?_ ?_)
    | apply setSession_timed
    | apply endChange_timed
    | apply postSession_timed
    | apply purchaseOffer_timed
    | split

theorem bindService_timed {o : Output} {e : LaneEntry} {c : Core} (hok : Timed c0 c) : Timed c0 (bindService o e c) := by
  unfold bindService
  try dsimp only
  with_reducible repeat' first
    | assumption
    | (refine ite_timed ?_ ?_)
    | apply unbindKey_timed
    | apply bindKey_timed
    | split

theorem enterChecking_timed {o : Output} {e : LaneEntry} {c : Core} (hok : Timed c0 c) : Timed c0 (enterChecking o e c) := by
  unfold enterChecking
  try dsimp only
  with_reducible repeat' first
    | assumption
    | (refine ite_timed ?_ ?_)
    | apply setSession_timed
    | apply postSession_timed
    | apply arrive_timed
    | apply bindService_timed

theorem tryChecking_timed {o : Output} {old : Session} {c : Core} (hok : Timed c0 c) : Timed c0 (tryChecking o old c) := by
  unfold tryChecking
  try dsimp only
  with_reducible repeat' first
    | assumption
    | (refine ite_timed ?_ ?_)
    | apply postSession_timed
    | apply enterChecking_timed
    | split

theorem reopen_timed {o : Output} {c : Core} (hok : Timed c0 c) : Timed c0 (reopen o c) := by
  unfold reopen
  try dsimp only
  with_reducible repeat' first
    | assumption
    | apply setSession_timed
    | apply tryChecking_timed

theorem reevalOne_timed {c : Core} {o : Output} (hok : Timed c0 c) : Timed c0 (reevalOne c o) := by
  unfold reevalOne
  try dsimp only
  with_reducible repeat' first
    | assumption
    | (refine ite_timed ?_ ?_)
    | apply setSession_timed
    | apply arrive_timed
    | split

theorem reevaluate_timed {c : Core} (hok : Timed c0 c) : Timed c0 (reevaluate c) := by
  unfold reevaluate
  try dsimp only
  with_reducible repeat' first
    | assumption
    | (refine foldl_timed ?_ ?_)
    | apply reevalOne_timed

theorem signalLost_timed {o : Output} {c : Core} (hok : Timed c0 c) : Timed c0 (signalLost o c) := by
  unfold signalLost
  try dsimp only
  with_reducible repeat' first
    | assumption
    | (refine ite_timed ?_ ?_)
    | apply setSession_timed
    | apply postSession_timed
    | split

theorem signalRegained_timed {o : Output} {c : Core} (hok : Timed c0 c) : Timed c0 (signalRegained o c) := by
  unfold signalRegained
  try dsimp only
  with_reducible repeat' first
    | assumption
    | (refine ite_timed ?_ ?_)
    | apply setSession_timed
    | apply arrive_timed
    | apply enterChecking_timed
    | apply tryChecking_timed
    | split

theorem endEventGrant_timed {o : Output} {c : Core} (hok : Timed c0 c) : Timed c0 (endEventGrant o c) := by
  unfold endEventGrant
  try dsimp only
  with_reducible repeat' first
    | assumption
    | (refine ite_timed ?_ ?_)
    | apply setContext_timed
    | split

theorem testSession_timed {c : Core} {o : Output} (hok : Timed c0 c) : Timed c0 (testSession c o) := by
  unfold testSession
  try dsimp only
  with_reducible repeat' first
    | assumption
    | (refine ite_timed ?_ ?_)
    | apply setSession_timed
    | apply post_timed
    | apply purchaseOffer_timed
    | apply reevaluate_timed
    | apply endEventGrant_timed
    | split

theorem testPresent_timed {c : Core} (hok : Timed c0 c) : Timed c0 (testPresent c) := by
  unfold testPresent
  try dsimp only
  with_reducible repeat' first
    | assumption
    | (refine foldl_timed ?_ ?_)
    | apply testSession_timed

theorem carry_timed {o : Output} {x : OutCell} {c : Core} (hok : Timed c0 c) : Timed c0 (carry o x c) := by
  unfold carry
  try dsimp only
  with_reducible repeat' first
    | assumption
    | (refine rooms_timed ?_)

theorem sendCommand_timed {t : Fin 4} {x : Option Carrier} {c : Core} (hok : Timed c0 c) : Timed c0 (sendCommand t x c) := by
  unfold sendCommand
  try dsimp only
  with_reducible repeat' first
    | assumption
    | apply setTuner_timed
    | (refine arb_timed ?_)

theorem tune_timed {t : Fin 4} {x : Carrier} {holders : Holders} {c : Core} (hok : Timed c0 c) : Timed c0 (tune t x holders c) := by
  unfold tune
  try dsimp only
  with_reducible repeat' first
    | assumption
    | apply setTuner_timed
    | apply sendCommand_timed

theorem turnOff_timed {t : Fin 4} {c : Core} (hok : Timed c0 c) : Timed c0 (turnOff t c) := by
  unfold turnOff
  try dsimp only
  with_reducible repeat' first
    | assumption
    | apply setTuner_timed
    | apply sendCommand_timed

theorem setHolder_timed {t : Fin 4} {x : Claimant} {b : Bool} {c : Core} (hok : Timed c0 c) : Timed c0 (setHolder t x b c) := by
  unfold setHolder
  try dsimp only
  with_reducible repeat' first
    | assumption
    | apply setTuner_timed

theorem startHold_timed {c : Core} (hok : Timed c0 c) : Timed c0 (startHold c) := by
  unfold startHold
  try dsimp only
  with_reducible repeat' first
    | assumption
    | (refine ite_timed ?_ ?_)
    | (refine clock_timed ?_ rfl rfl rfl rfl rfl)

theorem stopHold_timed {c : Core} (hok : Timed c0 c) : Timed c0 (stopHold c) := by
  unfold stopHold
  try dsimp only
  with_reducible repeat' first
    | assumption
    | (refine clock_timed ?_ rfl rfl rfl rfl rfl)

theorem watchTest_timed {c : Core} (hok : Timed c0 c) : Timed c0 (watchTest c) := by
  unfold watchTest
  try dsimp only
  with_reducible repeat' first
    | assumption
    | (refine ite_timed ?_ ?_)
    | apply tune_timed
    | apply setHolder_timed
    | apply startHold_timed
    | split

theorem endRecording_timed {stop : Output → Core → Core} {b : Booking} {c : Core} (hstop : ∀ o c, Timed c0 c → Timed c0 (stop o c)) (hok : Timed c0 c) : Timed c0 (endRecording stop b c) := by
  unfold endRecording
  try dsimp only
  with_reducible repeat' first
    | assumption
    | apply hstop
    | apply setBooking_timed
    | apply commitBooking_timed
    | apply postBookingState_timed
    | split

theorem judgeExtended_timed {stop : Output → Core → Core} {c : Core} {id : Nat} (hstop : ∀ o c, Timed c0 c → Timed c0 (stop o c)) (hok : Timed c0 c) : Timed c0 (judgeExtended stop c id) := by
  unfold judgeExtended
  try dsimp only
  with_reducible repeat' first
    | assumption
    | apply hstop
    | (refine ite_timed ?_ ?_)
    | apply endRecording_timed
    | split

theorem markerChanged_timed {stop : Output → Core → Core} {lcn : Nat} {c : Core} (hstop : ∀ o c, Timed c0 c → Timed c0 (stop o c)) (hok : Timed c0 c) : Timed c0 (markerChanged stop lcn c) := by
  unfold markerChanged
  try dsimp only
  with_reducible repeat' first
    | assumption
    | apply hstop
    | (refine foldl_timed ?_ ?_)
    | apply judgeExtended_timed
    | intro _

theorem removeMarkers_timed {stop : Output → Core → Core} {p : Marker → Bool} {c : Core} (hstop : ∀ o c, Timed c0 c → Timed c0 (stop o c)) (hok : Timed c0 c) : Timed c0 (removeMarkers stop p c) := by
  unfold removeMarkers
  try dsimp only
  with_reducible repeat' first
    | assumption
    | apply hstop
    | (refine foldl_timed ?_ ?_)
    | apply markerChanged_timed
    | intro _
    | (refine guide_timed ?_)

theorem carrierUnlocked_timed {stop : Output → Core → Core} {x : Option Carrier} {c : Core} (hstop : ∀ o c, Timed c0 c → Timed c0 (stop o c)) (hok : Timed c0 c) : Timed c0 (carrierUnlocked stop x c) := by
  unfold carrierUnlocked
  try dsimp only
  with_reducible repeat' first
    | assumption
    | apply hstop
    | apply testPresent_timed
    | apply removeMarkers_timed
    | split

theorem handLeft_timed {stop : Output → Core → Core} {t : Fin 4} {u : Tuner} {c : Core} (hstop : ∀ o c, Timed c0 c → Timed c0 (stop o c)) (hok : Timed c0 c) : Timed c0 (handLeft stop t u c) := by
  unfold handLeft
  try dsimp only
  with_reducible repeat' first
    | assumption
    | apply hstop
    | (refine ite_timed ?_ ?_)
    | apply setLaneMap_timed
    | apply closeTunerSlots_timed
    | apply settleControl_timed
    | apply watchTest_timed
    | apply carrierUnlocked_timed

theorem goOff_timed {stop : Output → Core → Core} {t : Fin 4} {c : Core} (hstop : ∀ o c, Timed c0 c → Timed c0 (stop o c)) (hok : Timed c0 c) : Timed c0 (goOff stop t c) := by
  unfold goOff
  try dsimp only
  with_reducible repeat' first
    | assumption
    | apply hstop
    | apply turnOff_timed
    | apply handLeft_timed

theorem releaseFrom_timed {stop : Output → Core → Core} {x : Claimant} {t : Fin 4} {c : Core} (hstop : ∀ o c, Timed c0 c → Timed c0 (stop o c)) (hok : Timed c0 c) : Timed c0 (releaseFrom stop x t c) := by
  unfold releaseFrom
  try dsimp only
  with_reducible repeat' first
    | assumption
    | apply hstop
    | (refine ite_timed ?_ ?_)
    | apply setHolder_timed
    | apply goOff_timed

theorem releaseWith_timed {stop : Output → Core → Core} {x : Claimant} {c : Core} (hstop : ∀ o c, Timed c0 c → Timed c0 (stop o c)) (hok : Timed c0 c) : Timed c0 (releaseWith stop x c) := by
  unfold releaseWith
  try dsimp only
  with_reducible repeat' first
    | assumption
    | apply hstop
    | apply releaseFrom_timed
    | split

theorem handStop_timed {origin : Origin} {c : Core} (hok : Timed c0 c) : Timed c0 (handStop origin c) := by
  unfold handStop
  try dsimp only
  with_reducible repeat' first
    | assumption
    | apply bookingOutcome_timed
    | split

theorem stopBody_timed {rel : Claimant → Core → Core} {o : Output} {c : Core} (hrel : ∀ o c, Timed c0 c → Timed c0 (rel o c)) (hok : Timed c0 c) : Timed c0 (stopBody rel o c) := by
  unfold stopBody
  try dsimp only
  with_reducible repeat' first
    | assumption
    | apply hrel
    | (refine ite_timed ?_ ?_)
    | apply setSession_timed
    | apply post_timed
    | apply unbindKey_timed
    | apply postSession_timed
    | apply handStop_timed

theorem stopN_timed (n : Nat) : ∀ (o : Output) (c : Core), Timed c0 c → Timed c0 (stopN n o c) := by
  induction n with
  | zero => exact fun _ _ h => h
  | succ n ih =>
    intro o c h
    exact stopBody_timed (fun x c hc => releaseWith_timed ih hc) h

theorem stopSession_timed {o : Output} {c : Core} (h : Timed c0 c) : Timed c0 (stopSession o c) := stopN_timed 33 o c h

theorem release_timed {x : Claimant} {c : Core} (h : Timed c0 c) : Timed c0 (release x c) :=
  releaseWith_timed (fun o c hc => stopN_timed 33 o c hc) h

theorem watchEnds_timed {c : Core} (hok : Timed c0 c) : Timed c0 (watchEnds c) := by
  unfold watchEnds
  try dsimp only
  with_reducible repeat' first
    | assumption
    | apply release_timed
    | apply stopHold_timed

theorem watchFailed_timed {c : Core} (hok : Timed c0 c) : Timed c0 (watchFailed c) := by
  unfold watchFailed
  try dsimp only
  with_reducible repeat' first
    | assumption
    | apply startHold_timed

theorem closeSchedule_timed {c : Core} (hok : Timed c0 c) : Timed c0 (closeSchedule c) := by
  unfold closeSchedule
  try dsimp only
  with_reducible repeat' first
    | assumption
    | apply closeWhere_timed

theorem endSweep_timed {c : Core} (hok : Timed c0 c) : Timed c0 (endSweep c) := by
  unfold endSweep
  try dsimp only
  with_reducible repeat' first
    | assumption
    | apply release_timed
    | apply closeSchedule_timed
    | (refine guide_timed ?_)

theorem openSchedule_timed {t : Fin 4} {c : Core} (hok : Timed c0 c) : Timed c0 (openSchedule t c) := by
  unfold openSchedule
  try dsimp only
  with_reducible repeat' first
    | assumption
    | apply openFilter_timed

theorem sweepLocked_timed {t : Fin 4} {c : Core} (hok : Timed c0 c) : Timed c0 (sweepLocked t c) := by
  unfold sweepLocked
  try dsimp only
  with_reducible repeat' first
    | assumption
    | (refine ite_timed ?_ ?_)
    | apply openSchedule_timed
    | (refine guide_timed ?_)

theorem holdTerminal_timed {o : Output} {r : Reasons} {outcome : ChangeOutcome} {reasons : Option Reasons} {c : Core} (hok : Timed c0 c) : Timed c0 (holdTerminal o r outcome reasons c) := by
  unfold holdTerminal
  try dsimp only
  with_reducible repeat' first
    | assumption
    | (refine ite_timed ?_ ?_)
    | apply setSession_timed
    | apply release_timed
    | apply unbindKey_timed
    | apply endChange_timed
    | apply postSession_timed

theorem loseService_timed {o : Output} {c : Core} (hok : Timed c0 c) : Timed c0 (loseService o c) := by
  unfold loseService
  try dsimp only
  with_reducible repeat' first
    | assumption
    | apply holdTerminal_timed

theorem tellTaken_timed {c : Core} {x : Claimant} (hok : Timed c0 c) : Timed c0 (tellTaken c x) := by
  unfold tellTaken
  try dsimp only
  with_reducible repeat' first
    | assumption
    | apply watchFailed_timed
    | apply endSweep_timed
    | apply holdTerminal_timed
    | split

theorem tellNoSignal_timed {c : Core} {x : Claimant} (hok : Timed c0 c) : Timed c0 (tellNoSignal c x) := by
  unfold tellNoSignal
  try dsimp only
  with_reducible repeat' first
    | assumption
    | apply setSession_timed
    | apply unbindKey_timed
    | apply endChange_timed
    | apply watchFailed_timed
    | apply endSweep_timed
    | split

theorem leaveOld_timed {x : Claimant} {old : Option (Fin 4)} {t : Fin 4} {c : Core} (hok : Timed c0 c) : Timed c0 (leaveOld x old t c) := by
  unfold leaveOld
  try dsimp only
  with_reducible repeat' first
    | assumption
    | (refine ite_timed ?_ ?_)
    | apply stopSession_timed
    | apply releaseFrom_timed
    | split

theorem carryOut_timed {x : Claimant} {car : Carrier} {p : Plan} {c : Core} (hok : Timed c0 c) : Timed c0 (carryOut x car p c) := by
  unfold carryOut
  try dsimp only
  with_reducible repeat' first
    | assumption
    | (refine ite_timed ?_ ?_)
    | (refine foldl_timed ?_ ?_)
    | apply stopSession_timed
    | apply tune_timed
    | apply setHolder_timed
    | apply handLeft_timed
    | apply watchEnds_timed
    | apply tellTaken_timed
    | apply leaveOld_timed
    | intro _
    | split

theorem watchReclaim_timed {c : Core} (hok : Timed c0 c) : Timed c0 (watchReclaim c) := by
  unfold watchReclaim
  try dsimp only
  with_reducible repeat' first
    | assumption
    | apply release_timed
    | apply startHold_timed
    | apply watchTest_timed
    | apply carryOut_timed
    | split

theorem toldLocked_timed {t : Fin 4} {c : Core} (hok : Timed c0 c) : Timed c0 (toldLocked t c) := by
  unfold toldLocked
  try dsimp only
  with_reducible repeat' first
    | assumption
    | (refine ite_timed ?_ ?_)
    | apply watchEnds_timed

theorem sessionLocked_timed {t : Fin 4} {c : Core} {o : Output} (hok : Timed c0 c) : Timed c0 (sessionLocked t c o) := by
  unfold sessionLocked
  try dsimp only
  with_reducible repeat' first
    | assumption
    | (refine ite_timed ?_ ?_)
    | apply setSession_timed
    | apply tryChecking_timed

theorem acquired_timed {t : Fin 4} {c : Core} (hok : Timed c0 c) : Timed c0 (acquired t c) := by
  unfold acquired
  try dsimp only
  with_reducible repeat' first
    | assumption
    | (refine ite_timed ?_ ?_)
    | (refine foldl_timed ?_ ?_)
    | apply setTuner_timed
    | apply openFilter_timed
    | apply settleControl_timed
    | apply sweepLocked_timed
    | apply toldLocked_timed
    | apply sessionLocked_timed

theorem regained_timed {t : Fin 4} {c : Core} (hok : Timed c0 c) : Timed c0 (regained t c) := by
  unfold regained
  try dsimp only
  with_reducible repeat' first
    | assumption
    | (refine foldl_timed ?_ ?_)
    | apply setTuner_timed
    | apply settleControl_timed
    | apply signalRegained_timed
    | apply toldLocked_timed
    | intro _

theorem lost_timed {t : Fin 4} {c : Core} (hok : Timed c0 c) : Timed c0 (lost t c) := by
  unfold lost
  try dsimp only
  with_reducible repeat' first
    | assumption
    | (refine ite_timed ?_ ?_)
    | (refine foldl_timed ?_ ?_)
    | apply setTuner_timed
    | apply stopSession_timed
    | apply settleControl_timed
    | apply discardAssembly_timed
    | apply signalLost_timed
    | apply watchTest_timed
    | apply carrierUnlocked_timed
    | intro _

theorem lockReport_timed {t : Fin 4} {count : BitVec 4} {c : Core} (hok : Timed c0 c) : Timed c0 (lockReport t count c) := by
  unfold lockReport
  try dsimp only
  with_reducible repeat' first
    | assumption
    | (refine ite_timed ?_ ?_)
    | apply acquired_timed
    | apply regained_timed
    | split

theorem lossReport_timed {t : Fin 4} {count : BitVec 4} {c : Core} (hok : Timed c0 c) : Timed c0 (lossReport t count c) := by
  unfold lossReport
  try dsimp only
  with_reducible repeat' first
    | assumption
    | (refine ite_timed ?_ ?_)
    | apply lost_timed

theorem acquisitionFailed_timed {t : Fin 4} {c : Core} (hok : Timed c0 c) : Timed c0 (acquisitionFailed t c) := by
  unfold acquisitionFailed
  try dsimp only
  with_reducible repeat' first
    | assumption
    | (refine ite_timed ?_ ?_)
    | (refine foldl_timed ?_ ?_)
    | apply stopSession_timed
    | apply turnOff_timed
    | apply handLeft_timed
    | apply tellNoSignal_timed

theorem lossTimerExpired_timed {t : Fin 4} {c : Core} (hok : Timed c0 c) : Timed c0 (lossTimerExpired t c) := by
  unfold lossTimerExpired
  try dsimp only
  with_reducible repeat' first
    | assumption
    | (refine ite_timed ?_ ?_)
    | apply setTuner_timed
    | apply post_timed

theorem holdExpired_timed {c : Core} (hok : Timed c0 c) : Timed c0 (holdExpired c) := by
  unfold holdExpired
  try dsimp only
  with_reducible repeat' first
    | assumption
    | (refine ite_timed ?_ ?_)
    | apply watchTest_timed
    | (refine clock_timed ?_ rfl rfl rfl rfl rfl)

theorem claimFor_timed {o : Output} {lcn : Nat} {x : Carrier} {tag : ChangeTag} {origin : Origin} {m : ClaimMode} {refusedBy : Core → Core} {c : Core} (hrefusedBy : ∀ c, Timed c0 c → Timed c0 (refusedBy c)) (hok : Timed c0 c) : Timed c0 (claimFor o lcn x tag origin m refusedBy c) := by
  unfold claimFor
  try dsimp only
  with_reducible repeat' first
    | assumption
    | apply hrefusedBy
    | (refine ite_timed ?_ ?_)
    | apply setSession_timed
    | apply tryChecking_timed
    | apply carryOut_timed
    | split

theorem toIdle_timed {o : Output} {c : Core} (hok : Timed c0 c) : Timed c0 (toIdle o c) := by
  unfold toIdle
  try dsimp only
  with_reducible repeat' first
    | assumption
    | apply setSession_timed
    | apply release_timed
    | apply unbindKey_timed

theorem changeRefused_timed {o : Output} {lcn : Nat} {tag : ChangeTag} {origin : Origin} {superseded : Bool} {c : Core} (hok : Timed c0 c) : Timed c0 (changeRefused o lcn tag origin superseded c) := by
  unfold changeRefused
  try dsimp only
  with_reducible repeat' first
    | assumption
    | (refine ite_timed ?_ ?_)
    | apply endChange_timed
    | apply toIdle_timed

theorem supersede_timed {o : Output} {c : Core} (hok : Timed c0 c) : Timed c0 (supersede o c) := by
  unfold supersede
  try dsimp only
  with_reducible repeat' first
    | assumption
    | (refine ite_timed ?_ ?_)
    | apply setSession_timed
    | apply endChange_timed

theorem beginChange_timed {o : Output} {lcn : Nat} {e : ChannelEntry} {tag : ChangeTag} {origin : Origin} {m : ClaimMode} {superseded : Bool} {c : Core} (hok : Timed c0 c) : Timed c0 (beginChange o lcn e tag origin m superseded c) := by
  unfold beginChange
  try dsimp only
  with_reducible repeat' first
    | assumption
    | apply setSession_timed
    | apply loseService_timed
    | apply claimFor_timed
    | apply changeRefused_timed
    | split

theorem select_timed {o : Output} {lcn : Nat} {e : ChannelEntry} {tag : ChangeTag} {origin : Origin} {m : ClaimMode} {c : Core} (hok : Timed c0 c) : Timed c0 (select o lcn e tag origin m c) := by
  unfold select
  try dsimp only
  with_reducible repeat' first
    | assumption
    | apply supersede_timed
    | apply beginChange_timed

theorem endGrant_timed {o : Output} {c : Core} (hok : Timed c0 c) : Timed c0 (endGrant o c) := by
  unfold endGrant
  try dsimp only
  with_reducible repeat' first
    | assumption
    | apply setContext_timed
    | split

theorem laneEntryChanged_timed {t : Fin 4} {e : LaneEntry} {c : Core} {o : Output} (hok : Timed c0 c) : Timed c0 (laneEntryChanged t e c o) := by
  unfold laneEntryChanged
  try dsimp only
  with_reducible repeat' first
    | assumption
    | (refine ite_timed ?_ ?_)
    | apply setSession_timed
    | apply bindService_timed
    | apply enterChecking_timed
    | apply reevaluate_timed

theorem laneEntryRemoved_timed {t : Fin 4} {n : Nat} {c : Core} {o : Output} (hok : Timed c0 c) : Timed c0 (laneEntryRemoved t n c o) := by
  unfold laneEntryRemoved
  try dsimp only
  with_reducible repeat' first
    | assumption
    | (refine ite_timed ?_ ?_)
    | apply setSession_timed
    | apply postSession_timed

theorem takeLaneEntry_timed {t : Fin 4} {version : Nat} {c : Core} {e : LaneEntry} (hok : Timed c0 c) : Timed c0 (takeLaneEntry t version c e) := by
  unfold takeLaneEntry
  try dsimp only
  with_reducible repeat' first
    | assumption
    | (refine ite_timed ?_ ?_)
    | (refine foldl_timed ?_ ?_)
    | apply setLaneMap_timed
    | apply laneEntryChanged_timed

theorem completeLaneMap_timed {t : Fin 4} {version : Nat} {c : Core} (hok : Timed c0 c) : Timed c0 (completeLaneMap t version c) := by
  unfold completeLaneMap
  try dsimp only
  with_reducible repeat' first
    | assumption
    | (refine foldl_timed ?_ ?_)
    | apply setLaneMap_timed
    | apply laneEntryRemoved_timed
    | intro _

theorem takeLaneMap_timed {t : Fin 4} {h : SegmentHeader} {entries : List LaneEntry} {c : Core} (hok : Timed c0 c) : Timed c0 (takeLaneMap t h entries c) := by
  unfold takeLaneMap
  try dsimp only
  with_reducible repeat' first
    | assumption
    | (refine ite_timed ?_ ?_)
    | (refine foldl_timed ?_ ?_)
    | apply setLaneMap_timed
    | apply takeLaneEntry_timed
    | apply completeLaneMap_timed

theorem moveSession_timed {o : Output} {old : Carrier} {new : Carrier} {c : Core} (hok : Timed c0 c) : Timed c0 (moveSession o old new c) := by
  unfold moveSession
  try dsimp only
  with_reducible repeat' first
    | assumption
    | (refine ite_timed ?_ ?_)
    | apply post_timed
    | apply endChange_timed
    | apply claimFor_timed
    | apply toIdle_timed
    | intro _
    | split

theorem renumberSession_timed {o : Output} {c : Core} (hok : Timed c0 c) : Timed c0 (renumberSession o c) := by
  unfold renumberSession
  try dsimp only
  with_reducible repeat' first
    | assumption
    | apply setSession_timed
    | apply tryChecking_timed
    | apply reopen_timed
    | split

theorem reportSession_timed {cls : Nat → ChangeClass × Option Carrier × Option Carrier} {c : Core} {o : Output} (hok : Timed c0 c) : Timed c0 (reportSession cls c o) := by
  unfold reportSession
  try dsimp only
  with_reducible repeat' first
    | assumption
    | (refine ite_timed ?_ ?_)
    | apply loseService_timed
    | apply moveSession_timed
    | apply renumberSession_timed
    | split

theorem reportToSessions_timed {cls : Nat → ChangeClass × Option Carrier × Option Carrier} {c : Core} (hok : Timed c0 c) : Timed c0 (reportToSessions cls c) := by
  unfold reportToSessions
  try dsimp only
  with_reducible repeat' first
    | assumption
    | (refine foldl_timed ?_ ?_)
    | apply reevaluate_timed
    | apply reportSession_timed

theorem laneWaitExpired_timed {o : Output} {c : Core} (hok : Timed c0 c) : Timed c0 (laneWaitExpired o c) := by
  unfold laneWaitExpired
  try dsimp only
  with_reducible repeat' first
    | assumption
    | (refine ite_timed ?_ ?_)
    | apply setSession_timed
    | apply loseService_timed

theorem keyWaitExpired_timed {o : Output} {c : Core} (hok : Timed c0 c) : Timed c0 (keyWaitExpired o c) := by
  unfold keyWaitExpired
  try dsimp only
  with_reducible repeat' first
    | assumption
    | (refine ite_timed ?_ ?_)
    | apply setSession_timed
    | apply arrive_timed

theorem setEvents_timed {l : List EventGrant} {c : Core} (hok : Timed c0 c) : Timed c0 (setEvents l c) := by
  unfold setEvents
  try dsimp only
  with_reducible repeat' first
    | assumption
    | (refine access_timed ?_)

theorem setPackages_timed {l : List PackageGrant} {c : Core} (hok : Timed c0 c) : Timed c0 (setPackages l c) := by
  unfold setPackages
  try dsimp only
  with_reducible repeat' first
    | assumption
    | (refine access_timed ?_)

theorem commitGroup_timed {credit : Bool} {c : Core} (hok : Timed c0 c) : Timed c0 (commitGroup credit c) := by
  unfold commitGroup
  try dsimp only
  with_reducible repeat' first
    | assumption
    | exact offer_timed (by assumption) (by assumption)
    | apply offer_timed (by assumption)
    | split
    | (refine access_timed ?_)

theorem postGrants_timed {cause : GrantsCause} {c : Core} (hok : Timed c0 c) : Timed c0 (postGrants cause c) := by
  unfold postGrants
  try dsimp only
  with_reducible repeat' first
    | assumption
    | apply post_timed

theorem expireEvents_timed {now : Nat} {c : Core} (hok : Timed c0 c) : Timed c0 (expireEvents now c) := by
  unfold expireEvents
  try dsimp only
  with_reducible repeat' first
    | assumption
    | (refine ite_timed ?_ ?_)
    | apply reevaluate_timed
    | apply setEvents_timed
    | apply commitGroup_timed
    | apply postGrants_timed

theorem expirePackages_timed {today : Int} {c : Core} (hok : Timed c0 c) : Timed c0 (expirePackages today c) := by
  unfold expirePackages
  try dsimp only
  with_reducible repeat' first
    | assumption
    | (refine ite_timed ?_ ?_)
    | apply reevaluate_timed
    | apply setPackages_timed
    | apply commitGroup_timed
    | apply postGrants_timed

theorem wipeAccess_timed {c : Core} (hok : Timed c0 c) : Timed c0 (wipeAccess c) := by
  unfold wipeAccess
  try dsimp only
  with_reducible repeat' first
    | assumption
    | apply reevaluate_timed
    | apply postGrants_timed
    | (refine access_timed ?_)

theorem commitLimit_timed {k : LimitCommit} {c : Core} (hok : Timed c0 c) : Timed c0 (commitLimit k c).2 := by
  unfold commitLimit
  try dsimp only
  with_reducible repeat' first
    | assumption
    | apply setLimits_timed
    | exact offer_timed (by assumption) (by assumption)
    | apply offer_timed (by assumption)
    | split

theorem commitLimit_timed' {k : LimitCommit} {c : Core} {ans : OfferAnswer} {c' : Core} (e : commitLimit k c = (ans, c')) (hok : Timed c0 c) : Timed c0 c' := by
  have := commitLimit_timed (k := k) (c := c) hok
  rw [e] at this; exact this

theorem commitLimit'_timed {k : LimitCommit} {c : Core} (hok : Timed c0 c) : Timed c0 (commitLimit' k c) := by
  unfold commitLimit'
  try dsimp only
  with_reducible repeat' first
    | assumption
    | apply commitLimit_timed

theorem pinFailure_timed {c : Core} (hok : Timed c0 c) : Timed c0 (pinFailure c) := by
  unfold pinFailure
  try dsimp only
  with_reducible repeat' first
    | assumption
    | (refine ite_timed ?_ ?_)
    | apply setLimits_timed
    | apply post_timed
    | apply commitLimit_timed

theorem pinSuccess_timed {c : Core} (hok : Timed c0 c) : Timed c0 (pinSuccess c) := by
  unfold pinSuccess
  try dsimp only
  with_reducible repeat' first
    | assumption
    | (refine ite_timed ?_ ?_)
    | apply setLimits_timed
    | apply commitLimit'_timed

theorem pinCheck_timed {p : Option Pin} {c : Core} (hok : Timed c0 c) : Timed c0 (pinCheck p c).2 := by
  unfold pinCheck
  try dsimp only
  with_reducible repeat' first
    | assumption
    | (refine ite_timed ?_ ?_)
    | apply pinFailure_timed
    | apply pinSuccess_timed
    | (refine ite_timed2 ?_ ?_)
    | split

theorem pinCheck_timed' {p : Option Pin} {c : Core} {ans : PinAnswer} {c' : Core} (e : pinCheck p c = (ans, c')) (hok : Timed c0 c) : Timed c0 c' := by
  have := pinCheck_timed (p := p) (c := c) hok
  rw [e] at this; exact this

theorem lockoutExpired_timed {c : Core} (hok : Timed c0 c) : Timed c0 (lockoutExpired c) := by
  unfold lockoutExpired
  try dsimp only
  with_reducible repeat' first
    | assumption
    | (refine ite_timed ?_ ?_)
    | apply setLimits_timed
    | apply commitLimit'_timed

theorem pinReported_timed {writing : Bool} {c : Core} (hok : Timed c0 c) : Timed c0 (pinReported writing c) := by
  unfold pinReported
  try dsimp only
  with_reducible repeat' first
    | assumption
    | apply setLimits_timed
    | (refine ite_timed ?_ ?_)

theorem relockContext_timed {r : Room} {c : Core} (hok : Timed c0 c) : Timed c0 (relockContext r c) := by
  unfold relockContext
  try dsimp only
  with_reducible repeat' first
    | assumption
    | apply setContext_timed

theorem setDefault_timed {r : Room} {n : Nat} {c : Core} (hok : Timed c0 c) : Timed c0 (setDefault r n c) := by
  unfold setDefault
  try dsimp only
  with_reducible repeat' first
    | assumption
    | apply setContext_timed

theorem restartContexts_timed {c : Core} (hok : Timed c0 c) : Timed c0 (restartContexts c) := by
  unfold restartContexts
  try dsimp only
  with_reducible repeat' first
    | assumption
    | apply setContext_timed

theorem putProfile_timed {n : Nat} {p : Option Profile} {c : Core} (hok : Timed c0 c) : Timed c0 (putProfile n p c) := by
  unfold putProfile
  try dsimp only
  with_reducible repeat' first
    | assumption
    | (refine ite_timed ?_ ?_)
    | apply setLimits_timed
    | split

theorem removeProfile_timed {n : Nat} {c : Core} (hok : Timed c0 c) : Timed c0 (removeProfile n c) := by
  unfold removeProfile
  try dsimp only
  with_reducible repeat' first
    | assumption
    | (refine ite_timed ?_ ?_)
    | apply setContext_timed
    | apply commitLimit'_timed
    | apply putProfile_timed

theorem applyProfile_timed {n : Nat} {f : Option ProfileFields} {c : Core} (hok : Timed c0 c) : Timed c0 (applyProfile n f c) := by
  unfold applyProfile
  try dsimp only
  with_reducible repeat' first
    | assumption
    | (refine ite_timed ?_ ?_)
    | apply reevaluate_timed
    | apply commitLimit'_timed
    | apply putProfile_timed
    | apply removeProfile_timed
    | split

theorem reportToLocks_timed {vanished : Nat → Bool} {c : Core} (hok : Timed c0 c) : Timed c0 (reportToLocks vanished c) := by
  unfold reportToLocks
  try dsimp only
  with_reducible repeat' first
    | assumption
    | (refine ite_timed ?_ ?_)
    | apply setLimits_timed
    | apply commitLimit'_timed

theorem limitMinute_timed {c : Core} (hok : Timed c0 c) : Timed c0 (limitMinute c) := by
  unfold limitMinute
  try dsimp only
  with_reducible repeat' first
    | assumption
    | (refine ite_timed ?_ ?_)
    | apply reevaluate_timed
    | intro _
    | split

theorem limitClockChanged_timed {c : Core} (hok : Timed c0 c) : Timed c0 (limitClockChanged c) := by
  unfold limitClockChanged
  try dsimp only
  with_reducible repeat' first
    | assumption
    | (refine ite_timed ?_ ?_)
    | apply reevaluate_timed

theorem charge_timed {c : Core} {n : Nat} (hok : Timed c0 c) : Timed c0 (charge c n) := by
  unfold charge
  try dsimp only
  with_reducible repeat' first
    | assumption
    | (refine ite_timed ?_ ?_)
    | apply post_timed
    | apply reevaluate_timed
    | apply commitLimit'_timed
    | apply putProfile_timed
    | split

theorem allowanceMinute_timed {c : Core} (hok : Timed c0 c) : Timed c0 (allowanceMinute c) := by
  unfold allowanceMinute
  try dsimp only
  with_reducible repeat' first
    | assumption
    | (refine ite_timed ?_ ?_)
    | (refine foldl_timed ?_ ?_)
    | apply setLimits_timed
    | apply charge_timed

theorem limitRollover_timed {c : Core} (hok : Timed c0 c) : Timed c0 (limitRollover c) := by
  unfold limitRollover
  try dsimp only
  with_reducible repeat' first
    | assumption
    | apply setLimits_timed
    | apply reevaluate_timed
    | apply commitLimit'_timed

theorem wipeLimits_timed {c : Core} (hok : Timed c0 c) : Timed c0 (wipeLimits c) := by
  unfold wipeLimits
  try dsimp only
  with_reducible repeat' first
    | assumption
    | apply setContext_timed
    | apply setLimits_timed
    | apply reevaluate_timed

theorem startReportTimer_timed {c : Core} (hok : Timed c0 c) : Timed c0 (startReportTimer c) := by
  unfold startReportTimer
  try dsimp only
  with_reducible repeat' first
    | assumption
    | (refine ite_timed ?_ ?_)
    | apply setUplinkState_timed

theorem stopReportTimer_timed {c : Core} (hok : Timed c0 c) : Timed c0 (stopReportTimer c) := by
  unfold stopReportTimer
  try dsimp only
  with_reducible repeat' first
    | assumption
    | apply setUplinkState_timed

theorem becameUnreported_timed {before : Nat} {c : Core} (hok : Timed c0 c) : Timed c0 (becameUnreported before c) := by
  unfold becameUnreported
  try dsimp only
  with_reducible repeat' first
    | assumption
    | (refine ite_timed ?_ ?_)
    | apply startReportTimer_timed

theorem stopIfReported_timed {c : Core} (hok : Timed c0 c) : Timed c0 (stopIfReported c) := by
  unfold stopIfReported
  try dsimp only
  with_reducible repeat' first
    | assumption
    | (refine ite_timed ?_ ?_)
    | apply stopReportTimer_timed

theorem handReport_timed {records : List PurchaseRecord} {parity : Bool} {c : Core} (hok : Timed c0 c) : Timed c0 (handReport records parity c) := by
  unfold handReport
  try dsimp only
  with_reducible repeat' first
    | assumption
    | apply setUplinkState_timed

theorem sendReport_timed {c : Core} (hok : Timed c0 c) : Timed c0 (sendReport c) := by
  unfold sendReport
  try dsimp only
  with_reducible repeat' first
    | assumption
    | apply setUplinkState_timed
    | apply handReport_timed

theorem dueTest_timed {c : Core} (hok : Timed c0 c) : Timed c0 (dueTest c) := by
  unfold dueTest
  try dsimp only
  with_reducible repeat' first
    | assumption
    | (refine ite_timed ?_ ?_)
    | apply setUplinkState_timed
    | apply sendReport_timed

theorem commitLogAck_timed {c : Core} (hok : Timed c0 c) : Timed c0 (commitLogAck c) := by
  unfold commitLogAck
  try dsimp only
  with_reducible repeat' first
    | assumption
    | apply setPurchase_timed
    | exact offer_timed (by assumption) (by assumption)
    | apply offer_timed (by assumption)
    | split

theorem acknowledged_timed {c : Core} (hok : Timed c0 c) : Timed c0 (acknowledged c) := by
  unfold acknowledged
  try dsimp only
  with_reducible repeat' first
    | assumption
    | apply setUplinkState_timed

theorem markReported_timed {b : Bool} {c : Core} (hok : Timed c0 c) : Timed c0 (markReported b c) := by
  unfold markReported
  try dsimp only
  with_reducible repeat' first
    | assumption
    | (refine ite_timed ?_ ?_)
    | apply setPurchase_timed

theorem failure_timed {c : Core} (hok : Timed c0 c) : Timed c0 (failure c) := by
  unfold failure
  try dsimp only
  with_reducible repeat' first
    | assumption
    | (refine ite_timed ?_ ?_)
    | apply setUplinkState_timed
    | apply post_timed
    | apply release_timed
    | apply becameUnreported_timed
    | apply markReported_timed

theorem testRecovery_timed {c : Core} (hok : Timed c0 c) : Timed c0 (testRecovery c) := by
  unfold testRecovery
  try dsimp only
  with_reducible repeat' first
    | assumption
    | (refine ite_timed ?_ ?_)
    | apply setUplinkState_timed
    | apply post_timed
    | apply release_timed
    | apply dueTest_timed

theorem applyUplink_timed {m : Recovery} {interval : Nat} {c : Core} (hok : Timed c0 c) : Timed c0 (applyUplink m interval c) := by
  unfold applyUplink
  try dsimp only
  with_reducible repeat' first
    | assumption
    | (refine ite_timed ?_ ?_)
    | apply setUplinkState_timed
    | apply startReportTimer_timed
    | apply stopReportTimer_timed
    | apply testRecovery_timed

theorem setRecords_timed {l : List EventRecord} {c : Core} (hok : Timed c0 c) : Timed c0 (setRecords l c) := by
  unfold setRecords
  try dsimp only
  with_reducible repeat' first
    | assumption
    | apply setGuide_timed

theorem followRecord_timed {r : EventRecord} {c : Core} {id : Nat} (hok : Timed c0 c) : Timed c0 (followRecord r c id) := by
  unfold followRecord
  try dsimp only
  with_reducible repeat' first
    | assumption
    | (refine ite_timed ?_ ?_)
    | apply setBooking_timed
    | apply commitBooking_timed
    | split

theorem recordInserted_timed {r : EventRecord} {c : Core} (hok : Timed c0 c) : Timed c0 (recordInserted r c) := by
  unfold recordInserted
  try dsimp only
  with_reducible repeat' first
    | assumption
    | (refine foldl_timed ?_ ?_)
    | apply followRecord_timed

theorem insertRecord_timed {n : EventRecord} {c : Core} (hok : Timed c0 c) : Timed c0 (insertRecord n c) := by
  unfold insertRecord
  try dsimp only
  with_reducible repeat' first
    | assumption
    | (refine ite_timed ?_ ?_)
    | apply setRecords_timed
    | apply recordInserted_timed
    | intro _
    | split

theorem offerRecord_timed {s : Source} {c : Core} {r : OfferedRecord} (hok : Timed c0 c) : Timed c0 (offerRecord s c r) := by
  unfold offerRecord
  try dsimp only
  with_reducible repeat' first
    | assumption
    | (refine ite_timed ?_ ?_)
    | apply insertRecord_timed

theorem minutePurge_timed {c : Core} (hok : Timed c0 c) : Timed c0 (minutePurge c) := by
  unfold minutePurge
  try dsimp only
  with_reducible repeat' first
    | assumption
    | apply setRecords_timed
    | intro _
    | split

theorem setBlock_timed {k : Fin 8} {x : BlockState} {c : Core} (hok : Timed c0 c) : Timed c0 (setBlock k x c) := by
  unfold setBlock
  try dsimp only
  with_reducible repeat' first
    | assumption
    | apply setGuide_timed

theorem completeSweep_timed {c : Core} (hok : Timed c0 c) : Timed c0 (completeSweep c) := by
  unfold completeSweep
  try dsimp only
  with_reducible repeat' first
    | assumption
    | apply setGuide_timed
    | apply post_timed
    | apply release_timed
    | apply closeSchedule_timed

theorem completeBlock_timed {k : Fin 8} {version : Nat} {c : Core} (hok : Timed c0 c) : Timed c0 (completeBlock k version c) := by
  unfold completeBlock
  try dsimp only
  with_reducible repeat' first
    | assumption
    | (refine ite_timed ?_ ?_)
    | apply testPresent_timed
    | apply setRecords_timed
    | apply setBlock_timed
    | apply completeSweep_timed

theorem takeSchedule_timed {h : SegmentHeader} {rs : List OfferedRecord} {c : Core} (hok : Timed c0 c) : Timed c0 (takeSchedule h rs c) := by
  unfold takeSchedule
  try dsimp only
  with_reducible repeat' first
    | assumption
    | (refine ite_timed ?_ ?_)
    | (refine foldl_timed ?_ ?_)
    | apply testPresent_timed
    | apply offerRecord_timed
    | apply setBlock_timed
    | apply completeBlock_timed
    | intro _
    | split

theorem guideRollover_timed {c : Core} (hok : Timed c0 c) : Timed c0 (guideRollover c) := by
  unfold guideRollover
  try dsimp only
  with_reducible repeat' first
    | assumption
    | apply setGuide_timed

theorem putMarker_timed {m : Marker} {c : Core} (hok : Timed c0 c) : Timed c0 (putMarker m c) := by
  unfold putMarker
  try dsimp only
  with_reducible repeat' first
    | assumption
    | apply setGuide_timed
    | apply stopSession_timed
    | apply markerChanged_timed

theorem takePresentEntry_timed {x : Carrier} {c : Core} {e : PresentNextEntry} (hok : Timed c0 c) : Timed c0 (takePresentEntry x c e) := by
  unfold takePresentEntry
  try dsimp only
  with_reducible repeat' first
    | assumption
    | (refine ite_timed ?_ ?_)
    | apply stopSession_timed
    | apply removeMarkers_timed
    | apply offerRecord_timed
    | apply putMarker_timed
    | split

theorem takePresentNext_timed {t : Fin 4} {es : List PresentNextEntry} {c : Core} (hok : Timed c0 c) : Timed c0 (takePresentNext t es c) := by
  unfold takePresentNext
  try dsimp only
  with_reducible repeat' first
    | assumption
    | (refine foldl_timed ?_ ?_)
    | apply testPresent_timed
    | apply takePresentEntry_timed
    | intro _
    | split

theorem dropUnusedMarkers_timed {c : Core} (hok : Timed c0 c) : Timed c0 (dropUnusedMarkers c) := by
  unfold dropUnusedMarkers
  try dsimp only
  with_reducible repeat' first
    | assumption
    | apply stopSession_timed
    | apply removeMarkers_timed

theorem beginSweep_timed {c : Core} (hok : Timed c0 c) : Timed c0 (beginSweep c) := by
  unfold beginSweep
  try dsimp only
  with_reducible repeat' first
    | assumption
    | (refine ite_timed ?_ ?_)
    | (refine foldl_timed ?_ ?_)
    | apply setGuide_timed
    | apply endSweep_timed
    | apply openSchedule_timed
    | apply carryOut_timed
    | apply setBlock_timed
    | intro _
    | split

theorem sweepTimerExpired_timed {c : Core} (hok : Timed c0 c) : Timed c0 (sweepTimerExpired c) := by
  unfold sweepTimerExpired
  try dsimp only
  with_reducible repeat' first
    | assumption
    | (refine ite_timed ?_ ?_)
    | apply setGuide_timed
    | apply beginSweep_timed

theorem sweepLimitExpired_timed {c : Core} (hok : Timed c0 c) : Timed c0 (sweepLimitExpired c) := by
  unfold sweepLimitExpired
  try dsimp only
  with_reducible repeat' first
    | assumption
    | (refine ite_timed ?_ ?_)
    | apply setGuide_timed
    | apply endSweep_timed

theorem refreshSweep_timed {c : Core} (hok : Timed c0 c) : Timed c0 (refreshSweep c) := by
  unfold refreshSweep
  try dsimp only
  with_reducible repeat' first
    | assumption
    | (refine ite_timed ?_ ?_)
    | apply setGuide_timed
    | apply beginSweep_timed

theorem startAction_timed {b : Booking} {c : Core} (hok : Timed c0 c) : Timed c0 (startAction b c) := by
  unfold startAction
  try dsimp only
  with_reducible repeat' first
    | assumption
    | apply changeBooking_timed
    | apply missBooking_timed
    | apply supersede_timed
    | apply beginChange_timed
    | split

theorem judgeEnd_timed {b : Booking} {now : Nat} {c : Core} (hok : Timed c0 c) : Timed c0 (judgeEnd b now c) := by
  unfold judgeEnd
  try dsimp only
  with_reducible repeat' first
    | assumption
    | (refine ite_timed ?_ ?_)
    | apply stopSession_timed
    | apply changeBooking_timed
    | apply endRecording_timed

theorem judgeRecording_timed {b : Booking} {now : Nat} {c : Core} (hok : Timed c0 c) : Timed c0 (judgeRecording b now c) := by
  unfold judgeRecording
  try dsimp only
  with_reducible repeat' first
    | assumption
    | (refine ite_timed ?_ ?_)
    | apply changeBooking_timed
    | apply missBooking_timed
    | apply assertWake_timed
    | apply startAction_timed
    | apply judgeEnd_timed
    | intro _
    | split

theorem judgeReminder_timed {b : Booking} {now : Nat} {c : Core} (hok : Timed c0 c) : Timed c0 (judgeReminder b now c) := by
  unfold judgeReminder
  try dsimp only
  with_reducible repeat' first
    | assumption
    | (refine ite_timed ?_ ?_)
    | apply setBooking_timed
    | apply post_timed
    | apply commitBooking_timed
    | apply changeBooking_timed
    | apply missBooking_timed
    | apply assertWake_timed
    | intro _
    | split

theorem dropFromList_timed {id : Nat} {c : Core} (hok : Timed c0 c) : Timed c0 (dropFromList id c) := by
  unfold dropFromList
  try dsimp only
  with_reducible repeat' first
    | assumption
    | (refine setClock_timed ?_ rfl rfl rfl rfl rfl)

theorem judgeBooking_timed {now : Nat} {c : Core} {id : Nat} (hok : Timed c0 c) : Timed c0 (judgeBooking now c id) := by
  unfold judgeBooking
  try dsimp only
  with_reducible repeat' first
    | assumption
    | (refine ite_timed ?_ ?_)
    | apply commitBooking_timed
    | apply judgeRecording_timed
    | apply judgeReminder_timed
    | apply dropFromList_timed
    | split

theorem judgeBookings_timed {c : Core} (hok : Timed c0 c) : Timed c0 (judgeBookings c) := by
  unfold judgeBookings
  try dsimp only
  with_reducible repeat' first
    | assumption
    | (refine foldl_timed ?_ ?_)
    | apply judgeBooking_timed
    | intro _
    | split

theorem judgeAlarm_timed {c : Core} (hok : Timed c0 c) : Timed c0 (judgeAlarm c) := by
  unfold judgeAlarm
  try dsimp only
  with_reducible repeat' first
    | assumption
    | (refine ite_timed ?_ ?_)
    | (refine setClock_timed ?_ rfl rfl rfl rfl rfl)
    | apply assertWake_timed
    | intro _
    | split

theorem joinBooking_timed {b : Booking} {c : Core} (hok : Timed c0 c) : Timed c0 (joinBooking b c) := by
  unfold joinBooking
  try dsimp only
  with_reducible repeat' first
    | assumption
    | apply setBooking_timed
    | (refine setClock_timed ?_ rfl rfl rfl rfl rfl)
    | apply judgeBooking_timed
    | split

theorem removeBooking_timed {b : Booking} {c : Core} (hok : Timed c0 c) : Timed c0 (removeBooking b c) := by
  unfold removeBooking
  try dsimp only
  with_reducible repeat' first
    | assumption
    | (refine setClock_timed ?_ rfl rfl rfl rfl rfl)
    | apply stopSession_timed
    | apply dropFromList_timed
    | split

theorem rollover_timed {day : Int} {c : Core} (hok : Timed c0 c) : Timed c0 (rollover day c) := by
  unfold rollover
  try dsimp only
  with_reducible repeat' first
    | assumption
    | (refine setClock_timed ?_ rfl rfl rfl rfl rfl)
    | apply commitLastDay_timed
    | apply expirePackages_timed
    | apply limitRollover_timed
    | apply guideRollover_timed

theorem testRollover_timed {c : Core} (hok : Timed c0 c) : Timed c0 (testRollover c) := by
  unfold testRollover
  try dsimp only
  with_reducible repeat' first
    | assumption
    | (refine ite_timed ?_ ?_)
    | apply rollover_timed
    | split

theorem clockMoved_timed {c : Core} (hok : Timed c0 c) : Timed c0 (clockMoved c) := by
  unfold clockMoved
  try dsimp only
  with_reducible repeat' first
    | assumption
    | apply limitClockChanged_timed
    | apply judgeBookings_timed
    | apply judgeAlarm_timed
    | apply testRollover_timed

theorem offsetChanged_timed {c : Core} (hok : Timed c0 c) : Timed c0 (offsetChanged c) := by
  unfold offsetChanged
  try dsimp only
  with_reducible repeat' first
    | assumption
    | apply limitClockChanged_timed
    | apply testRollover_timed
    | split

theorem clockSecond_timed {now : Nat} {c : Core} (hok : Timed c0 c) : Timed c0 (clockSecond now c) := by
  unfold clockSecond
  try dsimp only
  with_reducible repeat' first
    | assumption
    | (refine ite_timed ?_ ?_)
    | apply testPresent_timed
    | apply expireEvents_timed
    | apply limitMinute_timed
    | apply minutePurge_timed
    | apply dropUnusedMarkers_timed
    | apply judgeBookings_timed
    | apply judgeAlarm_timed
    | apply testRollover_timed

theorem stopBookingOutput_timed {c : Core} {id : Nat} (hok : Timed c0 c) : Timed c0 (stopBookingOutput c id) := by
  unfold stopBookingOutput
  try dsimp only
  with_reducible repeat' first
    | assumption
    | apply stopSession_timed
    | (refine ite_timed ?_ ?_)
    | split

end

end Sys2Proof.Machine
end

