-- ==== Sys2Proof/Laws/Tuners.lean ====
section
/-! SUPPORT. What the tuners and the sessions do leaves the directory, the grants, the limits, the purchases, the uplink and the pages as they were. -/

namespace Sys2Proof.Machine

open Sys2Proof

theorem TunersOnly.refl (c : Core) : TunersOnly c c := ⟨rfl, rfl, rfl, rfl, rfl, rfl, rfl⟩

section

variable {c0 : Core}

theorem ite_tuners {P : Prop} [Decidable P] {a b : Core} (ha : TunersOnly c0 a) (hb : TunersOnly c0 b) : TunersOnly c0 (if P then a else b) := by
  split
  · exact ha
  · exact hb

theorem foldl_tuners {α : Type} {f : Core → α → Core} {l : List α} {c : Core} (h : TunersOnly c0 c)
    (hf : ∀ c x, TunersOnly c0 c → TunersOnly c0 (f c x)) : TunersOnly c0 (l.foldl f c) := by
  induction l generalizing c with
  | nil => exact h
  | cons x t ih => exact ih (hf c x h)

theorem setSession_tuners {o : Output} {x : Session} {c : Core} (h : TunersOnly c0 c) : TunersOnly c0 (setSession o x c) := ⟨h.dir, h.access, h.limits, h.purchase, h.uplink, h.pages, h.time⟩
theorem setLaneMap_tuners {t : Fin 4} {x : LaneMap} {c : Core} (h : TunersOnly c0 c) : TunersOnly c0 (setLaneMap t x c) := ⟨h.dir, h.access, h.limits, h.purchase, h.uplink, h.pages, h.time⟩
theorem setContext_tuners {r : Room} {x : RoomContext} {c : Core} (h : TunersOnly c0 c) : TunersOnly c0 (setContext r x c) := ⟨h.dir, h.access, h.limits, h.purchase, h.uplink, h.pages, h.time⟩
theorem setTuner_tuners {t : Fin 4} {x : Tuner} {c : Core} (h : TunersOnly c0 c) : TunersOnly c0 (setTuner t x c) := ⟨h.dir, h.access, h.limits, h.purchase, h.uplink, h.pages, h.time⟩
theorem setSlot_tuners {i : Fin 16} {x : Slot} {c : Core} (h : TunersOnly c0 c) : TunersOnly c0 (setSlot i x c) := ⟨h.dir, h.access, h.limits, h.purchase, h.uplink, h.pages, h.time⟩
theorem setKeySlot_tuners {k : Fin 4} {x : KeySlot} {c : Core} (h : TunersOnly c0 c) : TunersOnly c0 (setKeySlot k x c) := ⟨h.dir, h.access, h.limits, h.purchase, h.uplink, h.pages, h.time⟩
theorem setBooking_tuners {b : Booking} {c : Core} (h : TunersOnly c0 c) : TunersOnly c0 (setBooking b c) := ⟨h.dir, h.access, h.limits, h.purchase, h.uplink, h.pages, h.time⟩
theorem setGuide_tuners {x : Guide} {c : Core} (h : TunersOnly c0 c) : TunersOnly c0 (setGuide x c) := ⟨h.dir, h.access, h.limits, h.purchase, h.uplink, h.pages, h.time⟩
theorem post_tuners {b : NoticeBody} {c : Core} (h : TunersOnly c0 c) : TunersOnly c0 (post b c) := ⟨h.dir, h.access, h.limits, h.purchase, h.uplink, h.pages, h.time⟩

theorem StoreOnly.tuners {c c' : Core} (s : StoreOnly c c') (h : TunersOnly c0 c) : TunersOnly c0 c' :=
  ⟨s.dir.trans h.dir, s.access.trans h.access, s.limits.trans h.limits, s.purchase.trans h.purchase, s.uplink.trans h.uplink,
   s.pages.trans h.pages, (congrArg Clock.time s.clock).trans h.time⟩

theorem offer_tuners {it : Item} {a : OfferAnswer} {c c' : Core} (e : offer it c = (a, c')) (h : TunersOnly c0 c) :
    TunersOnly c0 c' := (offer_only e).tuners h

theorem arb_tuners {c : Core} {x : Arbiter} (h : TunersOnly c0 c) : TunersOnly c0 { c with arb := x } :=
  ⟨h.dir, h.access, h.limits, h.purchase, h.uplink, h.pages, h.time⟩

theorem guide_tuners {c : Core} {x : Guide} (h : TunersOnly c0 c) : TunersOnly c0 { c with guide := x } :=
  ⟨h.dir, h.access, h.limits, h.purchase, h.uplink, h.pages, h.time⟩

theorem clock_tuners {c : Core} {x : Clock} (h : TunersOnly c0 c) (t : x.time = c.clock.time) :
    TunersOnly c0 { c with clock := x } :=
  ⟨h.dir, h.access, h.limits, h.purchase, h.uplink, h.pages, t.trans h.time⟩

theorem rooms_tuners {c : Core} {x : Rooms} (h : TunersOnly c0 c) : TunersOnly c0 { c with rooms := x } :=
  ⟨h.dir, h.access, h.limits, h.purchase, h.uplink, h.pages, h.time⟩

theorem openFilter_tuners {f : Filter} {c : Core} (hok : TunersOnly c0 c) : TunersOnly c0 (openFilter f c) := by
  unfold openFilter
  try dsimp only
  with_reducible repeat' first
    | assumption
    | apply setSlot_tuners
    | split

theorem closeWhere_tuners {p : Slot → Bool} {c : Core} (hok : TunersOnly c0 c) : TunersOnly c0 (closeWhere p c) := by
  unfold closeWhere
  try dsimp only
  with_reducible repeat' first
    | assumption
    | (refine ite_tuners ?_ ?_)
    | (refine foldl_tuners ?_ ?_)
    | apply setSlot_tuners
    | intro _

theorem closeTunerSlots_tuners {t : Fin 4} {c : Core} (hok : TunersOnly c0 c) : TunersOnly c0 (closeTunerSlots t c) := by
  unfold closeTunerSlots
  try dsimp only
  with_reducible repeat' first
    | assumption
    | (refine ite_tuners ?_ ?_)
    | (refine foldl_tuners ?_ ?_)
    | apply setKeySlot_tuners
    | apply closeWhere_tuners
    | intro _

theorem settleControl_tuners {c : Core} (hok : TunersOnly c0 c) : TunersOnly c0 (settleControl c) := by
  unfold settleControl
  try dsimp only
  with_reducible repeat' first
    | assumption
    | (refine ite_tuners ?_ ?_)
    | apply openFilter_tuners
    | apply closeWhere_tuners
    | split

theorem discardAssembly_tuners {t : Fin 4} {c : Core} (hok : TunersOnly c0 c) : TunersOnly c0 (discardAssembly t c) := by
  unfold discardAssembly
  try dsimp only
  with_reducible repeat' first
    | assumption
    | (refine ite_tuners ?_ ?_)
    | (refine foldl_tuners ?_ ?_)
    | apply setSlot_tuners
    | intro _

theorem ensureKeyFilter_tuners {k : Fin 4} {t : Fin 4} {c : Core} (hok : TunersOnly c0 c) : TunersOnly c0 (ensureKeyFilter k t c) := by
  unfold ensureKeyFilter
  try dsimp only
  with_reducible repeat' first
    | assumption
    | (refine ite_tuners ?_ ?_)
    | apply setKeySlot_tuners
    | apply openFilter_tuners
    | split

theorem closeKeyFilter_tuners {k : Fin 4} {c : Core} (hok : TunersOnly c0 c) : TunersOnly c0 (closeKeyFilter k c) := by
  unfold closeKeyFilter
  try dsimp only
  with_reducible repeat' first
    | assumption
    | apply setKeySlot_tuners
    | apply closeWhere_tuners
    | intro _
    | split

theorem dropRef_tuners {k : Fin 4} {c : Core} (hok : TunersOnly c0 c) : TunersOnly c0 (dropRef k c) := by
  unfold dropRef
  try dsimp only
  with_reducible repeat' first
    | assumption
    | (refine ite_tuners ?_ ?_)
    | apply setKeySlot_tuners
    | apply closeKeyFilter_tuners

theorem setSessionSlot_tuners {o : Output} {k : Option (Fin 4)} {c : Core} (hok : TunersOnly c0 c) : TunersOnly c0 (setSessionSlot o k c) := by
  unfold setSessionSlot
  try dsimp only
  with_reducible repeat' first
    | assumption
    | apply setSession_tuners

theorem unbindKey_tuners {o : Output} {c : Core} (hok : TunersOnly c0 c) : TunersOnly c0 (unbindKey o c) := by
  unfold unbindKey
  try dsimp only
  with_reducible repeat' first
    | assumption
    | apply dropRef_tuners
    | apply setSessionSlot_tuners
    | split

theorem dropOld_tuners {old : Option (Fin 4)} {c : Core} (hok : TunersOnly c0 c) : TunersOnly c0 (dropOld old c) := by
  unfold dropOld
  try dsimp only
  with_reducible repeat' first
    | assumption
    | apply dropRef_tuners
    | split

theorem bindKey_tuners {o : Output} {x : Carrier} {lane : Nat} {t : Fin 4} {c : Core} (hok : TunersOnly c0 c) : TunersOnly c0 (bindKey o x lane t c) := by
  unfold bindKey
  try dsimp only
  with_reducible repeat' first
    | assumption
    | (refine ite_tuners ?_ ?_)
    | apply setKeySlot_tuners
    | apply ensureKeyFilter_tuners
    | apply closeKeyFilter_tuners
    | apply dropRef_tuners
    | apply setSessionSlot_tuners
    | apply dropOld_tuners
    | split

theorem commitBooking_tuners {id : Nat} {c : Core} (hok : TunersOnly c0 c) : TunersOnly c0 (commitBooking id c) := by
  unfold commitBooking
  split
  · exact clock_tuners (offer_tuners (by assumption) hok) (by unfold oweBooking; split <;> rfl)
  · exact offer_tuners (by assumption) hok
  · exact clock_tuners (offer_tuners (by assumption) hok) rfl

theorem postBookingState_tuners {b : Booking} {cause : Option MissedCause} {c : Core} (hok : TunersOnly c0 c) : TunersOnly c0 (postBookingState b cause c) := by
  unfold postBookingState
  try dsimp only
  with_reducible repeat' first
    | assumption
    | apply post_tuners

theorem changeBooking_tuners {b : Booking} {cause : Option MissedCause} {c : Core} (hok : TunersOnly c0 c) : TunersOnly c0 (changeBooking b cause c) := by
  unfold changeBooking
  try dsimp only
  with_reducible repeat' first
    | assumption
    | apply setBooking_tuners
    | apply commitBooking_tuners
    | apply postBookingState_tuners

theorem missBooking_tuners {b : Booking} {cause : MissedCause} {c : Core} (hok : TunersOnly c0 c) : TunersOnly c0 (missBooking b cause c) := by
  unfold missBooking
  try dsimp only
  with_reducible repeat' first
    | assumption
    | apply changeBooking_tuners

theorem bookingOutcome_tuners {id : Nat} {outcome : ChangeOutcome} {c : Core} (hok : TunersOnly c0 c) : TunersOnly c0 (bookingOutcome id outcome c) := by
  unfold bookingOutcome
  try dsimp only
  with_reducible repeat' first
    | assumption
    | (refine ite_tuners ?_ ?_)
    | apply missBooking_tuners
    | split

theorem endChange_tuners {o : Output} {old : Session} {outcome : ChangeOutcome} {reasons : Option Reasons} {c : Core} (hok : TunersOnly c0 c) : TunersOnly c0 (endChange o old outcome reasons c) := by
  unfold endChange
  try dsimp only
  with_reducible repeat' first
    | assumption
    | apply post_tuners
    | apply bookingOutcome_tuners
    | split

theorem postSession_tuners {o : Output} {c : Core} (hok : TunersOnly c0 c) : TunersOnly c0 (postSession o c) := by
  unfold postSession
  try dsimp only
  with_reducible repeat' first
    | assumption
    | apply post_tuners

theorem purchaseOffer_tuners {o : Output} {c : Core} (hok : TunersOnly c0 c) : TunersOnly c0 (purchaseOffer o c) := by
  unfold purchaseOffer
  try dsimp only
  with_reducible repeat' first
    | assumption
    | (refine ite_tuners ?_ ?_)
    | apply post_tuners
    | split

theorem arrive_tuners {o : Output} {old : Session} {s : Session} {entering : Bool} {c : Core} (hok : TunersOnly c0 c) : TunersOnly c0 (arrive o old s entering c) := by
  unfold arrive
  try dsimp only
  with_reducible repeat' first
    | assumption
    | (refine ite_tuners ?_ ?_)
    | apply setSession_tuners
    | apply endChange_tuners
    | apply postSession_tuners
    | apply purchaseOffer_tuners
    | split

theorem bindService_tuners {o : Output} {e : LaneEntry} {c : Core} (hok : TunersOnly c0 c) : TunersOnly c0 (bindService o e c) := by
  unfold bindService
  try dsimp only
  with_reducible repeat' first
    | assumption
    | (refine ite_tuners ?_ ?_)
    | apply unbindKey_tuners
    | apply bindKey_tuners
    | split

theorem enterChecking_tuners {o : Output} {e : LaneEntry} {c : Core} (hok : TunersOnly c0 c) : TunersOnly c0 (enterChecking o e c) := by
  unfold enterChecking
  try dsimp only
  with_reducible repeat' first
    | assumption
    | (refine ite_tuners ?_ ?_)
    | apply setSession_tuners
    | apply postSession_tuners
    | apply arrive_tuners
    | apply bindService_tuners

theorem tryChecking_tuners {o : Output} {old : Session} {c : Core} (hok : TunersOnly c0 c) : TunersOnly c0 (tryChecking o old c) := by
  unfold tryChecking
  try dsimp only
  with_reducible repeat' first
    | assumption
    | (refine ite_tuners ?_ ?_)
    | apply postSession_tuners
    | apply enterChecking_tuners
    | split

theorem reopen_tuners {o : Output} {c : Core} (hok : TunersOnly c0 c) : TunersOnly c0 (reopen o c) := by
  unfold reopen
  try dsimp only
  with_reducible repeat' first
    | assumption
    | apply setSession_tuners
    | apply tryChecking_tuners

theorem reevalOne_tuners {c : Core} {o : Output} (hok : TunersOnly c0 c) : TunersOnly c0 (reevalOne c o) := by
  unfold reevalOne
  try dsimp only
  with_reducible repeat' first
    | assumption
    | (refine ite_tuners ?_ ?_)
    | apply setSession_tuners
    | apply arrive_tuners
    | split

theorem reevaluate_tuners {c : Core} (hok : TunersOnly c0 c) : TunersOnly c0 (reevaluate c) := by
  unfold reevaluate
  try dsimp only
  with_reducible repeat' first
    | assumption
    | (refine foldl_tuners ?_ ?_)
    | apply reevalOne_tuners

theorem signalLost_tuners {o : Output} {c : Core} (hok : TunersOnly c0 c) : TunersOnly c0 (signalLost o c) := by
  unfold signalLost
  try dsimp only
  with_reducible repeat' first
    | assumption
    | (refine ite_tuners ?_ ?_)
    | apply setSession_tuners
    | apply postSession_tuners
    | split

theorem signalRegained_tuners {o : Output} {c : Core} (hok : TunersOnly c0 c) : TunersOnly c0 (signalRegained o c) := by
  unfold signalRegained
  try dsimp only
  with_reducible repeat' first
    | assumption
    | (refine ite_tuners ?_ ?_)
    | apply setSession_tuners
    | apply arrive_tuners
    | apply enterChecking_tuners
    | apply tryChecking_tuners
    | split

theorem endEventGrant_tuners {o : Output} {c : Core} (hok : TunersOnly c0 c) : TunersOnly c0 (endEventGrant o c) := by
  unfold endEventGrant
  try dsimp only
  with_reducible repeat' first
    | assumption
    | (refine ite_tuners ?_ ?_)
    | apply setContext_tuners
    | split

theorem testSession_tuners {c : Core} {o : Output} (hok : TunersOnly c0 c) : TunersOnly c0 (testSession c o) := by
  unfold testSession
  try dsimp only
  with_reducible repeat' first
    | assumption
    | (refine ite_tuners ?_ ?_)
    | apply setSession_tuners
    | apply post_tuners
    | apply purchaseOffer_tuners
    | apply reevaluate_tuners
    | apply endEventGrant_tuners
    | split

theorem testPresent_tuners {c : Core} (hok : TunersOnly c0 c) : TunersOnly c0 (testPresent c) := by
  unfold testPresent
  try dsimp only
  with_reducible repeat' first
    | assumption
    | (refine foldl_tuners ?_ ?_)
    | apply testSession_tuners

theorem carry_tuners {o : Output} {x : OutCell} {c : Core} (hok : TunersOnly c0 c) : TunersOnly c0 (carry o x c) := by
  unfold carry
  try dsimp only
  with_reducible repeat' first
    | assumption
    | (refine rooms_tuners ?_)

theorem sendCommand_tuners {t : Fin 4} {x : Option Carrier} {c : Core} (hok : TunersOnly c0 c) : TunersOnly c0 (sendCommand t x c) := by
  unfold sendCommand
  try dsimp only
  with_reducible repeat' first
    | assumption
    | apply setTuner_tuners
    | (refine arb_tuners ?_)

theorem tune_tuners {t : Fin 4} {x : Carrier} {holders : Holders} {c : Core} (hok : TunersOnly c0 c) : TunersOnly c0 (tune t x holders c) := by
  unfold tune
  try dsimp only
  with_reducible repeat' first
    | assumption
    | apply setTuner_tuners
    | apply sendCommand_tuners

theorem turnOff_tuners {t : Fin 4} {c : Core} (hok : TunersOnly c0 c) : TunersOnly c0 (turnOff t c) := by
  unfold turnOff
  try dsimp only
  with_reducible repeat' first
    | assumption
    | apply setTuner_tuners
    | apply sendCommand_tuners

theorem setHolder_tuners {t : Fin 4} {x : Claimant} {b : Bool} {c : Core} (hok : TunersOnly c0 c) : TunersOnly c0 (setHolder t x b c) := by
  unfold setHolder
  try dsimp only
  with_reducible repeat' first
    | assumption
    | apply setTuner_tuners

theorem startHold_tuners {c : Core} (hok : TunersOnly c0 c) : TunersOnly c0 (startHold c) := by
  unfold startHold
  split
  · exact clock_tuners hok rfl
  · exact hok

theorem stopHold_tuners {c : Core} (hok : TunersOnly c0 c) : TunersOnly c0 (stopHold c) := by
  exact clock_tuners hok rfl

theorem watchTest_tuners {c : Core} (hok : TunersOnly c0 c) : TunersOnly c0 (watchTest c) := by
  unfold watchTest
  try dsimp only
  with_reducible repeat' first
    | assumption
    | (refine ite_tuners ?_ ?_)
    | apply tune_tuners
    | apply setHolder_tuners
    | apply startHold_tuners
    | split

theorem endRecording_tuners {stop : Output → Core → Core} {b : Booking} {c : Core} (hstop : ∀ o c, TunersOnly c0 c → TunersOnly c0 (stop o c)) (hok : TunersOnly c0 c) : TunersOnly c0 (endRecording stop b c) := by
  unfold endRecording
  try dsimp only
  with_reducible repeat' first
    | assumption
    | apply hstop
    | apply setBooking_tuners
    | apply commitBooking_tuners
    | apply postBookingState_tuners
    | split

theorem judgeExtended_tuners {stop : Output → Core → Core} {c : Core} {id : Nat} (hstop : ∀ o c, TunersOnly c0 c → TunersOnly c0 (stop o c)) (hok : TunersOnly c0 c) : TunersOnly c0 (judgeExtended stop c id) := by
  unfold judgeExtended
  try dsimp only
  with_reducible repeat' first
    | assumption
    | apply hstop
    | (refine ite_tuners ?_ ?_)
    | apply endRecording_tuners
    | split

theorem markerChanged_tuners {stop : Output → Core → Core} {lcn : Nat} {c : Core} (hstop : ∀ o c, TunersOnly c0 c → TunersOnly c0 (stop o c)) (hok : TunersOnly c0 c) : TunersOnly c0 (markerChanged stop lcn c) := by
  unfold markerChanged
  try dsimp only
  with_reducible repeat' first
    | assumption
    | apply hstop
    | (refine foldl_tuners ?_ ?_)
    | apply judgeExtended_tuners
    | intro _

theorem removeMarkers_tuners {stop : Output → Core → Core} {p : Marker → Bool} {c : Core} (hstop : ∀ o c, TunersOnly c0 c → TunersOnly c0 (stop o c)) (hok : TunersOnly c0 c) : TunersOnly c0 (removeMarkers stop p c) := by
  unfold removeMarkers
  try dsimp only
  with_reducible repeat' first
    | assumption
    | apply hstop
    | (refine foldl_tuners ?_ ?_)
    | apply markerChanged_tuners
    | intro _
    | (refine guide_tuners ?_)

theorem carrierUnlocked_tuners {stop : Output → Core → Core} {x : Option Carrier} {c : Core} (hstop : ∀ o c, TunersOnly c0 c → TunersOnly c0 (stop o c)) (hok : TunersOnly c0 c) : TunersOnly c0 (carrierUnlocked stop x c) := by
  unfold carrierUnlocked
  try dsimp only
  with_reducible repeat' first
    | assumption
    | apply hstop
    | apply testPresent_tuners
    | apply removeMarkers_tuners
    | split

theorem handLeft_tuners {stop : Output → Core → Core} {t : Fin 4} {u : Tuner} {c : Core} (hstop : ∀ o c, TunersOnly c0 c → TunersOnly c0 (stop o c)) (hok : TunersOnly c0 c) : TunersOnly c0 (handLeft stop t u c) := by
  unfold handLeft
  try dsimp only
  with_reducible repeat' first
    | assumption
    | apply hstop
    | (refine ite_tuners ?_ ?_)
    | apply setLaneMap_tuners
    | apply closeTunerSlots_tuners
    | apply settleControl_tuners
    | apply watchTest_tuners
    | apply carrierUnlocked_tuners

theorem goOff_tuners {stop : Output → Core → Core} {t : Fin 4} {c : Core} (hstop : ∀ o c, TunersOnly c0 c → TunersOnly c0 (stop o c)) (hok : TunersOnly c0 c) : TunersOnly c0 (goOff stop t c) := by
  unfold goOff
  try dsimp only
  with_reducible repeat' first
    | assumption
    | apply hstop
    | apply turnOff_tuners
    | apply handLeft_tuners

theorem releaseFrom_tuners {stop : Output → Core → Core} {x : Claimant} {t : Fin 4} {c : Core} (hstop : ∀ o c, TunersOnly c0 c → TunersOnly c0 (stop o c)) (hok : TunersOnly c0 c) : TunersOnly c0 (releaseFrom stop x t c) := by
  unfold releaseFrom
  try dsimp only
  with_reducible repeat' first
    | assumption
    | apply hstop
    | (refine ite_tuners ?_ ?_)
    | apply setHolder_tuners
    | apply goOff_tuners

theorem releaseWith_tuners {stop : Output → Core → Core} {x : Claimant} {c : Core} (hstop : ∀ o c, TunersOnly c0 c → TunersOnly c0 (stop o c)) (hok : TunersOnly c0 c) : TunersOnly c0 (releaseWith stop x c) := by
  unfold releaseWith
  try dsimp only
  with_reducible repeat' first
    | assumption
    | apply hstop
    | apply releaseFrom_tuners
    | split

theorem handStop_tuners {origin : Origin} {c : Core} (hok : TunersOnly c0 c) : TunersOnly c0 (handStop origin c) := by
  unfold handStop
  try dsimp only
  with_reducible repeat' first
    | assumption
    | apply bookingOutcome_tuners
    | split

theorem stopBody_tuners {rel : Claimant → Core → Core} {o : Output} {c : Core} (hrel : ∀ o c, TunersOnly c0 c → TunersOnly c0 (rel o c)) (hok : TunersOnly c0 c) : TunersOnly c0 (stopBody rel o c) := by
  unfold stopBody
  try dsimp only
  with_reducible repeat' first
    | assumption
    | apply hrel
    | (refine ite_tuners ?_ ?_)
    | apply setSession_tuners
    | apply post_tuners
    | apply unbindKey_tuners
    | apply postSession_tuners
    | apply handStop_tuners

theorem stopN_tuners (n : Nat) : ∀ (o : Output) (c : Core), TunersOnly c0 c → TunersOnly c0 (stopN n o c) := by
  induction n with
  | zero => exact fun _ _ h => h
  | succ n ih =>
    intro o c h
    exact stopBody_tuners (fun x c hc => releaseWith_tuners ih hc) h

theorem stopSession_tuners {o : Output} {c : Core} (h : TunersOnly c0 c) : TunersOnly c0 (stopSession o c) :=
  stopN_tuners 33 o c h

theorem release_tuners {x : Claimant} {c : Core} (h : TunersOnly c0 c) : TunersOnly c0 (release x c) :=
  releaseWith_tuners (fun o c hc => stopN_tuners 33 o c hc) h

theorem watchEnds_tuners {c : Core} (hok : TunersOnly c0 c) : TunersOnly c0 (watchEnds c) := by
  unfold watchEnds
  try dsimp only
  with_reducible repeat' first
    | assumption
    | apply release_tuners
    | apply stopHold_tuners

theorem watchFailed_tuners {c : Core} (hok : TunersOnly c0 c) : TunersOnly c0 (watchFailed c) := by
  unfold watchFailed
  try dsimp only
  with_reducible repeat' first
    | assumption
    | apply startHold_tuners

theorem closeSchedule_tuners {c : Core} (hok : TunersOnly c0 c) : TunersOnly c0 (closeSchedule c) := by
  unfold closeSchedule
  try dsimp only
  with_reducible repeat' first
    | assumption
    | apply closeWhere_tuners

theorem endSweep_tuners {c : Core} (hok : TunersOnly c0 c) : TunersOnly c0 (endSweep c) := by
  unfold endSweep
  try dsimp only
  with_reducible repeat' first
    | assumption
    | apply release_tuners
    | apply closeSchedule_tuners
    | (refine guide_tuners ?_)

theorem openSchedule_tuners {t : Fin 4} {c : Core} (hok : TunersOnly c0 c) : TunersOnly c0 (openSchedule t c) := by
  unfold openSchedule
  try dsimp only
  with_reducible repeat' first
    | assumption
    | apply openFilter_tuners

theorem sweepLocked_tuners {t : Fin 4} {c : Core} (hok : TunersOnly c0 c) : TunersOnly c0 (sweepLocked t c) := by
  unfold sweepLocked
  try dsimp only
  with_reducible repeat' first
    | assumption
    | (refine ite_tuners ?_ ?_)
    | apply openSchedule_tuners
    | (refine guide_tuners ?_)

theorem holdTerminal_tuners {o : Output} {r : Reasons} {outcome : ChangeOutcome} {reasons : Option Reasons} {c : Core} (hok : TunersOnly c0 c) : TunersOnly c0 (holdTerminal o r outcome reasons c) := by
  unfold holdTerminal
  try dsimp only
  with_reducible repeat' first
    | assumption
    | (refine ite_tuners ?_ ?_)
    | apply setSession_tuners
    | apply release_tuners
    | apply unbindKey_tuners
    | apply endChange_tuners
    | apply postSession_tuners

theorem loseService_tuners {o : Output} {c : Core} (hok : TunersOnly c0 c) : TunersOnly c0 (loseService o c) := by
  unfold loseService
  try dsimp only
  with_reducible repeat' first
    | assumption
    | apply holdTerminal_tuners

theorem tellTaken_tuners {c : Core} {x : Claimant} (hok : TunersOnly c0 c) : TunersOnly c0 (tellTaken c x) := by
  unfold tellTaken
  try dsimp only
  with_reducible repeat' first
    | assumption
    | apply watchFailed_tuners
    | apply endSweep_tuners
    | apply holdTerminal_tuners
    | split

theorem tellNoSignal_tuners {c : Core} {x : Claimant} (hok : TunersOnly c0 c) : TunersOnly c0 (tellNoSignal c x) := by
  unfold tellNoSignal
  try dsimp only
  with_reducible repeat' first
    | assumption
    | apply setSession_tuners
    | apply unbindKey_tuners
    | apply endChange_tuners
    | apply watchFailed_tuners
    | apply endSweep_tuners
    | split

theorem leaveOld_tuners {x : Claimant} {old : Option (Fin 4)} {t : Fin 4} {c : Core} (hok : TunersOnly c0 c) : TunersOnly c0 (leaveOld x old t c) := by
  unfold leaveOld
  try dsimp only
  with_reducible repeat' first
    | assumption
    | (refine ite_tuners ?_ ?_)
    | apply stopSession_tuners
    | apply releaseFrom_tuners
    | split

theorem carryOut_tuners {x : Claimant} {car : Carrier} {p : Plan} {c : Core} (hok : TunersOnly c0 c) : TunersOnly c0 (carryOut x car p c) := by
  unfold carryOut
  try dsimp only
  with_reducible repeat' first
    | assumption
    | (refine ite_tuners ?_ ?_)
    | (refine foldl_tuners ?_ ?_)
    | apply stopSession_tuners
    | apply tune_tuners
    | apply setHolder_tuners
    | apply handLeft_tuners
    | apply watchEnds_tuners
    | apply tellTaken_tuners
    | apply leaveOld_tuners
    | intro _
    | split

theorem watchReclaim_tuners {c : Core} (hok : TunersOnly c0 c) : TunersOnly c0 (watchReclaim c) := by
  unfold watchReclaim
  try dsimp only
  with_reducible repeat' first
    | assumption
    | apply release_tuners
    | apply startHold_tuners
    | apply watchTest_tuners
    | apply carryOut_tuners
    | split

theorem toldLocked_tuners {t : Fin 4} {c : Core} (hok : TunersOnly c0 c) : TunersOnly c0 (toldLocked t c) := by
  unfold toldLocked
  try dsimp only
  with_reducible repeat' first
    | assumption
    | (refine ite_tuners ?_ ?_)
    | apply watchEnds_tuners

theorem sessionLocked_tuners {t : Fin 4} {c : Core} {o : Output} (hok : TunersOnly c0 c) : TunersOnly c0 (sessionLocked t c o) := by
  unfold sessionLocked
  try dsimp only
  with_reducible repeat' first
    | assumption
    | (refine ite_tuners ?_ ?_)
    | apply setSession_tuners
    | apply tryChecking_tuners

theorem acquired_tuners {t : Fin 4} {c : Core} (hok : TunersOnly c0 c) : TunersOnly c0 (acquired t c) := by
  unfold acquired
  try dsimp only
  with_reducible repeat' first
    | assumption
    | (refine ite_tuners ?_ ?_)
    | (refine foldl_tuners ?_ ?_)
    | apply setTuner_tuners
    | apply openFilter_tuners
    | apply settleControl_tuners
    | apply sweepLocked_tuners
    | apply toldLocked_tuners
    | apply sessionLocked_tuners

theorem regained_tuners {t : Fin 4} {c : Core} (hok : TunersOnly c0 c) : TunersOnly c0 (regained t c) := by
  unfold regained
  try dsimp only
  with_reducible repeat' first
    | assumption
    | (refine foldl_tuners ?_ ?_)
    | apply setTuner_tuners
    | apply settleControl_tuners
    | apply signalRegained_tuners
    | apply toldLocked_tuners
    | intro _

theorem lost_tuners {t : Fin 4} {c : Core} (hok : TunersOnly c0 c) : TunersOnly c0 (lost t c) := by
  unfold lost
  try dsimp only
  with_reducible repeat' first
    | assumption
    | (refine ite_tuners ?_ ?_)
    | (refine foldl_tuners ?_ ?_)
    | apply setTuner_tuners
    | apply stopSession_tuners
    | apply settleControl_tuners
    | apply discardAssembly_tuners
    | apply signalLost_tuners
    | apply watchTest_tuners
    | apply carrierUnlocked_tuners
    | intro _

theorem lockReport_tuners {t : Fin 4} {count : BitVec 4} {c : Core} (hok : TunersOnly c0 c) : TunersOnly c0 (lockReport t count c) := by
  unfold lockReport
  try dsimp only
  with_reducible repeat' first
    | assumption
    | (refine ite_tuners ?_ ?_)
    | apply acquired_tuners
    | apply regained_tuners
    | split

theorem lossReport_tuners {t : Fin 4} {count : BitVec 4} {c : Core} (hok : TunersOnly c0 c) : TunersOnly c0 (lossReport t count c) := by
  unfold lossReport
  try dsimp only
  with_reducible repeat' first
    | assumption
    | (refine ite_tuners ?_ ?_)
    | apply lost_tuners

theorem acquisitionFailed_tuners {t : Fin 4} {c : Core} (hok : TunersOnly c0 c) : TunersOnly c0 (acquisitionFailed t c) := by
  unfold acquisitionFailed
  try dsimp only
  with_reducible repeat' first
    | assumption
    | (refine ite_tuners ?_ ?_)
    | (refine foldl_tuners ?_ ?_)
    | apply stopSession_tuners
    | apply turnOff_tuners
    | apply handLeft_tuners
    | apply tellNoSignal_tuners

theorem lossTimerExpired_tuners {t : Fin 4} {c : Core} (hok : TunersOnly c0 c) : TunersOnly c0 (lossTimerExpired t c) := by
  unfold lossTimerExpired
  try dsimp only
  with_reducible repeat' first
    | assumption
    | (refine ite_tuners ?_ ?_)
    | apply setTuner_tuners
    | apply post_tuners

theorem claimFor_tuners {o : Output} {lcn : Nat} {x : Carrier} {tag : ChangeTag} {origin : Origin} {m : ClaimMode} {refusedBy : Core → Core} {c : Core} (hrefusedBy : ∀ c, TunersOnly c0 c → TunersOnly c0 (refusedBy c)) (hok : TunersOnly c0 c) : TunersOnly c0 (claimFor o lcn x tag origin m refusedBy c) := by
  unfold claimFor
  try dsimp only
  with_reducible repeat' first
    | assumption
    | apply hrefusedBy
    | (refine ite_tuners ?_ ?_)
    | apply setSession_tuners
    | apply tryChecking_tuners
    | apply carryOut_tuners
    | split

theorem toIdle_tuners {o : Output} {c : Core} (hok : TunersOnly c0 c) : TunersOnly c0 (toIdle o c) := by
  unfold toIdle
  try dsimp only
  with_reducible repeat' first
    | assumption
    | apply setSession_tuners
    | apply release_tuners
    | apply unbindKey_tuners

theorem changeRefused_tuners {o : Output} {lcn : Nat} {tag : ChangeTag} {origin : Origin} {superseded : Bool} {c : Core} (hok : TunersOnly c0 c) : TunersOnly c0 (changeRefused o lcn tag origin superseded c) := by
  unfold changeRefused
  try dsimp only
  with_reducible repeat' first
    | assumption
    | (refine ite_tuners ?_ ?_)
    | apply endChange_tuners
    | apply toIdle_tuners

theorem supersede_tuners {o : Output} {c : Core} (hok : TunersOnly c0 c) : TunersOnly c0 (supersede o c) := by
  unfold supersede
  try dsimp only
  with_reducible repeat' first
    | assumption
    | (refine ite_tuners ?_ ?_)
    | apply setSession_tuners
    | apply endChange_tuners

theorem beginChange_tuners {o : Output} {lcn : Nat} {e : ChannelEntry} {tag : ChangeTag} {origin : Origin} {m : ClaimMode} {superseded : Bool} {c : Core} (hok : TunersOnly c0 c) : TunersOnly c0 (beginChange o lcn e tag origin m superseded c) := by
  unfold beginChange
  try dsimp only
  with_reducible repeat' first
    | assumption
    | apply setSession_tuners
    | apply loseService_tuners
    | apply claimFor_tuners
    | apply changeRefused_tuners
    | split

theorem select_tuners {o : Output} {lcn : Nat} {e : ChannelEntry} {tag : ChangeTag} {origin : Origin} {m : ClaimMode} {c : Core} (hok : TunersOnly c0 c) : TunersOnly c0 (select o lcn e tag origin m c) := by
  unfold select
  try dsimp only
  with_reducible repeat' first
    | assumption
    | apply supersede_tuners
    | apply beginChange_tuners

theorem endGrant_tuners {o : Output} {c : Core} (hok : TunersOnly c0 c) : TunersOnly c0 (endGrant o c) := by
  unfold endGrant
  try dsimp only
  with_reducible repeat' first
    | assumption
    | apply setContext_tuners
    | split

theorem laneEntryChanged_tuners {t : Fin 4} {e : LaneEntry} {c : Core} {o : Output} (hok : TunersOnly c0 c) : TunersOnly c0 (laneEntryChanged t e c o) := by
  unfold laneEntryChanged
  try dsimp only
  with_reducible repeat' first
    | assumption
    | (refine ite_tuners ?_ ?_)
    | apply setSession_tuners
    | apply bindService_tuners
    | apply enterChecking_tuners
    | apply reevaluate_tuners

theorem laneEntryRemoved_tuners {t : Fin 4} {n : Nat} {c : Core} {o : Output} (hok : TunersOnly c0 c) : TunersOnly c0 (laneEntryRemoved t n c o) := by
  unfold laneEntryRemoved
  try dsimp only
  with_reducible repeat' first
    | assumption
    | (refine ite_tuners ?_ ?_)
    | apply setSession_tuners
    | apply postSession_tuners

theorem takeLaneEntry_tuners {t : Fin 4} {version : Nat} {c : Core} {e : LaneEntry} (hok : TunersOnly c0 c) : TunersOnly c0 (takeLaneEntry t version c e) := by
  unfold takeLaneEntry
  try dsimp only
  with_reducible repeat' first
    | assumption
    | (refine ite_tuners ?_ ?_)
    | (refine foldl_tuners ?_ ?_)
    | apply setLaneMap_tuners
    | apply laneEntryChanged_tuners

theorem completeLaneMap_tuners {t : Fin 4} {version : Nat} {c : Core} (hok : TunersOnly c0 c) : TunersOnly c0 (completeLaneMap t version c) := by
  unfold completeLaneMap
  try dsimp only
  with_reducible repeat' first
    | assumption
    | (refine foldl_tuners ?_ ?_)
    | apply setLaneMap_tuners
    | apply laneEntryRemoved_tuners
    | intro _

theorem takeLaneMap_tuners {t : Fin 4} {h : SegmentHeader} {entries : List LaneEntry} {c : Core} (hok : TunersOnly c0 c) : TunersOnly c0 (takeLaneMap t h entries c) := by
  unfold takeLaneMap
  try dsimp only
  with_reducible repeat' first
    | assumption
    | (refine ite_tuners ?_ ?_)
    | (refine foldl_tuners ?_ ?_)
    | apply setLaneMap_tuners
    | apply takeLaneEntry_tuners
    | apply completeLaneMap_tuners

theorem moveSession_tuners {o : Output} {old : Carrier} {new : Carrier} {c : Core} (hok : TunersOnly c0 c) : TunersOnly c0 (moveSession o old new c) := by
  unfold moveSession
  try dsimp only
  with_reducible repeat' first
    | assumption
    | (refine ite_tuners ?_ ?_)
    | apply post_tuners
    | apply endChange_tuners
    | apply claimFor_tuners
    | apply toIdle_tuners
    | intro _
    | split

theorem renumberSession_tuners {o : Output} {c : Core} (hok : TunersOnly c0 c) : TunersOnly c0 (renumberSession o c) := by
  unfold renumberSession
  try dsimp only
  with_reducible repeat' first
    | assumption
    | apply setSession_tuners
    | apply tryChecking_tuners
    | apply reopen_tuners
    | split

theorem reportSession_tuners {cls : Nat → ChangeClass × Option Carrier × Option Carrier} {c : Core} {o : Output} (hok : TunersOnly c0 c) : TunersOnly c0 (reportSession cls c o) := by
  unfold reportSession
  try dsimp only
  with_reducible repeat' first
    | assumption
    | (refine ite_tuners ?_ ?_)
    | apply loseService_tuners
    | apply moveSession_tuners
    | apply renumberSession_tuners
    | split

theorem reportToSessions_tuners {cls : Nat → ChangeClass × Option Carrier × Option Carrier} {c : Core} (hok : TunersOnly c0 c) : TunersOnly c0 (reportToSessions cls c) := by
  unfold reportToSessions
  try dsimp only
  with_reducible repeat' first
    | assumption
    | (refine foldl_tuners ?_ ?_)
    | apply reevaluate_tuners
    | apply reportSession_tuners

theorem laneWaitExpired_tuners {o : Output} {c : Core} (hok : TunersOnly c0 c) : TunersOnly c0 (laneWaitExpired o c) := by
  unfold laneWaitExpired
  try dsimp only
  with_reducible repeat' first
    | assumption
    | (refine ite_tuners ?_ ?_)
    | apply setSession_tuners
    | apply loseService_tuners

theorem keyWaitExpired_tuners {o : Output} {c : Core} (hok : TunersOnly c0 c) : TunersOnly c0 (keyWaitExpired o c) := by
  unfold keyWaitExpired
  try dsimp only
  with_reducible repeat' first
    | assumption
    | (refine ite_tuners ?_ ?_)
    | apply setSession_tuners
    | apply arrive_tuners

end

end Sys2Proof.Machine
end

