-- ==== Sys2Proof/Tests/Slice0.lean ====
section
/-! SUPPORT. The model's own tests: ill-formed commands, one step on small states, and for every statement with hypotheses a state
and operands that meet them, each clause at its boundary values. -/

namespace Sys2Proof.Tests

open Sys2Proof Sys2Proof.Machine

-- One test after the other: each waiting kernel evaluation would hold a thread of its own.
set_option Elab.async false

/-! ## Small states -/

/-- The state with these blocks and nothing waiting. -/
def holding (c : Core) : State := { pending := [], front := .reset false, core := c }

/-- The blocks after reset with the store out of its scan. -/
def bare : Core := { State.reset.core with store := { State.reset.core.store with state := .idle } }

def near : Carrier := ⟨48000, .a⟩
def far : Carrier := ⟨1002000, .c⟩
def fields : IssueFields := ⟨1, [7, 8], 0⟩
def film : EventRecord := ⟨9999, 65535, 1000000, 60, 4, [], some 300, .block 0 0⟩
def pin4 : Pin := [0x30, 0x31, 0x32, 0x39]

/-- A part in use: three channels, a guide and a home carrier, a locked issue record, a clock that is SET, and credit. -/
def lab : Core := { bare with
  dir := { bare.dir with
    map := [⟨1, 1, 10, .free, [], 0, false, []⟩, ⟨2, 1, 11, .subscribed, [4095], 0, false, []⟩,
            ⟨9999, 2, 12, .eventPaid, [], 7, false, []⟩]
    carriers := [⟨1, near⟩, ⟨2, far⟩], guideCarrier := some 1, home := some far }
  access := { bare.access with issue := .locked fields, packages := [⟨4095, 11, 12⟩], events := [⟨9999, 65535, 2000000, .bulletin⟩] }
  guide := { bare.guide with records := [film] }
  purchase := { bare.purchase with balance := 300, limit := 1000 }
  clock := { bare.clock with time := some 1000000, today := some 11 } }

def labStore (x : Store) : Core := { lab with store := x }
def labClock (x : Clock) : Core := { lab with clock := x }
def labLimits (x : Limits) : Core := { lab with limits := x }
def labUplink (x : Uplink) : Core := { lab with uplink := x }
def labPurchase (x : Purchase) : Core := { lab with purchase := x }
def labLink (x : Link) : Core := { lab with link := x }

def running : Timer := ⟨5000, 5000, true⟩
def onTuner (t : Fin 4) (st : TunerState) (c : Core) : Core :=
  setTuner t { tuner c t with state := st, carrier := some near, number := some 1, acq := running, loss := running } c
def allTuned (h : Holders) (c : Core) : Core :=
  { c with arb := { c.arb with tuners := Vector.replicate 4 { Tuner.reset with state := .locked, carrier := some far, holders := h } } }

/-- A request on an empty intake is handled, once the scan is over. -/
theorem handled (c : Core) (h : c.store.state ≠ .scanning) (i : Instr) : Handled i (holding c) := ⟨rfl, h⟩

theorem test_lab_handles (i : Instr) : Handled i (holding lab) := handled lab (by decide) i

def someItem : Item := ⟨⟨.settings, 1⟩, [(⟨.settings, 1⟩, .homeCarrier none)], false⟩
def pinItem : Item := ⟨⟨.pin, 0⟩, [(⟨.pin, 0⟩, .pin none 0)], true⟩
def filler (n : Nat) : Item := ⟨⟨.booking, n⟩, [], false⟩
def fullQueue : List Item := (List.range 16).map filler

/-! ## Ill-formed commands -/

theorem test_wellFormed_tag :
    (Instr.ping 0 (some ())).wellFormed = false ∧ (Instr.ping 1 (some ())).wellFormed = true := by decide
theorem test_wellFormed_bytes :
    (Instr.frameReceived []).wellFormed = false ∧ (Instr.bodyLengthExceeded 1 1 240).wellFormed = false ∧
      (Instr.bodyLengthExceeded 1 1 241).wellFormed = true := by decide
theorem test_wellFormed_word :
    (Instr.channelInfo 1 (some 65536)).wellFormed = false ∧ (Instr.setTuning 1 (some 65536)).wellFormed = false ∧
      (Instr.nowNext 1 (some 65536)).wellFormed = false ∧ (Instr.purchaseLog 1 (some 65536)).wellFormed = false ∧
      (Instr.listBookings 1 (some 65536)).wellFormed = false ∧ (Instr.listChannels 1 (some ⟨65536, true⟩)).wellFormed = false ∧
      (Instr.guideQuery 1 (some ⟨65536, 0⟩)).wellFormed = false ∧ (Instr.refreshGuide 1 (some (some 65536))).wellFormed = false ∧
      (Instr.channelInfo 1 (some 65535)).wellFormed = true := by decide
theorem test_wellFormed_byte :
    (Instr.stopOutput 1 (some 256)).wellFormed = false ∧ (Instr.relockRoom 1 (some 256)).wellFormed = false ∧
      (Instr.returnProfile 1 (some 256)).wellFormed = false ∧ (Instr.dropBooking 1 (some 256)).wellFormed = false ∧
      (Instr.setKeys 1 (some 256)).wellFormed = false ∧ (Instr.sessionStatus 1 (some (some 256))).wellFormed = false ∧
      (Instr.keyStatus 1 (some (some 256))).wellFormed = false ∧ (Instr.selectChannel 1 (some ⟨256, 1⟩)).wellFormed = false ∧
      (Instr.setAttention 1 (some ⟨0, 256⟩)).wellFormed = false ∧ (Instr.setUplink 1 (some ⟨256, 0⟩)).wellFormed = false ∧
      (Instr.accessStatus 1 (some ⟨256, 0⟩)).wellFormed = false ∧ (Instr.setKeys 1 (some 255)).wellFormed = true := by decide
theorem test_wellFormed_long :
    (Instr.setHomeCarrier 1 (some (some ⟨4294967296, 0⟩))).wellFormed = false ∧
      (Instr.wakeAt 1 (some ⟨some 4294967296, none⟩)).wellFormed = false ∧
      (Instr.issue 1 (some ⟨4294967296, [], []⟩)).wellFormed = false ∧
      (Instr.issue 1 (some ⟨4294967295, [65536], []⟩)).wellFormed = false ∧
      (Instr.issue 1 (some ⟨1, List.replicate 109 1, List.replicate 16 0⟩)).wellFormed = false := by decide
theorem test_wellFormed_pin :
    (Instr.unlockRoom 1 (some ⟨0, some []⟩)).wellFormed = false ∧
      (Instr.switchProfile 1 (some ⟨0, 0, some (List.replicate 9 0)⟩)).wellFormed = false ∧
      (Instr.setRoomDefault 1 (some ⟨0, 256, none⟩)).wellFormed = false ∧ (Instr.setPin 1 (some ⟨some [], none⟩)).wellFormed = false ∧
      (Instr.lockChannel 1 (some ⟨1, some []⟩)).wellFormed = false ∧ (Instr.unlockChannel 1 (some ⟨65536, none⟩)).wellFormed = false ∧
      (Instr.wipeAccount 1 (some (some []))).wellFormed = false ∧ (Instr.purchase 1 (some ⟨0, .event 65536 0, none⟩)).wellFormed = false ∧
      (Instr.setProfile 1 (some ⟨1, some ⟨256, 0, [], 0⟩, none⟩)).wellFormed = false := by decide
theorem test_wellFormed_booking :
    (Instr.addBooking 1 (some ⟨0, 1, none, none, none, 0, 2, false⟩)).wellFormed = false ∧
      (Instr.addBooking 1 (some ⟨1, 1, none, none, none, 5, 2, false⟩)).wellFormed = false ∧
      (Instr.setZone 1 (some (some 32768))).wellFormed = false ∧ (Instr.itemWriteBegin [481]).wellFormed = false ∧
      (Instr.itemWriteBegin [0]).wellFormed = false := by decide
theorem test_wellFormed_cell :
    (Instr.cellArrival 0 0 [] (.time 0 none)).wellFormed = false ∧
      (Instr.cellArrival 0 0 (List.replicate 156 0) (.time 4294967296 none)).wellFormed = false ∧
      (Instr.cellArrival 0 0 (List.replicate 156 0) (.directory (some 96) [] [])).wellFormed = false ∧
      (Instr.cellArrival 0 0 (List.replicate 156 0) (.laneMap [⟨0, [4096], 0, 0⟩])).wellFormed = false ∧
      (Instr.cellArrival 0 0 (List.replicate 156 0) (.grants ⟨.unit 1, 0, [.dropPackage 65536]⟩)).wellFormed = false ∧
      (Instr.cellArrival 0 0 (List.replicate 156 0) (.keys ⟨4096, .event 0, 0, none, none⟩)).wellFormed = false := by decide +kernel

/-! ## One step -/

def next (i : Instr) (s : State) : State :=
  match exec i s with
  | .next t => t
  | _ => s

def sent (i : Instr) (c : Core) : List Frame := (next i (holding c)).front.sent

theorem test_ping_scanning : (sent (.ping 9 (some ())) State.reset.core).map Frame.tag = [9] := by rfl
theorem test_scan_turns_away : sent (.creditStatus 2 (some ())) State.reset.core = [.reply 2 .busy .none] := by rfl
theorem test_scan_ends :
    (next (.startUpScanDone []) State.reset).core.store.state = .idle ∧
      (next (.startUpScanDone []) State.reset).core.link.notices.map (·.body) = [.ready .powerOn] := by decide +kernel
theorem test_selects_free_channel :
    sent (.selectChannel 3 (some ⟨0, 1⟩)) lab = [.reply 3 .accepted .none] ∧
      (session (next (.selectChannel 3 (some ⟨0, 1⟩)) (holding lab)).core .roomA).state = .tuning ∧
      (tuner (next (.selectChannel 3 (some ⟨0, 1⟩)) (holding lab)).core 0).carrier = some near := by decide +kernel
theorem test_home_carrier_is_queued :
    sent (.setHomeCarrier 4 (some (some ⟨48000, 0⟩))) lab = [.reply 4 .ok .none] ∧
      (next (.setHomeCarrier 4 (some (some ⟨48000, 0⟩))) (holding lab)).core.store.queue.map (·.key) = [⟨.settings, 1⟩] := by
  decide +kernel
theorem test_crc : crc [0x31, 0x32, 0x33, 0x34, 0x35, 0x36, 0x37, 0x38, 0x39] = 0x29B1#16 := by decide +kernel
theorem test_clock_second :
    (next .clockSecond (holding lab)).core.clock.time = some 1000001 ∧
      (next .clockSecond (holding lab)).core.link.refSeconds = 1 := by decide +kernel
theorem test_purchase_checks :
    sent (.purchase 5 (some ⟨0, .event 9999 65535, none⟩)) lab = [.reply 5 .already .none] ∧
      sent (.purchase 5 (some ⟨0, .event 1 1, none⟩)) lab = [.reply 5 .noSuch .none] := by decide +kernel
theorem test_purchase_is_taken :
    sent (.purchase 5 (some ⟨0, .event 9999 65535, none⟩)) { lab with access := { lab.access with events := [] } } =
      [.reply 5 .accepted .none] := by decide +kernel
theorem test_booking_is_added :
    sent (.addBooking 6 (some ⟨1, 1, none, some 2000000, some 2003600, 0, 4, true⟩)) lab = [.reply 6 .ok (.bookingId 1)] := by
  decide +kernel
theorem test_key_press : (next (.keyReport 0x0C .press) (holding lab)).core.link.attn = true := by decide

/-! ## The statements' hypotheses are met -/

theorem test_step_met : Invariant State.reset ∧ ∃ t, step { State.reset with pending := [.clockSecond] } = .next t :=
  ⟨⟨⟨rfl, by decide⟩, ⟨by decide, by decide, by decide, by decide⟩, ⟨by decide, by decide, by decide⟩⟩, _, rfl⟩
theorem test_resets_met :
    (holding lab).core.access.issueWrite = none ∧ (holding lab).core.store.activity = .none ∧
      (next (.resetUnit 1 (some ())) (holding lab)).front.resetPending = true ∧ (holding lab).front.resetPending = false := by decide
theorem test_turned_away_met :
    isHandledNow (.creditStatus 1 none) State.reset = true ∧ State.reset.core.store.state = .scanning ∧
      isHandledNow (.ping 1 none) { holding lab with front := { Front.reset false with intake := List.replicate 3 (.ping 2 none) } } =
        false ∧
      isHandledNow (.ping 1 none) { holding lab with front := { Front.reset false with intake := List.replicate 4 (.ping 2 none) } } =
        false := by decide
theorem test_misfit_met : malformed (.setTuning 1 none) = true ∧ Handled (.setTuning 1 none) (holding lab) :=
  ⟨rfl, test_lab_handles _⟩
theorem test_oneFrame_met :
    isHandledNow (.ping 1 (some ())) (holding lab) = true ∧ writesIssue (.issue 1 none) = true := by decide
def frame (kind tag : Byte) (body : List Byte) : List Byte := [kind, tag, BitVec.ofNat 8 body.length] ++ body
theorem test_frames_met :
    number [0, 0] ≠ (crc (frame 1 1 [])).toNat ∧ number (bytesOf 2 (crc (frame 1 0 [0x0B, 0x02])).toNat) = (crc (frame 1 0 [0x0B, 0x02])).toNat ∧
      number (bytesOf 2 (crc (frame 1 1 [])).toNat) = (crc (frame 1 1 [])).toNat ∧
      (List.replicate 240 (0 : Byte)).length ≤ 240 ∧
      requestOf 0 1 [] = none ∧ requestOf 0x0101 1 [] = some (.listChannels 1 none) ∧ 240 < (241 : Byte).toNat := by decide +kernel
theorem test_ping_met :
    isHandledNow (.ping 1 (some ())) State.reset = true ∧
      (∃ s : State, s.core.access.issueWrite.isSome = true ∧ s.front.intake.length = 3) :=
  ⟨rfl, { holding { lab with access := { lab.access with issueWrite := some .lockFlag } } with
    front := { Front.reset false with intake := List.replicate 3 (.ping 2 none) } }, rfl, rfl⟩
theorem test_notices_met :
    Handled (.takeNotices 1 (some ())) (holding lab) ∧
      (labLink { lab.link with notices := List.replicate 31 ⟨true, 0, .keypress 0⟩ }).link.notices.length < 32 ∧
      32 ≤ (labLink { lab.link with notices := List.replicate 32 ⟨true, 0, .keypress 0⟩ }).link.notices.length ∧
      (labLink { lab.link with gapTimer := running }).link.gapTimer.running = true ∧ lab.link.gapTimer.running = false :=
  ⟨test_lab_handles _, by decide⟩
theorem test_keyReports_met :
    lab.clock.power = .active ∧ lab.link.powerKey = 0x0C#8 ∧ (labClock { lab.clock with power := .standby }).clock.power = .standby ∧
      (0x0D#8 : Byte) ≠ lab.link.powerKey := by decide
theorem test_linkSettings_met :
    Handled (.setAttention 1 (some ⟨0, 1⟩)) (holding lab) ∧ Handled (.setAttention 1 (some ⟨1, 8⟩)) (holding lab) ∧
      Handled (.setAttention 1 (some ⟨2, 9⟩)) (holding lab) ∧ Handled (.setAttention 1 (some ⟨0, 0⟩)) (holding lab) ∧
      Handled (.setKeys 1 (some 255)) (holding lab) ∧ Handled (.setKeys 1 (some 256)) (holding lab) :=
  ⟨test_lab_handles _, test_lab_handles _, test_lab_handles _, test_lab_handles _, test_lab_handles _, test_lab_handles _⟩
/-- The five answers of the queue, which the table of R15 follows. -/
theorem test_queueAnswers_met :
    (offer someItem lab).1 = .taken ∧ (offer someItem (labStore { lab.store with queue := fullQueue })).1 = .queueFull ∧
      (offer someItem (labStore { lab.store with state := .wiping })).1 = .duringWipe ∧
      (offer someItem (labStore { lab.store with state := .storeFull })).1 = .storeFull ∧
      (offer someItem (labStore { lab.store with state := .fault })).1 = .storeFault := by decide +kernel
theorem test_statusRequests_met :
    statusRequest lab (.listChannels 1 (some ⟨1, true⟩)) = true ∧ statusRequest lab (.listChannels 1 (some ⟨9999, false⟩)) = true ∧
      statusRequest lab (.channelInfo 1 (some 9999)) = true ∧ statusRequest lab (.sessionStatus 1 (some (some 3))) = true ∧
      statusRequest lab (.keyStatus 1 (some none)) = true ∧ statusRequest lab (.accessStatus 1 (some ⟨0, 1⟩)) = true ∧
      statusRequest lab (.accessStatus 1 (some ⟨0, 4095⟩)) = true ∧ statusRequest lab (.accessStatus 1 (some ⟨1, 23⟩)) = true ∧
      statusRequest lab (.guideQuery 1 (some ⟨1, 0⟩)) = true ∧ statusRequest lab (.nowNext 1 (some 1)) = true ∧
      statusRequest lab (.purchaseLog 1 (some 47)) = true ∧ statusRequest lab (.listBookings 1 (some 31)) = true ∧
      statusRequest lab (.storeStatus 1 (some ())) = true := by decide
theorem test_channelInfo_met :
    Handled (.channelInfo 1 (some 0)) (holding lab) ∧ Handled (.channelInfo 1 (some 10000)) (holding lab) ∧
      findChannel lab 9998 = none ∧ (findChannel lab 1).isSome = true ∧ (findChannel lab 9999).isSome = true :=
  ⟨test_lab_handles _, test_lab_handles _, by decide⟩
theorem test_issueStatus_met :
    State.reset.core.store.state = .scanning ∧ bare.access.issue = .blank ∧ bare.store.state ≠ .scanning ∧
      lab.access.issue = .locked fields ∧ isHandledNow (.issueStatus 1 (some ())) (holding lab) = true := by decide
theorem test_creditStatus_met : Handled (.creditStatus 1 (some ())) (holding lab) := test_lab_handles _
theorem test_settings_met :
    Handled (.setHomeCarrier 1 (some (some ⟨48000, 0⟩))) (holding lab) ∧ Handled (.setHomeCarrier 1 (some (some ⟨1002000, 2⟩))) (holding lab) ∧
      Handled (.setHomeCarrier 1 (some (some ⟨47999, 3⟩))) (holding lab) ∧ Handled (.setTuning 1 (some 200)) (holding lab) ∧
      Handled (.setTuning 1 (some 3000)) (holding lab) ∧ Handled (.setTuning 1 (some 199)) (holding lab) ∧ (3000 % 100 = 0) ∧
      (∃ now t, lab.clock.time = some now ∧ some 1000000 = some t ∧ t ≤ now) ∧
      (∀ now t, lab.clock.time = some now → some 1000001 = some t → ¬t ≤ now) ∧ Handled (.setZone 1 (some (some 840))) (holding lab) :=
  ⟨test_lab_handles _, test_lab_handles _, test_lab_handles _, test_lab_handles _, test_lab_handles _, test_lab_handles _, rfl,
    ⟨_, _, rfl, rfl, by decide⟩, by intro now t h k; cases h; cases k; decide, test_lab_handles _⟩
theorem test_noneExtended_met : noneExtended lab := by intro b h; cases h
theorem test_lockReport_met :
    (tuner (onTuner 0 .acquiring lab) 0).state = .acquiring ∧ (tuner (onTuner 3 .lost lab) 3).state = .lost ∧
      (tuner (onTuner 0 .locked lab) 0).state = .locked ∧ (tuner lab 0).state = .off ∧ noneExtended (onTuner 3 .lost lab) :=
  ⟨by decide, by decide, by decide, by decide, by intro b h; cases h⟩
theorem test_loss_met :
    (tuner (onTuner 3 .locked lab) 3).state = .locked ∧ (tuner (onTuner 3 .lost lab) 3).loss.running = true ∧
      (tuner lab 3).loss.running = false ∧ noneExtended (onTuner 3 .locked lab) :=
  ⟨by decide, by decide, by decide, by intro b h; cases h⟩
theorem test_acquisition_met :
    (tuner (onTuner 0 .acquiring lab) 0).acq.running = true ∧ (tuner (onTuner 0 .acquiring lab) 0).state = .acquiring ∧
      (∀ v, v ≠ 0 → (tuner (onTuner 0 .acquiring lab) v).holders.sweep = false) ∧ (tuner lab 0).acq.running = false := by decide
def standbyHeld : Core := { lab with clock := { lab.clock with power := .standby, hold := running } }
theorem test_standbyWatch_met :
    lab.clock.hold.running = false ∧ standbyHeld.clock.hold.running = true ∧ standbyCondition standbyHeld = true ∧
      heldTuner standbyHeld .watch = none ∧ standbyHeld.dir.home = some far ∧ tunerOn standbyHeld far = none ∧
      (tuner standbyHeld 0).state = .off ∧ (∀ v : Fin 4, ¬v < 0) ∧
      standbyCondition { lab with clock := { lab.clock with hold := running } } = false ∧
      (∃ c : Core, standbyCondition c = true ∧ heldTuner c .watch = none ∧ tunerOn c near = none ∧ ∀ v, (tuner c v).state ≠ .off) :=
  ⟨by decide, by decide, by decide, by decide, by decide, by decide, by decide, by decide, by decide,
    { standbyHeld with arb := { lab.arb with tuners := Vector.replicate 4 { Tuner.reset with state := .acquiring, carrier := some far } } },
    by decide⟩
/-- Room A presents service 12 of the tuner with its slot, and hears lane 5. -/
def viewing (st : SessionState) (keyLane : Nat) (c : Core) : Core :=
  setSession .roomA { Session.idle with
    state := st, lcn := some 1, carrier := some near, tuner := some 0, service := some ⟨12, [5], keyLane, 0⟩, slot := some 2
    laneWait := running, keyWait := running } (onTuner 0 .locked c)
def keyed (c : Core) : Core :=
  setKeySlot 2 { KeySlot.empty with carrier := some near, keyLane := some 9, state := .ready, even := some 0, life := running
                                    filter := some 0, parity := some .even, period := some 7 } c
theorem test_cells_met :
    (tuner lab 0).state ≠ .locked ∧ (cellHeader 0).lane = 0 ∧ (cellHeader 0x005C0000).parity = .reserved ∧
      (tuner (viewing .presenting 9 lab) 0).state = .locked ∧ (cellHeader 0x00500000).lane = 5 ∧
      slotOn (viewing .presenting 9 lab) 0 5 = none ∧ (cellHeader 0x00500000).parity = .clear ∧
      parityKey (cellHeader 0x00540000).parity = some .even ∧ cellSlot (keyed (viewing .presenting 9 lab)) .roomA = some 2 ∧
      ((keySlot (keyed (viewing .presenting 9 lab)) 2).key .even).isSome = true ∧
      (∀ o, o ≠ .roomA → (session (viewing .presenting 9 lab) o).state ≠ .presenting) :=
  ⟨by decide, by decide, by decide, by decide, by decide, by decide, by decide, by decide, by decide, by decide,
    by intro o; cases o <;> decide⟩
def oddCell : State := next (.cellArrival 0 0x00580000 (List.replicate 156 0) (.laneMap [])) (holding (keyed (viewing .presenting 9 lab)))
theorem test_cells_without_key_met :
    parityKey (cellHeader 0x00580000).parity = some .odd ∧ (keySlot (keyed (viewing .presenting 9 lab)) 2).key .odd = none ∧
      (keySlot (keyed (viewing .presenting 9 lab)) 2).state = .ready ∧ cellSlot (viewing .presenting 0 lab) .roomA = none ∧
      (keySlot oddCell.core 2).state = .missing ∧ (session oddCell.core .roomA).reasons.noKey = true := by decide +kernel
def keysBulletin : KeyBulletin := ⟨9, .packages [4095], 8, some 0, none⟩
def waiting (k : Consumer) (st : BufferState) (r : TableBody) : Slot :=
  { filter := some ⟨0, 9, k⟩, a := ⟨st, [], 0, some r⟩, b := .free, asm := .idle }
theorem test_segments_met :
    (slot (setSlot 15 (waiting .keys .waiting (.keys keysBulletin)) (keyed lab)) 15).a.state = .waiting ∧
      keySlotAt (setSlot 15 (waiting .keys .waiting (.keys keysBulletin)) (keyed lab)) 0 9 = some 2 ∧
      (slot (setSlot 0 (waiting .keys .handed (.keys keysBulletin)) lab) 0).a.state = .handed ∧ (slot lab 0).a.state = .free := by
  decide
/-- A clear cell of lane 4 with this unit-start flag and count. -/
def clearCell4 (start : Bool) (count : BitVec 4) : CellHeader := { lane := 4, parity := .clear, unitStart := start, count := count }
def laneSlot (a : Buffer) (asm : Assembly) : Slot := { filter := some ⟨0, 4, .laneMap⟩, a := a, b := .free, asm := asm }
/-- A whole segment of no entries with its check. -/
def sealed (kind : Byte) : List Byte := [kind, 0, 0, 0, 0, 0] ++ bytesOf 2 (crc [kind, 0, 0, 0, 0, 0]).toNat
def begun (lengthHigh lengthLow : Byte) : Assembly :=
  ((laneSlot .free .idle).takeCell (clearCell4 true 15) ([4, lengthHigh, lengthLow] ++ List.replicate 153 0) (.laneMap [])).asm
theorem test_assembly_met :
    148 + 8 = 156 ∧ begun 0 149 = .collecting 1 0 ∧ begun 3 248 = .collecting 868 0 ∧ begun 3 249 = .skipping ∧
      ((laneSlot .free .skipping).takeCell (clearCell4 true 0) (sealed 4) (.laneMap [])).a.state = .handed ∧
      ((laneSlot ⟨.handed, [], 3, none⟩ .idle).takeCell (clearCell4 true 0) (sealed 4) (.laneMap [])).b.state = .waiting ∧
      (laneSlot .free .idle).takeCell (clearCell4 true 0) (sealed 5) (.laneMap []) = laneSlot .free .idle ∧
      ((laneSlot ⟨.filling, [], 0, none⟩ (.collecting 157 2)).takeCell (clearCell4 false 2) (List.replicate 156 0) (.laneMap [])).asm =
        .collecting 1 3 ∧
      ((laneSlot ⟨.filling, (sealed 4).take 6, 0, none⟩ (.collecting 2 2)).takeCell (clearCell4 false 2) ((sealed 4).drop 6) (.laneMap [])).a.state =
        .handed ∧
      (laneSlot ⟨.filling, [], 0, none⟩ (.collecting 1 2)).takeCell (clearCell4 false 3) [] (.laneMap []) = laneSlot .free .skipping ∧
      (laneSlot ⟨.filling, [], 0, none⟩ (.collecting 1 2)).takeCell { clearCell4 true 2 with parity := .even } [] (.laneMap []) =
        laneSlot .free .skipping := by decide +kernel
theorem test_assembling_cell_met :
    let c := setSlot 3 (laneSlot .free .idle) (onTuner 0 .locked lab)
    (tuner c 0).state = .locked ∧ (cellHeader 0x00410000).lane = 4 ∧ (cellHeader 0x00410000).parity = .clear ∧ slotOn c 0 4 = some 3 ∧
      (∀ o, (session c o).tuner = none) ∧
      (laneMap (next (.cellArrival 0 0x00410000 (sealed 4) (.laneMap [⟨12, [6], 0, 0⟩])) (holding c)).core 0).complete = none :=
  ⟨by decide, by decide, by decide, by decide, (by intro o; cases o <;> decide), by decide +kernel⟩
theorem test_consumers_met :
    (waiting .directory .handed (.directory none [] [])).a.state = .handed ∧ (waiting .time .handed (.time 0 none)).b.state ≠ .handed ∧
      (waiting .laneMap .handed (.laneMap [])).a.reading = some (.laneMap []) ∧
      (waiting .presentNext .handed (.presentNext [])).filter = some ⟨0, 9, .presentNext⟩ ∧
      (waiting .schedule .handed (.schedule [])).a.reading = some (.schedule []) := by decide
def grants (n : Seq) (ops : List GrantOp) : GrantBulletin := ⟨.unit 1, n, ops⟩
def crowded : Core := labStore { lab.store with queue := fullQueue }
theorem test_kept_met :
    (∀ i, (slot lab i).feeds .grants = false) ∧
      (slot (setSlot 1 (waiting .grants .handed (.grants (grants 1 [.cut]))) lab) 1).hasHanded = true ∧
      judgeBulletin (grants 1 [.cut]) crowded = .kept ∧ judgeBulletin (grants 1 []) lab = .released ∧
      judgeBulletin (grants 1 [.cut]) lab = .applied 0 ∧
      (∀ j : Fin 16, j ≠ 1 → (slot (setSlot 1 (waiting .grants .handed (.grants (grants 1 [.cut]))) lab) j).feeds .grants = false) := by
  decide +kernel
theorem test_selectionRefused_met :
    Handled (.selectChannel 1 (some ⟨4, 1⟩)) (holding lab) ∧ Handled (.selectChannel 1 (some ⟨0, 10000⟩)) (holding lab) ∧
      findChannel lab 9998 = none ∧ (findChannel lab 9999).isSome = true ∧ standbyHeld.clock.power = .standby ∧
      (session (setSession .record2 { Session.idle with origin := .booking 255 } lab) .record2).origin = .booking 255 :=
  ⟨test_lab_handles _, test_lab_handles _, by decide⟩
theorem test_selectionStarts_met :
    Handled (.selectChannel 1 (some ⟨0, 1⟩)) (holding lab) ∧ (findChannel lab 1).isSome = true ∧ resolve lab 1 = some near ∧
      lab.clock.power = .active ∧ (session lab .roomA).origin = .host ∧ (session lab .roomA).change = .absent ∧
      tunerOn lab near = none ∧ heldTuner lab (.out .roomA) = none ∧ (tuner lab 0).state = .off ∧ (∀ v : Fin 4, ¬v < 0) ∧
      (∀ t, (tuner (allTuned { Holders.none with roomB := true } lab) t).state ≠ .off ∧
        (tuner (allTuned { Holders.none with roomB := true } lab) t).holders.background = false) ∧
      tunerOn (allTuned { Holders.none with roomB := true } lab) near = none :=
  ⟨test_lab_handles _, by decide, by decide, by decide, by decide, by decide, by decide, by decide, by decide, by decide, by decide,
    by decide⟩
theorem test_outputStopped_met :
    Handled (.stopOutput 1 (some 4)) (holding lab) ∧ Handled (.stopOutput 1 (some 3)) (holding lab) ∧
      (session (setSession .record1 { Session.idle with origin := .booking 1 } lab) .record1).origin = .booking 1 ∧
      (session lab .record2).origin = .host ∧ heldTuner lab (.out .roomA) = none ∧ (session lab .roomA).slot = none ∧
      (session (viewing .checking 0 lab) .roomA).state ≠ .idle :=
  ⟨test_lab_handles _, test_lab_handles _, by decide⟩
theorem test_sessionWaits_met :
    (session lab .roomA).laneWait.running = false ∧ (session (viewing .opening 9 lab) .roomA).laneWait.running = true ∧
      (session (viewing .opening 9 lab) .roomA).state = .opening ∧ noneExtended (viewing .opening 9 lab) ∧
      (session (viewing .checking 9 lab) .roomA).keyWait.running = true ∧ (session (viewing .checking 9 lab) .roomA).state = .checking :=
  ⟨by decide, by decide, by decide, (by intro b h; cases h), by decide, by decide⟩
def laned (n : Nat) : LaneMap := { LaneMap.empty with entries := (List.range n).map fun k => ⟨k + 1, [6], 0, 3⟩ }
def header (version number last block : Nat) : SegmentHeader := { kind := 4, version := version, length := 0, number := number, last := last, block := block }
theorem test_laneMaps_met :
    (laneMap (takeLaneEntry 0 3 lab ⟨65535, [6, 15, 17, 4095], 17, 0⟩) 0).entries = [⟨65535, [6, 15, 17, 4095], 17, 3⟩] ∧
      takeLaneEntry 0 3 lab ⟨1, [16], 0, 0⟩ = lab ∧ takeLaneEntry 0 3 lab ⟨1, [6], 5, 0⟩ = lab ∧ takeLaneEntry 0 3 lab ⟨1, [0], 0, 0⟩ = lab ∧
      (laneMap (takeLaneEntry 0 4 (setLaneMap 0 (laned 2) lab) ⟨2, [7], 0, 0⟩) 0).entries = [⟨1, [6], 0, 3⟩, ⟨2, [7], 0, 4⟩] ∧
      (laneMap (takeLaneEntry 0 4 (setLaneMap 0 (laned 63) lab) ⟨64, [7], 0, 0⟩) 0).entries.length = 64 ∧
      (laneMap (takeLaneEntry 0 4 (setLaneMap 0 (laned 64) lab) ⟨65, [7], 0, 0⟩) 0).entries.length = 64 ∧
      takeLaneMap 0 (header 4 0 8 0) [] lab = lab ∧ takeLaneMap 0 (header 4 8 7 0) [] lab = lab ∧
      (laneMap (takeLaneMap 0 (header 4 7 7 0) [] lab) 0).seen = [7] ∧
      laneMap (takeLaneMap 0 (header 4 0 0 0) [⟨1, [7], 0, 0⟩] (setLaneMap 0 (laned 2) lab)) 0 = ⟨[⟨1, [7], 0, 4⟩], some 4, none, [0]⟩ := by
  decide +kernel
theorem test_laneSessions_met :
    (session (laneEntryRemoved 0 12 (viewing .presenting 9 lab) .roomA) .roomA).state = .opening ∧
      laneEntryRemoved 0 13 (viewing .presenting 9 lab) .roomA = viewing .presenting 9 lab ∧
      (session (viewing .held 9 lab) .roomA).reasons.terminal = false ∧ (session (viewing .checking 9 lab) .roomA).change = .absent ∧
      (findChannel (viewing .opening 9 lab) 1).map (·.service) = some 10 := by decide +kernel
theorem test_checking_met :
    verdictSet (viewing .checking 9 (setKeySlot 2 { KeySlot.empty with state := .waiting } lab)) .roomA = .none ∧
      verdictSet (viewing .checking 9 lab) .roomA ≠ .none ∧ verdictSet (viewing .checking 9 (keyed lab)) .roomA = .none ∧
      (keySlot (keyed lab) 2).state = .ready ∧ verdictSet (viewing .checking 0 lab) .roomA = .none ∧
      (let c := setContext .a ⟨0, 0, none, none⟩ (labLimits { lab.limits with lockList := [1] })
       verdictSet (viewing .checking 9 (setKeySlot 2 { KeySlot.empty with state := .waiting } c)) .roomA ≠ .none) := by decide +kernel
theorem test_reevaluation_met :
    verdictSet (viewing .presenting 0 lab) .roomA = .none ∧ verdictSet (viewing .presenting 9 lab) .roomA ≠ .none ∧
      verdictSet (viewing .held 0 lab) .roomA = .none ∧ verdictSet (viewing .held 9 lab) .roomA ≠ .none ∧
      (session (viewing .held 9 lab) .roomA).reasons.terminal = false ∧ (session (viewing .dark 9 lab) .roomA).state = .dark ∧
      Reasons.terminal { Reasons.none with noService := true } = true := by decide
theorem test_keys_met :
    (keySlot (keyed lab) 2).keyLane = some 9 ∧ KeyBulletin.formed { keysBulletin with lane := 8 } 9 = false ∧
      KeyBulletin.formed keysBulletin 9 = true ∧ criterionMet (keyed lab) 2 (.packages [4094]) = false ∧
      criterionMet (keyed lab) 2 keysBulletin.criterion = true ∧ (keySlot (keyed lab) 2).state = .ready ∧
      (keySlot (keyed lab) 2).period = some 7 ∧ (keySlot (keyed lab) 2).period ≠ some keysBulletin.period ∧
      (keySlot (keyed lab) 2).life.running = true ∧ (keySlot lab 2).life.running = false := by decide
def issueReq : IssueReq := ⟨0xFFFFFFFF, [1, 65535], List.replicate 16 0⟩
theorem test_issue_met :
    Handled (.issue 1 (some issueReq)) (holding lab) ∧ Handled (.lockIssue 1 (some ())) (holding bare) ∧
      (1 ≤ issueReq.address ∧ issueReq.address ≤ 0xFFFFFFFF ∧ issueReq.groups.length ≤ 4 ∧ (∀ g ∈ issueReq.groups, 1 ≤ g ∧ g ≤ 65535) ∧
        issueReq.groups.Nodup ∧ issueReq.key.length = 16) ∧
      (∀ f, bare.access.issue ≠ .locked f) ∧ lab.access.issue = .locked fields ∧ bare.access.issue = .blank ∧
      (∃ c : Core, c.access.issue = .written fields) :=
  ⟨test_lab_handles _, handled bare (by decide) _, by decide, (by intro f h; cases h), rfl, rfl,
    { bare with access := .reset (.written fields) }, rfl⟩
def issuing (w : IssueWrite) (i : Instr) : State :=
  { holding { bare with access := { Access.reset (.written fields) with issueWrite := some w } } with
    front := { Front.reset false with intake := [i] } }
theorem test_issueEnds_met :
    (issuing (.issue fields) (.issue 1 none)).core.access.issueWrite = some (.issue fields) ∧
      (issuing (.issue fields) (.issue 1 none)).front.intake.head? = some (.issue 1 none) ∧
      (issuing .lockFlag (.lockIssue 1 none)).core.access.issue = .written fields ∧
      (issuing .lockFlag (.lockIssue 1 none)).front.intake.head? = some (.lockIssue 1 none) ∧
      (holding lab).core.access.issueWrite = none := by decide
theorem test_access_met :
    findChannel lab 9998 = none ∧ (findChannel lab 1).map (·.kind) = some .free ∧ (findChannel lab 2).map (·.kind) = some .subscribed ∧
      (findChannel lab 9999).map (·.kind) = some .eventPaid ∧ accessGranted lab 1 none = true ∧ accessGranted lab 2 none = true ∧
      accessGranted lab 9999 (some 65535) = true ∧ accessGranted lab 9999 none = false := by decide
theorem test_bulletins_met :
    (∀ g, bare.access.issue ≠ .locked g) ∧ lab.access.issue = .locked fields ∧ bulletinFormed (grants 1 []) = false ∧
      addressSlot fields (.unit 2) = none ∧ addressSlot fields (.group 8) = some 2 ∧ addressSlot fields (.unit 1) = some 0 ∧
      bulletinFormed (grants 1 [.cut]) = true ∧ ((5 : Seq) - 5).toNat = 0 ∧ 32768 ≤ ((0x8005 : Seq) - 5).toNat ∧
      ((6 : Seq) - 5).toNat = 1 ∧ ((0x8004 : Seq) - 5).toNat = 32767 :=
  ⟨(by intro f h; cases h), by decide⟩
def marked : Core := { lab with guide := { lab.guide with markers := [⟨9999, 3, far⟩] } }
theorem test_present_met :
    (marked.guide.markers.find? (·.lcn == 9999)) = some ⟨9999, 3, far⟩ ∧ channelCarrier marked 9999 = some far ∧
      (lab.guide.markers.find? (·.lcn == 9999)) = none ∧ bare.clock.time = none ∧ lab.clock.time = some 1000000 ∧
      presentEvent lab 9999 = some ⟨65535, false⟩ ∧ presentEvent lab 1 = none ∧
      presentEvent (labClock { lab.clock with time := some 1003599 }) 9999 = some ⟨65535, false⟩ ∧
      presentEvent (labClock { lab.clock with time := some 1003600 }) 9999 = none := by decide
def listing (n : Nat) : Core := { lab with guide := { lab.guide with records := (List.range n).map fun k => { film with event := k, start := 60 * k, duration := 1 } } }
theorem test_records_met :
    (insertRecord { film with event := 1, start := 1003600 } lab).guide.records.length = 2 ∧
      (insertRecord { film with event := 1, start := 1003599 } lab).guide.records.length = 1 ∧
      (let n : EventRecord := { film with lcn := 1 }
       (((listing 2048).guide.records).filter fun r => decide ¬(r.lcn = n.lcn ∧
         (r.event = n.event ∨ (n.start < r.start + r.duration * 60 ∧ r.start < n.start + n.duration * 60)))).length = 2048) ∧
      (listing 2048).guide.markers = [] ∧ { film with event := 2047, start := 122820, duration := 1 } ∈ (listing 2048).guide.records ∧
      (∀ r ∈ (listing 2048).guide.records, r.event = 2047 ∨ r.start < 122820) ∧
      OfferedRecord.formed ⟨9999, 65535, 0, 1440, 7, [], some 1000000⟩ = true ∧ OfferedRecord.formed ⟨1, 0, 0, 1, 0, [], none⟩ = true ∧
      OfferedRecord.formed ⟨1, 0, 0, 0, 8, [], some 0⟩ = false := by decide +kernel
def presentNow : PresentNextEntry := ⟨9999, some ⟨9999, 5, 2000000, 60, 0, [], none⟩, none⟩
theorem test_presentNext_met :
    channelCarrier lab 9999 = some far ∧ takePresentEntry near lab presentNow = lab ∧
      (takePresentEntry far lab presentNow).guide.markers = [⟨9999, 5, far⟩] ∧
      (takePresentEntry far marked ⟨9999, none, none⟩).guide.markers = [] ∧ noneExtended marked ∧
      (tuner (onTuner 0 .locked lab) 0).carrier = some near :=
  ⟨by decide, by decide +kernel, by decide +kernel, by decide +kernel, (by intro b h; cases h), by decide⟩
def sweeping : Core :=
  { lab with guide := { lab.guide with sweep := { lab.guide.sweep with state := .collecting, limit := running } } }
theorem test_sweep_met :
    Handled (.refreshGuide 1 (some (some 59))) (holding lab) ∧ Handled (.refreshGuide 1 (some (some 60))) (holding lab) ∧
      Handled (.refreshGuide 1 (some (some 720))) (holding lab) ∧ Handled (.refreshGuide 1 (some none)) (holding sweeping) ∧
      lab.guide.sweep.timer.running = true ∧ lab.guide.sweep.state = .idle ∧ guideCarrier lab = some near ∧ tunerOn lab near = none ∧
      (tuner lab 0).state = .off ∧ heldTuner lab .sweep = none ∧ sweeping.guide.sweep.limit.running = true ∧
      sweeping.guide.sweep.state ≠ .idle ∧ lab.guide.sweep.limit.running = false :=
  ⟨test_lab_handles _, test_lab_handles _, test_lab_handles _, handled sweeping (by decide) _, by decide⟩
def sweepOn (h : Holders) (c : Core) : Core :=
  setTuner 3 { tuner c 3 with state := .locked, carrier := some near, number := some 1, holders := h } c
theorem test_sweepStarts_met :
    Handled (.refreshGuide 1 (some none)) (holding lab) ∧ (next (.refreshGuide 1 (some none)) (holding lab)).core.guide.sweep.state = .tuning ∧
      (next .sweepTimer (holding lab)).core.guide.sweep.tuner = some 0 ∧
      guideCarrier bare = none ∧ (next .sweepTimer (holding bare)).core.guide.sweep.timer = ⟨14400000, 600000, true⟩ ∧
      heldTuner (allTuned { Holders.none with roomB := true } lab) .sweep = none ∧
      (∀ v, (tuner (allTuned { Holders.none with roomB := true } lab) v).holders.only .sweep = false) :=
  ⟨test_lab_handles _, by decide +kernel⟩
def alone : Core := sweepOn (Holders.none.put .sweep true) sweeping
def shared : Core := sweepOn ((Holders.none.put .sweep true).put (.out .roomB) true) sweeping
theorem test_sweepLimit_met :
    heldTuner sweeping .sweep = none ∧ heldTuner alone .sweep = some 3 ∧ (tuner alone 3).holders.only .sweep = true ∧
      heldTuner shared .sweep = some 3 ∧ (tuner shared 3).holders.only .sweep = false ∧ noneExtended alone ∧
      (next .sweepLimit (holding { alone with dir := { alone.dir with home := none } })).core.arb.line = lab.arb.line ++ [⟨3, 2, none⟩] ∧
      (tuner (next .sweepLimit (holding shared)).core 3).holders = Holders.none.put (.out .roomB) true ∧
      (next .sweepLimit (holding shared)).core.guide.sweep.timer = ⟨14400000, 600000, true⟩ := by
  refine ⟨by decide, by decide, by decide, by decide, by decide, (by intro b h; cases h), by decide +kernel, by decide +kernel, by decide +kernel⟩
def blocksDone (c : Core) : Core := { c with guide := { c.guide with blocks := Vector.replicate 8 ⟨some 3, some 0, [0], true⟩ } }
theorem test_schedule_met :
    takeSchedule (header 3 0 0 8) [] lab = lab ∧ takeSchedule (header 3 1 0 7) [] lab = lab ∧
      (block (takeSchedule (header 3 63 63 7) [] lab) 7).seen = [63] ∧
      takeSchedule (header 3 0 0 7) [] (blocksDone lab) = blocksDone lab ∧
      (block (takeSchedule (header 4 0 0 0) [] lab) 0) = ⟨some 4, some 0, [0], true⟩ ∧
      (completeBlock 0 4 lab).guide.records = [] ∧ (completeBlock 0 0 lab).guide.records = [film] ∧
      (completeBlock 7 3 (blocksDone sweeping)).guide.sweep = ⟨.idle, ⟨14400000, 14400000, true⟩, ⟨5000, 5000, false⟩, .fresh, none⟩ ∧
      (completeBlock 7 3 (blocksDone sweeping)).link.notices.map (·.body) = [.guideReady 1 (List.replicate 8 (some 3))] := by
  decide +kernel
def pinned (n : Nat) : Core := labLimits { lab.limits with pin := some pin4, count := n }
theorem test_pinCheck_met :
    (labStore { lab.store with state := .wiping }).store.state = .wiping ∧ lab.limits.failFlag = false ∧ lab.limits.pin = none ∧
      (labLimits { lab.limits with failFlag := true }).limits.failFlag = true ∧
      (labLimits { lab.limits with lockout := running }).limits.lockout.running = true ∧ (pinned 0).limits.pin.isSome = true ∧
      crowded.store.queue.length = 16 ∧ (∀ it ∈ crowded.store.queue, it.key ≠ ⟨.pin, 0⟩) ∧
      pinCheck (some pin4) (pinned 0) = (.pass, pinned 0) ∧ (pinCheck none (pinned 0)).1 = .wrong ∧
      (pinCheck (some []) (pinned 2)).1 = .wrong ∧ (pinCheck (some []) (pinned 2)).2.limits.lockout.running = true ∧
      (offer pinItem lab).1 = .taken := by decide +kernel
theorem test_unlock_met :
    (pinCheck none (pinned 0)).1 = .wrong ∧ (pinCheck none (labLimits { lab.limits with lockout := running })).1 = .lockedOut ∧
      (pinCheck none (labLimits { lab.limits with failFlag := true })).1 = .busy ∧
      (session (viewing .presenting 0 lab) .roomA).lcn = some 1 ∧ (session lab .roomB).lcn = none ∧ pinFormed pin4 = true ∧
      PinPasses none lab lab ∧ Handled (.unlockRoom 1 (some ⟨2, none⟩)) (holding lab) :=
  ⟨by decide, by decide, by decide, by decide, by decide, by decide, rfl, test_lab_handles _⟩
theorem test_pinRefusals_met :
    lab.clock.power = .active ∧ (profileOf lab 0).isSome = true ∧ (findChannel lab 9999).isSome = true ∧
      (profileOf (putProfile 5 (some Profile.master) lab) 5).isSome = true ∧
      9999 ∈ (labLimits { lab.limits with lockList := [9999] }).limits.lockList ∧ lab.limits.lockList.length < 64 ∧
      sent (.switchProfile 1 (some ⟨0, 0, none⟩)) (pinned 0) = [.reply 1 .pinWrong .none] ∧
      sent (.setProfile 1 (some ⟨5, some ⟨7, 1440, [⟨1439, 1440⟩], 1000000⟩, none⟩)) (pinned 0) = [.reply 1 .pinWrong .none] ∧
      sent (.setProfile 1 (some ⟨1, none, none⟩)) (putProfile 1 (some Profile.master) (pinned 0)) = [.reply 1 .pinWrong .none] ∧
      sent (.setRoomDefault 1 (some ⟨1, 0, none⟩)) (pinned 0) = [.reply 1 .pinWrong .none] ∧
      sent (.lockChannel 1 (some ⟨9999, none⟩)) (pinned 0) = [.reply 1 .pinWrong .none] ∧
      sent (.unlockChannel 1 (some ⟨1, none⟩)) (labLimits { (pinned 0).limits with lockList := [1] }) = [.reply 1 .pinWrong .none] ∧
      (let c := putProfile 0 (some { Profile.master with purchaseCeiling := 299 }) (pinned 0)
       sent (.purchase 1 (some ⟨0, .event 9999 65535, none⟩)) { c with access := { c.access with events := [] } } =
         [.reply 1 .pinWrong .none]) := by decide +kernel
def unlocked : Core := setContext .a ⟨0, 0, some ⟨5, some ⟨1, none⟩⟩, some ⟨1, none⟩⟩ lab
theorem test_relock_met :
    Handled (.relockRoom 1 (some 2)) (holding lab) ∧ (context unlocked .a).grant ≠ none ∧ (context lab .a).grant = none ∧
      (context unlocked .a).saved = some ⟨5, some ⟨1, none⟩⟩ ∧ (context lab .b).saved = none :=
  ⟨test_lab_handles _, by decide⟩
theorem test_profiles_met :
    Handled (.switchProfile 1 (some ⟨0, 6, none⟩)) (holding lab) ∧ profileOf lab 5 = none ∧ (profileOf lab 0).isSome = true ∧
      lab.clock.power = .active ∧ (profileOf (putProfile 5 (some .master) lab) 5).isSome = true ∧
      (profileOf (putProfile 1 (some .master) lab) 1).isSome = true ∧ (context lab .a).saved = none ∧
      (context unlocked .a).saved = some ⟨5, some ⟨1, none⟩⟩ ∧ PinPasses (some pin4) (pinned 0) (pinned 0) :=
  ⟨test_lab_handles _, by decide, by decide, by decide, by decide, by decide, by decide, by decide, rfl⟩
theorem test_limitSettings_met :
    Handled (.setRoomDefault 1 (some ⟨0, 6, none⟩)) (holding lab) ∧ Handled (.setProfile 1 (some ⟨5, some ⟨7, 1440, [⟨0, 1440⟩], 1000000⟩, none⟩)) (holding lab) ∧
      Handled (.setProfile 1 (some ⟨6, some ⟨8, 1441, [⟨1440, 1440⟩], 1000001⟩, none⟩)) (holding lab) ∧
      Handled (.setProfile 1 (some ⟨0, none, none⟩)) (holding lab) ∧ Handled (.setPin 1 (some ⟨none, some [0x30, 0x30, 0x30]⟩)) (holding lab) ∧
      PinPasses none lab lab ∧ (findChannel lab 9999).isSome = true ∧ (9999 ∉ lab.limits.lockList) ∧
      (64 ≤ (List.replicate 64 1).length ∧ 9999 ∉ List.replicate 64 1) ∧ (1 ∈ List.replicate 63 1) :=
  ⟨test_lab_handles _, test_lab_handles _, test_lab_handles _, test_lab_handles _, test_lab_handles _, rfl, by decide, by decide,
    by decide, by decide⟩
def minuted (used : Nat) : Core :=
  putProfile 0 (some { Profile.master with allowance := 60, used := used })
    (viewing .presenting 0 (labLimits { lab.limits with minute := running, lockout := running }))
theorem test_limitTimers_met :
    lab.limits.lockout.running = false ∧ (minuted 0).limits.lockout.running = true ∧ lab.limits.minute.running = false ∧
      (minuted 0).limits.minute.running = true ∧ (context (minuted 0) .a).active = 0 ∧
      (session (minuted 0) (Room.output .a)).state = .presenting ∧
      (minuted 0).limits.profiles.get 0 = some { Profile.master with allowance := 60 } ∧
      (minuted 48).limits.profiles.get 0 = some { Profile.master with allowance := 60, used := 48 } ∧ (48 + 1) % 5 ≠ 0 ∧
      (∀ n, charged (labLimits { lab.limits with minute := running }) n = false ∨ 5 < n) ∧
      (∀ m, charged (minuted 0) m = true → m = 0 ∨ 5 < m) := by
  refine ⟨by decide, by decide, by decide, by decide, by decide, by decide, by decide, by decide, by decide, ?_, ?_⟩
  · intro n
    rcases n with _ | _ | _ | _ | _ | _ | n <;> first | (right; omega) | (left; decide)
  · intro n h
    rcases n with _ | _ | _ | _ | _ | _ | n <;> first | (left; rfl) | (right; omega) | exact absurd h (by decide)
def buyer (x : Purchase) (k : Clock) : Core := { lab with access := { lab.access with events := [] }, purchase := x, clock := k }
def flight : InFlight := ⟨1, .a, 9999, 65535, 300, 1000000, 0, 1007200⟩
def sale (n : Seq) (reported : Bool) : PurchaseRecord := ⟨n, 1, 1, 1, 1, 0, reported⟩
theorem test_purchaseRefused_met :
    Handled (.purchase 1 (some ⟨1, .event 9999 65535, none⟩)) (holding lab) ∧ (∀ f, bare.access.issue ≠ .locked f) ∧
      lab.access.issue = .locked fields ∧ (labPurchase { lab.purchase with inFlight := some flight }).purchase.inFlight ≠ none ∧
      findRecord lab 1 1 = none ∧ findRecord lab 9999 65535 = some film ∧ film.price = some 300 ∧
      (∃ g ∈ lab.access.events, g.lcn = 9999 ∧ g.event = 65535) ∧ film.finish = 1003600 ∧ 1003600 < 1003301 + 300 ∧
      1003300 + 300 ≤ 1003600 ∧ 48 ≤ (List.replicate 48 (sale 1 true)).length ∧
      24 ≤ (List.replicate 24 (EventGrant.mk 1 1 2000000 .bulletin)).length ∧
      (∀ g ∈ List.replicate 24 (EventGrant.mk 1 1 2000000 .bulletin), 1000000 < g.expiry) :=
  ⟨test_lab_handles _, (by intro f h; cases h), by decide⟩
theorem test_purchaseAccepted_met :
    Handled (.purchase 1 (some ⟨1, .event 9999 65535, none⟩)) (holding (buyer lab.purchase lab.clock)) ∧
      (buyer lab.purchase lab.clock).purchase.inFlight = none ∧ 300 ≤ (activeProfile lab .b).purchaseCeiling ∧
      (activeProfile (putProfile 0 (some { Profile.master with purchaseCeiling := 299 }) lab) .b).purchaseCeiling < 300 ∧
      PinPasses none lab lab ∧ (labPurchase { lab.purchase with inFlight := some flight }).purchase.inFlight = some flight :=
  ⟨handled _ (by decide) _, by decide, by decide, by decide, rfl, by decide⟩
def up (st : UplinkState) (u : Uplink) (log : List PurchaseRecord) : Core :=
  { lab with purchase := { lab.purchase with log := log }, uplink := { u with state := st } }
def report : Report := ⟨[sale 1 false], false, 1⟩
def sendingUp : Core := up .sending { lab.uplink with report := some report, answerWait := running, retry := running } [sale 1 false]
theorem test_uplinkRequests_met :
    Handled (.uplinkNow 1 (some ())) (holding (up .idle lab.uplink [sale 1 true])) ∧
      (up .idle lab.uplink [sale 1 true]).purchase.log ≠ [] ∧ lab.purchase.log = [] ∧ sendingUp.uplink.state ≠ .idle ∧
      (up .silent { lab.uplink with quiet := 31 } []).uplink.quiet < 32 ∧ (up .silent lab.uplink []).uplink.state = .silent ∧
      Handled (.setUplink 1 (some ⟨1, 15⟩)) (holding lab) ∧ Handled (.setUplink 1 (some ⟨0, 1440⟩)) (holding lab) ∧
      Handled (.setUplink 1 (some ⟨2, 14⟩)) (holding lab) :=
  ⟨handled _ (by decide) _, by decide, by decide, by decide, by decide, by decide, test_lab_handles _, test_lab_handles _,
    test_lab_handles _⟩
theorem test_reports_met :
    lab.uplink.reportTimer.running = false ∧ (up .idle { lab.uplink with reportTimer := running } [sale 1 true]).uplink.reportTimer.running = true ∧
      8 ≤ (unreported (up .idle lab.uplink (List.replicate 8 (sale 1 false))).purchase).length ∧
      (unreported (up .idle lab.uplink (List.replicate 7 (sale 1 false))).purchase).length < 8 ∧
      (up .idle { lab.uplink with pendingFlag := true } []).uplink.pendingFlag = true ∧ lab.uplink.pendingFlag = false := by decide
theorem test_modem_met :
    sendingUp.uplink.state = .sending ∧ sendingUp.uplink.answerWait.running = true ∧ sendingUp.uplink.report = some report ∧
      sale 1 false ∈ sendingUp.purchase.log ∧ (sale 1 false).seq ∈ report.records.map (·.seq) ∧ sendingUp.uplink.slotRetries < 4 ∧
      4 ≤ ({ sendingUp.uplink with slotRetries := 4 } : Uplink).slotRetries ∧ 4 < (5 : Byte).toNat ∧
      sendingUp.uplink.retry.running = true ∧ lab.uplink.retry.running = false ∧ sendingUp.uplink.failures < 15 ∧
      15 ≤ ({ sendingUp.uplink with failures := 15, ackWait := running } : Uplink).failures := by decide
theorem test_uplinkWaits_met :
    lab.uplink.answerWait.running = false ∧ lab.uplink.ackWait.running = false ∧ lab.uplink.backoff.running = false ∧
      lab.uplink.quietTimer.running = false ∧
      (up .backoff { lab.uplink with backoff := running, pendingFlag := true } [sale 1 true]).uplink.pendingFlag = true ∧
      (up .silent { lab.uplink with quietTimer := running, quiet := 30 } []).uplink.quiet < 31 ∧
      31 ≤ (up .silent { lab.uplink with quietTimer := running, quiet := 31 } []).uplink.quiet ∧
      recovers (up .silent { lab.uplink with quiet := 32 } []).uplink = true ∧
      recovers (up .silent { lab.uplink with quiet := 32, mode := .hold } []).uplink = false := by decide

/-! ### The Account Store -/

def paged (x : Page) (st : Store) : Core := labStore (setPage 3 x st)
def opened : Page := ⟨.opened, 1, []⟩
def record : Record := ⟨⟨.settings, 1⟩, 1, .homeCarrier none, 480, 1, 1, false, false⟩
def job : Job := ⟨someItem, [480], 1, 0⟩
theorem test_queue_met :
    (∀ x ∈ lab.store.queue, x.key ≠ someItem.key) ∧ 16 ≤ crowded.store.queue.length ∧
      (∀ x ∈ crowded.store.queue, x.key ≠ someItem.key) ∧ (fullQueue.tail).length < 16 ∧ someItem.urgent = false ∧
      pinItem.urgent = true ∧ (crowded.store.queue.map (·.key)).Nodup ∧ filler 15 ∈ crowded.store.queue ∧ (filler 15).urgent = false ∧
      (labStore { lab.store with state := .erasing }).store.suspended = false := by decide
theorem test_items_met :
    lab.store.queue = [] ∧ (paged opened { lab.store with queue := [someItem] }).store.queue = [someItem] ∧
      someItem.records = [(⟨.settings, 1⟩, .homeCarrier none)] ∧ openPage (paged opened lab.store).store = some 3 ∧
      recordSize 480 ≤ pageFree (page (paged opened lab.store).store 3) ∧ recordSize 1 ≤ 496 ∧
      4 ≤ erasedCount (paged opened lab.store).store ∧ someItem.key.kind ≠ .purchase ∧ someItem.key.kind ≠ .pin ∧ job.done = 0 ∧
      recordSize 224 ≤ pageFree (page (paged { opened with entries := [.record { record with length := 224 }] } lab.store).store 3) := by
  decide +kernel
theorem test_nothingOwed_met : nothingOwed lab ∧ noneKept lab :=
  ⟨by unfold nothingOwed; decide, by unfold noneKept; decide⟩
def compacting : Store := { lab.store with run := some ⟨2, 0, some 5⟩ }
theorem test_pages_met :
    (page (paged opened lab.store).store 3).state = .opened ∧ (∀ x, (page (paged opened lab.store).store x).state = .opened → x = 3) ∧
      nextErased (paged opened lab.store).store = some 0 ∧ (∀ x, (page lab.store x).state ≠ .opened) ∧ page lab.store 4 = .blank ∧
      (paged opened compacting).store.run = some ⟨2, 0, some 5⟩ ∧ nextCopy (paged opened compacting).store 5 = none ∧
      4 ≤ erasedCount lab.store ∧
      erasedCount (labStore { lab.store with pages := Vector.replicate 128 ⟨.full, 1, []⟩ }).store < 4 ∧
      oldestFull (labStore { lab.store with pages := Vector.replicate 128 ⟨.full, 1, []⟩ }).store = some 0 := by
  decide +kernel
theorem test_wipe_met :
    Handled (.wipeAccount 1 (some none)) (holding lab) ∧ PinPasses none lab lab ∧ lab.store.activity = .none ∧
      openPage (paged opened lab.store).store = some 3 ∧ 16 ≤ pageFree (page (paged opened lab.store).store 3) ∧
      openPage (labStore { lab.store with pages := Vector.replicate 128 ⟨.full, 1, []⟩ }).store = none ∧
      nextErased (labStore { lab.store with pages := Vector.replicate 128 ⟨.full, 1, []⟩ }).store = none ∧
      (labStore { lab.store with activity := .bankErase 6, banks := [7] }).store.banks = [7] ∧
      (labStore { lab.store with activity := .bankErase 7, banks := [] }).store.activity = .bankErase 7 :=
  ⟨test_lab_handles _, rfl, by decide +kernel⟩
theorem test_scan_met :
    State.reset.core.store.state = .scanning ∧ (scanned [] State.reset.core.store).floor = 0 ∧
      4 ≤ erasedCount (scanned [] State.reset.core.store) ∧ lab.store.state ≠ .scanning ∧
      (page (setPage 127 ⟨.retiring, 1, []⟩ State.reset.core.store) 127).state = .retiring := by decide +kernel
theorem test_owed_met :
    nothingOwed { (labClock { lab.clock with owedDay := true }) with clock := { lab.clock with owedDay := false } } ∧
      (labClock { lab.clock with owedDay := true }).clock.owedDay = true ∧ lab.clock.today = some 11 := by unfold nothingOwed; decide

def mapped : Core := takeDirectory (header 2 0 0 0) (some 1) [⟨2, far⟩, ⟨1, near⟩, ⟨1, far⟩, ⟨3, ⟨47999, .a⟩⟩]
  [⟨9999, 2, 1, .free, [], 0, false, []⟩, ⟨1, 1, 1, .subscribed, [5, 5], 0, false, []⟩, ⟨2, 1, 1, .subscribed, [], 0, false, []⟩,
   ⟨3, 3, 1, .free, [], 0, false, []⟩] lab
theorem test_directory_met :
    (takeDirectory (header 2 39 39 0) none [] [] lab).dir.asmArea.map (·.number) = [39] ∧ takeDirectory (header 2 0 40 0) none [] [] lab = lab ∧
      takeDirectory (header 2 2 1 0) none [] [] lab = lab ∧
      (takeDirectory (header 2 0 0 0) none [] [] { lab with dir := { lab.dir with version := some 2, asmVersion := some 3, asmLast := 4 } }).dir.asmVersion = none ∧
      takeDirectory (header 2 1 1 0) none [] [] (takeDirectory (header 2 1 1 0) none [] [] lab) = takeDirectory (header 2 1 1 0) none [] [] lab ∧
      mapped.dir.version = some 2 ∧ mapped.dir.map.map (·.lcn) = [1, 9999] ∧ mapped.dir.carriers = [⟨1, near⟩, ⟨2, far⟩] ∧
      mapped.dir.guideCarrier = some 1 ∧ mapped.dir.owed = [] ∧ mapped.store.queue.map (·.key) = [⟨.directoryPart, 1⟩, ⟨.directoryPart, 0⟩] := by
  decide +kernel
theorem test_snapshot_met :
    (startSnapshot crowded).dir.owed = [1, 0] ∧ (startSnapshot (labStore { lab.store with state := .wiping })).dir.owed = [1, 0] ∧
      (startSnapshot (labStore { lab.store with state := .storeFull })).dir.owed = [] ∧
      (startSnapshot (labStore { lab.store with state := .fault })).dir.owed = [] ∧ 1 ∈ (startSnapshot crowded).dir.owed ∧
      (offer (snapshotItem lab.dir 1) lab).1 = .taken := by decide +kernel

/-! ### Bookings, power and seconds -/

def timed (kind output lead b e : Nat) : AddBookingReq := ⟨kind, 9999, none, some b, some e, lead, output, false⟩
def booking (id : Nat) (x : BookingState) : Booking :=
  { id := id, kind := .recording, lcn := 1, link := none, start := 1000000, finish := 1003600, lead := 0, output := .any
    inUse := none, takesRoom := false, extended := false, state := x }
def booked (l : List Booking) : Core := labClock { lab.clock with bookings := l }
theorem test_bookings_met :
    Handled (.addBooking 1 (some (timed 1 4 0 1000121 1000122))) (holding lab) ∧ Handled (.addBooking 1 (some (timed 0 0 30 1001801 1001802))) (holding lab) ∧
      Handled (.addBooking 1 (some (timed 2 5 31 1 1))) (holding lab) ∧ Handled (.addBooking 1 (some ⟨1, 9998, some 65535, none, none, 0, 2, true⟩)) (holding lab) ∧
      findRecord lab 9999 65534 = none ∧ 1000000 + 120 < 1000121 ∧ ¬(1000000 < 1000000) ∧
      32 ≤ (booked (List.replicate 32 (booking 1 .done))).clock.bookings.length ∧
      booking 1 .waiting ∈ (booked [booking 1 .waiting, booking 2 .active]).clock.bookings ∧
      ((booked [booking 1 .waiting, booking 2 .active]).clock.bookings.map (·.id)).Nodup ∧ lab.clock.lastId % 255 + 1 = 1 ∧
      (∀ x ∈ lab.clock.bookings, x.id ≠ 1) ∧ Handled (.dropBooking 1 (some 255)) (holding lab) ∧
      Handled (.dropBooking 1 (some 0)) (holding lab) :=
  ⟨test_lab_handles _, test_lab_handles _, test_lab_handles _, test_lab_handles _, by decide, by decide, by decide, by decide, by decide,
    by decide, by decide, by decide, test_lab_handles _, test_lab_handles _⟩
theorem test_power_met :
    Handled (.standby 1 (some ())) (holding lab) ∧ Handled (.resume 1 (some ())) (holding standbyHeld) ∧ lab.clock.power = .active ∧
      standbyHeld.clock.power = .standby ∧ heldTuner standbyHeld .watch = none ∧ noneExtended (booked [booking 1 .due]) ∧
      (∃ b ∈ (booked [booking 1 .due]).clock.bookings, b.state = .due) :=
  ⟨test_lab_handles _, handled standbyHeld (by decide) _, by decide, by decide, by decide, by unfold noneExtended; decide, by decide⟩
theorem test_times_met :
    takeTime 5 (some 841) lab = lab ∧ takeTime 5 (some (-721)) lab = lab ∧
      (takeTime 5 (some 840) bare).clock.time = some 5 ∧ (takeTime 1000001 none lab).clock.time = some 1000000 ∧
      (takeTime 999999 (some (-720)) lab).clock.broadcast = -720 ∧ (takeTime 1000002 none lab).clock.lastCorrection = some 2 ∧
      (takeTime 999940 none lab).link.notices = [] ∧ (takeTime 1000060 none lab).clock.time = some 1000060 ∧
      (takeTime 1000061 none lab).link.notices.map (·.body) = [.clockSet 1000061 (some 61) 0] ∧
      (takeTime 999939 none lab).link.notices.map (·.body) = [.clockSet 999939 (some (-61)) 0] := by decide +kernel
theorem test_seconds_met :
    bare.clock.time = none ∧ lab.clock.time = some 1000000 ∧ bare.clock.today = none ∧ lab.clock.today = some 11 ∧
      (11 : Int) < Int.fdiv (1036799 + 1) 86400 ∧ Int.fdiv (1036798 + 1) 86400 ≤ 11 := by decide

/-- A busy reply and an empty notice batch, byte for byte. -/
theorem test_frame_bytes :
    (Frame.reply 7 .busy .none).bytes = [0xA5, 0x02, 0x07, 0x01, 0x05, 0x8F, 0xAC].map (BitVec.ofNat 8) ∧
      (Frame.batch 9 true 0 []).bytes = [0xA5, 0x03, 0x09, 0x04, 0x00, 0x01, 0x00, 0x00, 0xDF, 0x98].map (BitVec.ofNat 8) := by
  decide +kernel

def recorded : Core :=
  setSession .record1 { session lab .record1 with state := .opening, lcn := some 1, origin := .booking 1 }
    (booked [{ booking 1 .active with inUse := some .record1 }])

/-- The wipe hands the stop to the ACTIVE booking, which is MISSED, and then empties the list. -/
theorem test_wipe_misses_active_booking :
    (wipeClock recorded).clock.bookings = [] ∧
      (wipeClock recorded).link.notices.map (·.body) =
        [.sessionState .record1 .idle .none none none, .bookingState 1 .recording 1 .missed none false (some .stopped)] := by
  decide +kernel

/-! ### Signals, claims and bindings -/

/-- Room A stands DARK with this return state, its service, and these recorded reasons. -/
def darkened (ret : SessionState) (r : Reasons) (c : Core) : Core :=
  setSession .roomA { session (viewing .dark 0 c) .roomA with ret := some ret, reasons := r, lcn := some 1 } (viewing .dark 0 c)
theorem test_signalLost_met :
    (session (signalLost .roomA (viewing .held 9 lab)) .roomA).ret = some .held ∧
      (signalLost .roomA (viewing .opening 9 lab)).link.notices.length = 1 ∧ signalLost .roomA lab = lab ∧
      (session (viewing .tuning 9 lab) .roomA).state = .tuning ∧ Holders.has { Holders.none with roomA := true } (.out .roomA) = true ∧
      (let c := setTuner 0 { tuner (viewing .presenting 0 lab) 0 with holders := { Holders.none with roomA := true } } (viewing .presenting 0 lab)
       (session (next (.lossReport 0 (tuner c 0).count) (holding c)).core .roomA).state = .dark ∧
         (session (next (.lossReport 0 (tuner c 0).count) (holding c)).core .roomA).ret = some .presenting) := by decide +kernel
theorem test_signalRegained_met :
    (session (signalRegained .roomA (darkened .opening .none lab)) .roomA).state = .opening ∧
      (session (signalRegained .roomA (darkened .checking .none lab)) .roomA).laneWait = ⟨2000, 2000, true⟩ ∧
      laneEntry (setLaneMap 0 { LaneMap.empty with entries := [⟨10, [5], 0, 0⟩] } (darkened .opening .none lab))
        (session (darkened .opening .none lab) .roomA) = some ⟨10, [5], 0, 0⟩ ∧
      (session (signalRegained .roomA (setLaneMap 0 { LaneMap.empty with entries := [⟨10, [5], 0, 0⟩] } (darkened .checking .none lab))) .roomA).state =
        .presenting ∧
      (session (signalRegained .roomA (darkened .presenting .none lab)) .roomA).state = .presenting ∧
      (session (signalRegained .roomA (darkened .held { Reasons.none with noGrant := true } lab)) .roomA).reasons = { Reasons.none with noGrant := true } ∧
      (session (darkened .held .none (keyed lab)) .roomA).service = some ⟨12, [5], 0, 0⟩ := by decide +kernel
theorem test_acquisitionElsewhere_met :
    (let c := setTuner 1 { tuner lab 1 with state := .locked, holders := Holders.none.put .sweep true } (onTuner 0 .acquiring lab)
     (tuner c 0).holders.sweep = false ∧ (tuner c 1).holders.sweep = true ∧ (next (.acquisitionLimit 0) (holding c)).core.guide = c.guide) ∧
      (setTuner 0 { tuner (onTuner 0 .acquiring lab) 0 with holders := Holders.none.put .sweep true } (onTuner 0 .acquiring lab)
        |> fun c => (tuner c 0).holders.sweep = true ∧ ∀ v, v ≠ 0 → (tuner c v).holders.sweep = false) := by decide +kernel
/-- Four tuners of these holders, LOCKED on far carriers. -/
def fourHeld (a b c d : Holders) : Core :=
  let u := fun h : Holders => { Tuner.reset with state := .locked, carrier := some far, holders := h }
  { lab with arb := { lab.arb with tuners := #v[u a, u b, u c, u d] } }
theorem test_claims_met :
    (let background := Holders.none.put .sweep true
     let a := Holders.none.put (.out .roomA) true
     let b := Holders.none.put (.out .roomB) true
     let r := Holders.none.put (.out .record1) true
     let ab := a.put (.out .roomB) true
     let plan := fun (x : Claimant) (m : ClaimMode) (c : Core) => planClaim c x near m
     plan (.out .record2) (.booking true) (fourHeld a b background r) = .preempt 2 ∧
       plan (.out .record2) (.booking true) (fourHeld a b r r) = .preempt 1 ∧
       plan (.out .record2) (.booking true) (fourHeld r a ab r) = .preempt 1 ∧
       plan (.out .record2) (.booking true) (fourHeld r ab r ab) = .preempt 1 ∧
       plan (.out .record2) (.booking true) (fourHeld r r r r) = .refused ∧
       plan (.out .record2) (.booking false) (fourHeld a b r r) = .refused ∧ plan (.out .record2) .host (fourHeld a b r background) = .preempt 3 ∧
       plan (.out .roomA) .host (fourHeld r a b a) = .retune 1 ∧ plan (.out .roomA) .host (fourHeld r ab b background) = .preempt 3 ∧
       plan .watch .host (fourHeld background background r r) = .refused ∧ plan .sweep .host (fourHeld r r background r) = .retune 2 ∧
       planClaim (fourHeld a b r r) (.out .roomB) far .host = .join 0 ∧ planClaim (fourHeld a b r r) (.out .roomA) far .host = .keep 0 ∧
       plan (.out .roomA) .host lab = .take 0 ∧ heldTuner (fourHeld a b r r) (.out .record2) = none) := by decide +kernel
theorem test_preemption_met :
    (let c := setSession .roomB { session lab .roomB with state := .presenting, lcn := some 1, tuner := some 1 }
       (fourHeld (Holders.none.put (.out .roomA) true) (Holders.none.put (.out .roomB) true) (Holders.none.put (.out .record1) true) (Holders.none.put (.out .record1) true))
     let d := carryOut (.out .record2) near (.preempt 1) c
     (session d .roomB).reasons = { Reasons.none with tunerTaken := true } ∧ (tuner d 1).holders = Holders.none.put (.out .record2) true ∧
       (tuner d 1).carrier = some near ∧ d.link.notices.map (·.body) = [.sessionState .roomB .held { Reasons.none with tunerTaken := true } (some 1) none]) := by
  decide +kernel
theorem test_bindings_met :
    (let c := keyed lab
     let shared := setKeySlot 2 { keySlot c 2 with refs := 2 } (setSession .roomA { session c .roomA with slot := some 2 } c)
     let own := setKeySlot 2 { keySlot c 2 with refs := 1 } shared
     (keySlot (bindKey .roomA near 9 0 own) 2).refs = 1 ∧ (keySlot (bindKey .roomB near 9 0 own) 2).refs = 2 ∧
       (session (bindKey .roomB near 9 0 own) .roomB).slot = some 2 ∧
       (keySlot (bindKey .roomA far 9 1 own) 2) = ⟨some far, some 9, 1, .waiting, none, none, none, none, .stopped, some 1⟩ ∧
       (keySlot (bindKey .roomA near 8 0 shared) 2).refs = 1 ∧ (session (bindKey .roomA near 8 0 shared) .roomA).slot = some 0 ∧
       (keySlot (bindKey .roomA near 8 0 shared) 0) = ⟨some near, some 8, 1, .waiting, none, none, none, none, .stopped, some 0⟩ ∧
       (session (bindKey .record2 far 4095 3 own) .record2).slot = some 0 ∧ slotOn lab 0 9 = none ∧
       keySlot (unbindKey .roomA own) 2 = .empty ∧ (keySlot (unbindKey .roomA shared) 2).refs = 1 ∧ unbindKey .roomB own = own ∧
       (keySlot (closeTunerSlots 0 own) 2).filter = none ∧ (keySlot (closeTunerSlots 1 own) 2).filter = some 0) := by decide +kernel

/-! ### Grants, the wipe and the loads -/

theorem test_operations_met :
    (applyOp lab (.addPackage 4095 1 2)).access.packages = [⟨4095, 1, 2⟩] ∧ (applyOp lab (.addPackage 1 1 2)).access.packages = [⟨1, 1, 2⟩, ⟨4095, 11, 12⟩] ∧
      (let full := { lab with access := { lab.access with packages := (List.range 48).map fun n => ⟨n + 1, 0, 0⟩ } }
       applyOp full (.addPackage 49 1 2) = full) ∧
      applyOp lab (.addEvent 1 1 1000000) = lab ∧ (applyOp lab (.addEvent 1 1 1000001)).access.events.length = 2 ∧
      (applyOp lab (.addEvent 9999 65535 3000000)).access.events = [⟨9999, 65535, 3000000, .bulletin⟩] ∧
      (let held := fun n : Nat => { lab with access := { lab.access with events := (List.range n).map fun k => ⟨1, k, 2000000, .bulletin⟩ } }
       (applyOp (held 23) (.addEvent 2 1 2000000)).access.events.length = 24 ∧ applyOp (held 24) (.addEvent 2 1 2000000) = held 24 ∧
         (let c := { held 23 with purchase := { lab.purchase with inFlight := some flight } }
          applyOp c (.addEvent 2 1 2000000) = c)) ∧
      (applyOp (labPurchase { lab.purchase with log := [sale 1 true, sale 2 true, sale 3 false] }) (.purchaseAck 2)).purchase.log = [sale 3 false] ∧
      (applyOp { sendingUp with uplink := { sendingUp.uplink with state := .waitAck } } (.purchaseAck 1)).uplink.state = .idle ∧
      seqAfter 1 1 = false ∧ seqAfter 2 1 = true := by decide +kernel
theorem test_groups_met :
    (applyBulletin 0 (grants 7 [.cut]) lab).link.notices.map (·.body) = [.grantsChanged (.bulletin 0 7) 1 1 true] ∧
      (applyBulletin 0 (grants 7 [.restore]) lab).link.notices = [] ∧ (applyBulletin 4 (grants 7 [.restore]) lab).access.last.get 4 = some 7 ∧
      (applyBulletin 0 (grants 7 [.creditTopUp 1]) lab).store.queue.map (·.urgent) = [true] ∧
      (commitGroup false crowded).access.groupOwed = true ∧ (commitGroup false (labStore { lab.store with state := .wiping })).access.groupOwed = false ∧
      (commitGroup false (labStore { lab.store with state := .fault })).access.groupOwed = false ∧
      (expirePackages 12 lab).access.packages = lab.access.packages ∧ (expirePackages 13 lab).access.packages = [] ∧
      (expireEvents 1999999 lab).access.events = lab.access.events ∧ (expireEvents 2000000 lab).access.events = [] := by decide +kernel
theorem test_wiped_met :
    noneKept lab ∧
      (let c := labStore { lab.store with activity := .bankErase 7, banks := [] }
       let d := (next (.bankEraseDone true) (holding c)).core
       d.access.packages = [] ∧ d.purchase.limit = 0 ∧ d.dir.owed = [] ∧ d.dir.map = lab.dir.map ∧ d.clock.today = some 11 ∧ d.uplink.interval = 360 ∧
         d.link.notices.map (·.body) = [.storeState .idle (some .wiped) 128 none none, .grantsChanged .wipe 0 0 false]) :=
  ⟨by unfold noneKept; decide, by decide +kernel⟩
def filedRecord (serial : Nat) (k : RecordKind) (n : Nat) (b : RecordBody) : PageEntry := .record ⟨⟨k, n⟩, serial, b, 1, 1, 1, false, false⟩
/-- A store whose first page holds one record of each owner. -/
def filed : Core := { lab with
  dir := State.reset.core.dir
  store := setPage 0 ⟨.opened, 1,
    [filedRecord 1 .lastDay 0 (.lastDay 20), filedRecord 2 .settings 6 (.clock (some 60) 600), filedRecord 3 .booking 255 (.booking (some
      { id := 255, kind := .recording, lcn := 1, link := none, start := 1, finish := 2, lead := 0, output := .any, inUse := some .record1
        takesRoom := false, extended := true, state := .active })),
     filedRecord 4 .directoryPart 1 (.directoryPart (some 3) [⟨1, 1, 10, .free, [], 0, false, []⟩]),
     filedRecord 5 .directoryPart 0 (.directoryHeader (some 3) [⟨1, near⟩] (some 1) 1), filedRecord 6 .settings 1 (.homeCarrier (some near)),
     filedRecord 7 .settings 2 (.acqLimit 3000), filedRecord 8 .settings 3 (.sweepInterval 60), filedRecord 9 .package 0 (.packages []),
     filedRecord 10 .eventGrant 0 (.eventGrants []), filedRecord 11 .bulletinNumbers 0 (.bulletinNumbers true #v[some 1, none, none, none, none]),
     filedRecord 12 .settings 5 (.uplink .hold 15), filedRecord 13 .credit 0 (.credit 500 900 (some 6)), filedRecord 14 .logAck 0 (.logAck (some 5) true),
     filedRecord 15 .purchase 6 (.purchase ⟨6, 1, 1, 100, 1, 0, true⟩ ⟨1, 1, 9, .purchase⟩ 0 0),
     filedRecord 16 .purchase 7 (.purchase ⟨7, 1, 2, 100, 1, 0, true⟩ ⟨1, 2, 9, .purchase⟩ 0 0),
     filedRecord 17 .profile 5 (.profile (some ⟨3, 60, 0, [], 1⟩)), filedRecord 18 .usedToday 0 (.usedToday #v[0, 0, 0, 0, 0, 90] (some 11)),
     filedRecord 19 .pin 0 (.pin (some pin4) 3), filedRecord 20 .lockList 0 (.lockList [1]), filedRecord 21 .settings 4 (.roomDefaults 5 4),
     filedRecord 22 .settings 7 (.link .edge 240 9)]⟩ lab.store }
theorem test_loads_clock_met :
    (loadClock filed).clock.today = some 20 ∧ (loadClock filed).clock.wakeLead = 600 ∧ (loadClock filed).clock.lastId = 255 ∧
      (loadClock filed).clock.bookings.map (fun b => (b.inUse, b.extended)) = [(none, false)] ∧ liveBody lab.store .lastDay 0 = none := by decide +kernel
theorem test_loads_directory_met :
    (loadDirectory filed).dir.map.map (·.lcn) = [1] ∧ (loadDirectory filed).dir.version = some 3 ∧ (loadDirectory filed).dir.home = some near ∧
      liveBody lab.store .directoryPart 0 = none ∧ (loadSettings filed).arb.acqLimit = 3000 ∧ (loadSettings filed).guide.interval = 60 ∧
      (loadAccess filed).access.cut = true ∧ (loadAccess { filed with access := .reset .blank }).access.cut = false := by decide +kernel
theorem test_loads_purchases_met :
    (storedPurchases filed.store).map (·.1.seq) = [6, 7] ∧ (loadPurchases filed).purchase.balance = 400 ∧
      (loadPurchases filed).purchase.charged = some 7 ∧ (loadPurchases filed).purchase.log.map (·.reported) = [false, false] ∧
      (loadPurchases filed).purchase.nextSeq = 8 ∧ (loadPurchases filed).uplink.reportTimer = ⟨900000, 900000, true⟩ ∧
      (loadPurchases lab).purchase = lab.purchase := by decide +kernel
theorem test_loads_limits_met :
    profileOf (loadLimits filed) 5 = some ⟨3, 60, 60, [], 1⟩ ∧ profileOf (loadLimits filed) 1 = none ∧ (loadLimits filed).limits.count = 3 ∧
      (loadLimits filed).limits.lockout = ⟨900000, 900000, true⟩ ∧ context (loadLimits filed) .a = ⟨5, 5, none, none⟩ ∧
      context (loadLimits filed) .b = ⟨0, 0, none, none⟩ ∧ (loadLink filed).link.gap = 240 ∧ loadLink lab = lab := by decide +kernel
theorem test_swapped_met :
    (let parts : List AreaPart := [⟨0, some 1, [⟨2, far⟩, ⟨1, near⟩, ⟨1, far⟩], [⟨9999, 2, 1, .free, [], 0, false, []⟩]⟩,
       ⟨1, none, [⟨3, ⟨1002001, .a⟩⟩, ⟨3, near⟩], [⟨9999, 1, 1, .free, [], 0, false, []⟩, ⟨1, 1, 1, .subscribed, [5, 6, 5], 0, false, []⟩]⟩]
     let c := swapIn 2 parts.reverse lab
     parts.Perm parts.reverse ∧ parts.Pairwise (fun a b => a.number < b.number) ∧ c.dir.carriers = [⟨1, near⟩, ⟨2, far⟩] ∧
       c.dir.map.map (fun e => (e.lcn, e.packages)) = [(1, [5, 6]), (9999, [])] ∧ c.dir.guideCarrier = some 1 ∧
       c.link.notices.map (·.body) = [.channelsChanged 2 2 2 3 1]) := by
  refine ⟨(List.reverse_perm _).symm, ?_⟩
  decide +kernel
theorem test_classes_met :
    (let e : ChannelEntry := ⟨1, 1, 10, .free, [], 0, false, []⟩
     let cls := fun (a b : List ChannelEntry) (x y : List CarrierEntry) => (classify a b x y 1).1
     cls [e] [] [] [] = .vanished ∧ cls [] [e] [] [] = .added ∧ cls [] [] [] [] = .unchanged ∧ cls [e] [e] [⟨1, near⟩] [⟨1, far⟩] = .moved ∧
       cls [e] [{ e with service := 11 }] [] [] = .renumbered ∧ cls [e] [{ e with hidden := true }] [] [] = .altered ∧
       cls [e] [{ e with carrierNo := 2 }] [⟨1, near⟩] [⟨2, near⟩] = .unchanged ∧ (tuner (renumberTuner (onTuner 0 .locked lab) 0) 0).number = some 1) := by
  decide +kernel

/-! ### Judgements -/

/-- What becomes of a booking of id 1 judged at a time. -/
def judgedAt (now : Nat) (b : Booking) (c : Core) : Option (BookingState × Option Output × Bool) :=
  (findBooking (judgeBooking now { c with clock := { c.clock with bookings := [b] } } 1) 1).map fun x => (x.state, x.inUse, x.extended)
theorem test_recordings_met :
    (let b := booking 1 .waiting
     [judgedAt 999879 b lab, judgedAt 999880 b lab, judgedAt 999999 b lab, judgedAt 1000000 b lab, judgedAt 1003599 b lab,
        judgedAt 1003600 b lab, judgedAt 1000000 { b with state := .due } lab, judgedAt 999999 { b with state := .due } lab,
        judgedAt 1003600 { b with state := .due } lab, judgedAt 1003599 { b with state := .active } lab,
        judgedAt 1003600 { b with state := .active } lab, judgedAt 1000000 { b with lcn := 9998 } lab,
        judgedAt 1089999 { b with state := .done } lab, judgedAt 1090000 { b with state := .done } lab] =
       [some (.waiting, none, false), some (.due, none, false), some (.due, none, false), some (.active, some .record1, false),
        some (.active, some .record1, false), some (.missed, none, false), some (.active, some .record1, false),
        some (.due, none, false), some (.missed, none, false), some (.active, some .record1, false), some (.missed, none, false),
        some (.missed, none, false), some (.done, none, false), none]) := by decide +kernel
/-- Event 65535 of channel 9999 is present by marker. -/
def overrunning : Core := { marked with guide := { marked.guide with markers := [⟨9999, 65535, far⟩] } }
theorem test_endings_met :
    (let b := { booking 1 .active with inUse := some .record2, lcn := 9999, link := some 65535 }
     presentEvent overrunning 9999 = some ⟨65535, true⟩ ∧
     [judgedAt 1003599 b overrunning, judgedAt 1003600 b overrunning, judgedAt 1003600 b lab,
        judgedAt 1010799 { b with extended := true } overrunning, judgedAt 1010800 { b with extended := true } overrunning,
        judgedAt 1003599 { b with extended := true } lab] =
       [some (.active, some .record2, false), some (.active, some .record2, true), some (.done, none, false),
        some (.active, some .record2, true), some (.done, none, false), some (.done, none, false)]) := by decide +kernel
theorem test_reminders_met :
    (let b := { booking 1 .waiting with kind := .reminder, lead := 30 }
     [judgedAt 998199 b lab, judgedAt 998200 b lab, judgedAt 1000000 b lab, judgedAt 1003600 b lab,
        judgedAt 999999 { b with state := .due } lab, judgedAt 1000000 { b with state := .due } lab] =
       [some (.waiting, none, false), some (.due, none, false), some (.done, none, false), some (.missed, none, false),
        some (.due, none, false), some (.done, none, false)]) := by decide +kernel
theorem test_startActions_met :
    (let use := fun (o : Output) (x : Origin) (c : Core) => setSession o { session c o with state := .presenting, lcn := some 1, origin := x } c
     let hosts := use .record1 .host (use .record2 .host lab)
     let first := use .record1 (.booking 9) (use .record2 .host lab)
     let both := use .record1 (.booking 9) (use .record2 (.booking 8) lab)
     let starts := fun (out : RecordOutput) (c : Core) => judgedAt 1000000 { booking 1 .due with output := out } c
     [starts .any hosts, starts .any first, starts .any both, starts .record1 first, starts .record2 first,
        starts .any (use .record1 .host lab)] =
       [some (.active, some .record1, false), some (.active, some .record2, false), some (.conflict, none, false),
        some (.conflict, none, false), some (.active, some .record2, false), some (.active, some .record2, false)]) := by decide +kernel
theorem test_outcomes_met :
    findBooking (booked [booking 1 .active]) 1 = some (booking 1 .active) ∧
      (bookingOutcome 1 .noTuner (booked [booking 1 .active])).clock.bookings.map (·.state) = [.missed] ∧
      bookingOutcome 1 .held (booked [booking 1 .active]) = booked [booking 1 .active] ∧
      bookingOutcome 1 .stopped (booked [booking 1 .done]) = booked [booking 1 .done] ∧ findBooking lab 1 = none ∧
      judgeBookings bare = bare := by decide +kernel
theorem test_minutes_met :
    (999999 + 1) % 60 ≠ 0 ∧ (1000019 + 1) % 60 = 0 ∧
      (next .clockSecond (holding (labClock { lab.clock with time := some 1000019, hold := running }))).core.clock.hold.left = 4000 ∧
      (next .clockSecond (holding (labClock { lab.clock with time := some 1999999 }))).core.access.events = [] := by decide +kernel

/-! ### What a reset cuts, what the replies give, what a scan finds -/

/-- What a reset leaves of page 3, and how many pages stand erased, when it cuts this activity. -/
def cutPage (landed : Bool) (a : Activity) : Page × Nat :=
  let st := (next (.powerOn ⟨false, landed⟩) (holding (paged opened { lab.store with job := some job, activity := a }))).core.store
  (page st 3, erasedCount st)
theorem test_cutWrites_met :
    job.next = some record ∧ openPage (paged opened lab.store).store = some 3 ∧ cutPage true .none = (opened, 127) ∧
      cutPage true (.item false) = ({ opened with entries := [.record record] }, 127) ∧
      cutPage false (.item true) = ({ opened with entries := [.record { record with torn := true }] }, 127) ∧
      cutPage false (.copy record false) = ({ opened with entries := [.record { record with torn := true }] }, 127) ∧
      cutPage false (.mark (.full 3) false .retire) = (opened, 127) ∧ (cutPage true (.mark (.full 3) true .retire)).1.state = .full ∧
      cutPage true (.mark (.opening 0) true .retire) = (opened, 126) ∧ (cutPage true (.mark (.retiring 3) false .retire)).1.state = .retiring ∧
      (cutPage true (.mark (.wipe 3) false .wipe)).1.entries = [.wipeMark 1 true] ∧ cutPage false (.erase 3) = (opened, 127) ∧
      cutPage true (.erase 3) = (.blank, 128) ∧ cutPage true (.bankErase 0) = (.blank, 128) ∧ cutPage true (.bankErase 7) = (opened, 127) ∧
      cutPage false (.bankErase 0) = (opened, 127) := by decide +kernel
theorem test_cutIssue_met :
    (let after := fun (landed : Bool) (w : IssueWrite) => (next (.resetLine ⟨true, landed⟩) (issuing w (.issue 1 none))).core.access.issue
     after true (.issue ⟨2, [], 1⟩) = .written ⟨2, [], 1⟩ ∧ after false (.issue ⟨2, [], 1⟩) = .written fields ∧ after true .lockFlag = .locked fields ∧
       after false .lockFlag = .written fields) := by decide +kernel
theorem test_statusReplies_met :
    Handled (.listChannels 1 (some ⟨9999, true⟩)) (holding lab) ∧ Handled (.sessionStatus 1 (some (some 3))) (holding lab) ∧
      Handled (.accessStatus 1 (some ⟨0, 4095⟩)) (holding lab) ∧ Handled (.accessStatus 1 (some ⟨1, 23⟩)) (holding lab) ∧
      Handled (.guideQuery 1 (some ⟨9999, 0⟩)) (holding lab) ∧ (findChannel lab 9999).isSome = true ∧ Handled (.purchaseLog 1 (some 47)) (holding lab) ∧
      Handled (.listBookings 1 (some 31)) (holding lab) ∧ (∀ b ∈ lab.clock.bookings, b.state ≠ .waiting) ∧
      (∃ b ∈ (booked [booking 1 .waiting]).clock.bookings, b.state = .waiting) :=
  ⟨test_lab_handles _, test_lab_handles _, test_lab_handles _, test_lab_handles _, test_lab_handles _, by decide, test_lab_handles _,
    test_lab_handles _, by decide, by decide⟩
theorem test_unlockedLoad_met :
    (let c := loadPurchases { filed with access := .reset .blank }
     c.purchase.balance = 300 ∧ c.purchase.limit = 1000 ∧ c.purchase.log = [] ∧ c.purchase.charged = none ∧ c.purchase.acked = some 5 ∧ c.purchase.nextSeq = 8 ∧
       c.access.events = [] ∧ loadedPurchases { filed with access := .reset .blank } = [] ∧ loadedPurchases filed = storedPurchases filed.store) := by
  decide +kernel
theorem test_scanWipes_met :
    (let s := { State.reset with core := { State.reset.core with
       store := setPage 127 ⟨.opened, 1, [.wipeMark 9 true, filedRecord 8 .lockList 0 (.lockList [])]⟩ State.reset.core.store } }
     let c := (next (.startUpScanDone []) s).core
     c.store.floor = 9 ∧ c.store.state = .wiping ∧ c.store.activity = .bankErase 7 ∧ c.store.banks = [] ∧ c.store.wipeFailed = false ∧
       liveRecord c.store ⟨.lockList, 0⟩ = none) := by decide +kernel

/-! ### Entering CHECKING, offers and change reports -/

theorem test_enterChecking_met :
    (let e : LaneEntry := ⟨12, [5], 9, 0⟩
     let c := viewing .opening 9 (setTuner 0 { tuner lab 0 with holders := Holders.none.put (.out .roomA) true } lab)
     (session (enterChecking .roomA { e with keyLane := 0 } c) .roomA).state = .presenting ∧
       (session (enterChecking .roomA { e with keyLane := 0 } c) .roomA).slot = none ∧
       (session (enterChecking .roomA e c) .roomA).keyWait = ⟨2500, 2500, true⟩ ∧
       (enterChecking .roomA e c).link.notices.map (·.body) = [.sessionState .roomA .checking .none (some 1) none] ∧
       (session (enterChecking .roomA e { c with limits := { c.limits with lockList := [1] } }) .roomA).reasons =
         { Reasons.none with noKey := true, channelLocked := true } ∧
       (enterChecking .roomA { e with keyLane := 0 } (setSession .roomA { session c .roomA with change := .tag 7 } c)).link.notices.map (·.body) =
         [.changeDone .roomA (some 7) .presenting (some 1) none] ∧
       session (enterChecking .roomA e (keyed c)) .roomA = { session c .roomA with
         state := .presenting, service := some e, laneWait := { running with running := false }, keyWait := { running with running := false } }) := by
  decide +kernel
/-- Room A watches the priced event, without its grant. -/
def pricedView (st : SessionState) (r : Reasons) (lcn : Nat) : Core :=
  let c := { lab with access := { lab.access with events := [] } }
  setSession .roomA { session (viewing st 0 c) .roomA with lcn := some lcn, event := some 65535, reasons := r } (viewing st 0 c)
def soldEvent : PurchaseRecord := ⟨1, 9999, 65535, 300, 1, 0, false⟩
theorem test_purchaseOffer_met :
    (let c := pricedView .held { Reasons.none with noGrant := true } 9999
     (purchaseOffer .roomA c).link.notices.map (·.body) = [.purchaseOffer .a 9999 65535 300 1003600] ∧
       purchaseOffer .roomA { c with access := { c.access with cut := true } } = { c with access := { c.access with cut := true } } ∧
       (let d := { c with purchase := { c.purchase with inFlight := some flight } }; purchaseOffer .roomA d = d) ∧
       (let d := { c with purchase := { c.purchase with inFlight := some { flight with event := 1 } } }; purchaseOffer .roomA d ≠ d) ∧
       (let d := { c with purchase := { c.purchase with log := [soldEvent] } }; purchaseOffer .roomA d = d) ∧
       purchaseOffer .roomB c = c ∧ purchaseOffer .record1 c = c) := by decide +kernel
/-- Every LCN of one class, between these carriers. -/
def ofClass (k : ChangeClass) (a b : Option Carrier) : Nat → ChangeClass × Option Carrier × Option Carrier := fun _ => (k, a, b)
theorem test_reports_of_changes_met :
    (let c := setTuner 0 { tuner (viewing .presenting 0 lab) 0 with holders := Holders.none.put (.out .roomA) true } (viewing .presenting 0 lab)
     let d := reportSession (ofClass .vanished none none) c .roomA
     let m := fun c : Core => reportSession (ofClass .moved (some near) (some far)) c .roomA
     let joins := fun (st : TunerState) => m (setTuner 1 { tuner c 1 with state := st, carrier := some far, holders := Holders.none.put (.out .roomB) true } c)
     let r := fun (st : SessionState) => reportSession (ofClass .renumbered none none) (viewing st 0 lab) .roomA
     (session d .roomA).reasons = { Reasons.none with noService := true } ∧ (tuner d 0).state = .off ∧
       reportSession (ofClass .altered none none) c .roomA = c ∧ reportSession (ofClass .added none none) c .roomA = c ∧
       reportSession (ofClass .vanished none none) lab .roomA = lab ∧
       (session (m c) .roomA).state = .tuning ∧ (session (m c) .roomA).change = .untagged ∧ (tuner (m c) 1).carrier = some far ∧
       (session (joins .acquiring) .roomA).state = .tuning ∧ (session (joins .lost) .roomA).ret = some .opening ∧
       (session (joins .locked) .roomA).laneWait = ⟨2000, 2000, true⟩ ∧ (session (joins .locked) .roomA).tuner = some 1 ∧
       (let full := setTuner 0 { tuner c 0 with holders := (Holders.none.put (.out .roomA) true).put (.out .roomB) true }
          (fourHeld .none (Holders.none.put (.out .roomB) true) (Holders.none.put (.out .roomB) true) (Holders.none.put (.out .roomB) true))
        let full := setSession .roomA (session c .roomA) full
        let d := reportSession (ofClass .moved (some near) (some ⟨50000, .b⟩)) full .roomA
        session d .roomA = .idle ∧ d.link.notices.map (·.body) = [.channelMoved .roomA 1 (some near) (some ⟨50000, .b⟩), .changeDone .roomA none .noTuner (some 1) none]) ∧
       r .tuning = viewing .tuning 0 lab ∧ (session (r .dark) .roomA).ret = some .opening ∧ r .opening = viewing .opening 0 lab ∧
       (session (r .presenting) .roomA).state = .opening ∧ (session (r .held) .roomA).laneWait = ⟨2000, 2000, true⟩ ∧
       (session (reportSession (ofClass .renumbered none none)
         (setLaneMap 0 { LaneMap.empty with entries := [⟨10, [5], 0, 0⟩] } (viewing .opening 0 lab)) .roomA) .roomA).state = .presenting) := by
  decide +kernel
theorem test_limitVerdict_met :
    (let c := putProfile 0 (some ⟨4, 60, 60, [⟨0, 1⟩], 0⟩) (labLimits { lab.limits with lockList := [9999] })
     let v := limitVerdict c .a 9999 (some 65535)
     v.rating = false ∧ v.channelLocked = true ∧ v.window = true ∧ v.allowance = true ∧
       (limitVerdict (putProfile 0 (some ⟨3, 1440, 1440, [], 0⟩) c) .a 9999 (some 65535)) = { Reasons.none with rating := true, channelLocked := true } ∧
       (limitVerdict (putProfile 0 (some ⟨6, 1440, 0, [], 0⟩) c) .a 9999 (some 1)) = { Reasons.none with rating := true, channelLocked := true } ∧
       (limitVerdict (putProfile 0 (some ⟨7, 1440, 0, [], 0⟩) c) .a 9999 none).rating = false ∧
       limitVerdict (setContext .a ⟨0, 0, none, some ⟨9999, some 65535⟩⟩ (putProfile 0 (some ⟨3, 1440, 0, [⟨826, 827⟩], 0⟩) c)) .a 9999 (some 65535) = .none ∧
       (limitVerdict (setContext .a ⟨0, 0, none, some ⟨9999, some 1⟩⟩ c) .a 9999 (some 65535)).channelLocked = true ∧
       (limitVerdict (setContext .a ⟨0, 0, none, some ⟨9999, none⟩⟩ c) .a 9999 (some 65535)).channelLocked = false ∧
       (limitVerdict (putProfile 0 (some ⟨7, 1440, 0, [⟨825, 826⟩, ⟨827, 1440⟩], 0⟩) lab) .a 1 none).window = true ∧
       (limitVerdict (putProfile 0 (some ⟨7, 1440, 0, [⟨826, 827⟩], 0⟩) lab) .a 1 none).window = false ∧
       (limitVerdict (putProfile 0 (some ⟨7, 1440, 0, [⟨0, 1440⟩], 0⟩) (labClock { lab.clock with time := none })) .a 1 none).window = true) := by
  decide +kernel

/-! ### Event changes, links and standby watch -/

theorem test_eventTest_met :
    (let v := fun (st : SessionState) (r : Reasons) => setContext .a ⟨0, 0, none, some ⟨9999, some 1⟩⟩
       (let c := pricedView st r 9999; setSession .roomA { session c .roomA with event := some 1 } c)
     let held := testSession (v .held { Reasons.none with noGrant := true }) .roomA
     (session held .roomA).event = some 65535 ∧ (context held .a).grant = none ∧
       held.link.notices.map (·.body) = [.eventChanged .roomA 9999 (some 1) (some 65535) false,
         .purchaseOffer .a 9999 65535 300 1003600] ∧
       (session (testSession (v .dark .none) .roomA) .roomA).event = some 65535 ∧
       testSession (v .opening .none) .roomA = v .opening .none ∧
       testSession (v .held { Reasons.none with noService := true }) .roomA = v .held { Reasons.none with noService := true } ∧
       testSession (pricedView .presenting .none 9999) .roomA = pricedView .presenting .none 9999) := by decide +kernel
theorem test_links_met :
    (let b := { booking 1 .waiting with lcn := 9999, link := some 65535 }
     let c := recordInserted film (booked [b, { b with id := 2, state := .done }])
     c.clock.bookings.map (fun x => (x.id, x.start, x.finish)) = [(1, 1000000, 1003600), (2, 1000000, 1003600)] ∧
       (recordInserted { film with start := 1000060 } (booked [b, { b with id := 2, state := .conflict }])).clock.bookings.map
         (fun x => (x.id, x.start, x.finish)) = [(2, 1000000, 1003600), (1, 1000060, 1003660)] ∧
       (recordInserted { film with start := 1000060 } (booked [b])).store.queue.map (·.key) = [⟨.booking, 1⟩] ∧
       recordInserted film (booked [b]) = booked [b]) := by decide +kernel
def installing : Core := { lab with dir := { lab.dir with map := [] } }
def watching (h : Holders) (st : TunerState) (c : Core) : Core :=
  setTuner 3 { tuner c 3 with state := st, carrier := some near, holders := h.put .watch true } c
theorem test_watchClaims_met :
    (let w := Holders.none.put .watch true
     let off := fun c : Core => { c with dir := { c.dir with home := none } }
     watchTest lab = lab ∧ watchTest (off installing) = off installing ∧ (tuner (watchTest installing) 0).carrier = some far ∧
       (watchTest (allTuned (Holders.none.put .sweep true) standbyHeld)) = allTuned (Holders.none.put .sweep true) standbyHeld ∧
       (tuner (watchTest (setTuner 2 { tuner standbyHeld 2 with state := .acquiring, carrier := some far, holders := Holders.none.put .sweep true } standbyHeld)) 2).holders =
         (Holders.none.put .sweep true).put .watch true ∧
       (let busy := { standbyHeld with arb := { lab.arb with tuners := Vector.replicate 4 { Tuner.reset with state := .acquiring, carrier := some near } } }
        (watchTest busy).clock.hold = ⟨30000, 30000, true⟩ ∧ watchTest { busy with clock := lab.clock, dir := { lab.dir with map := [] } } =
          { busy with clock := lab.clock, dir := { lab.dir with map := [] } }) ∧
       heldTuner (watching .none .locked lab) .watch = some 3 ∧ planClaim (watching .none .locked lab) .watch far .host = .take 0 ∧
       (tuner (watchReclaim (watching .none .locked lab)) 0).holders = w ∧ (tuner (watchReclaim (watching .none .locked lab)) 3).state = .off ∧
       (tuner (watchReclaim (off (watching .none .locked lab))) 3).state = .off) := by decide +kernel
theorem test_watchEnds_met :
    (let c := watchEnds (watching .none .locked (labClock { lab.clock with hold := running }))
     (tuner c 3).state = .off ∧ c.arb.line = lab.arb.line ++ [⟨3, 2, none⟩] ∧ c.clock.hold.running = false) ∧
      (let h := Holders.none.put (.out .roomB) true
       let c := watchEnds (watching h .locked lab)
       (tuner c 3).holders = h ∧ (tuner c 3).state = .locked) ∧
      (watchEnds standbyHeld).clock.hold.running = false ∧ noneExtended (watching .none .locked lab) := by
  refine ⟨by decide +kernel, by decide +kernel, by decide, by intro b h; cases h⟩
theorem test_charges_met :
    (let at' := fun (used : Nat) (c : Core) => charge (putProfile 0 (some { Profile.master with allowance := 60, used := used }) c) 0
     (at' 49 lab).link.notices.map (·.body) = [.allowanceLow 0 50 60] ∧ (at' 49 lab).store.queue.map (·.key) = [⟨.usedToday, 0⟩] ∧
       (at' 48 lab).store.queue = [] ∧ (at' 59 crowded).limits.owed = [.usedToday] ∧ (at' 4 (labStore { lab.store with state := .wiping })).limits.owed = [] ∧
       (at' 4 (labStore { lab.store with state := .fault })).limits.owed = [] ∧
       (session (charge (minuted 59) 0) .roomA).reasons = { Reasons.none with allowance := true } ∧
       charged (minuted 59) 0 = true ∧ charged (minuted 60) 0 = false ∧
       (session (limitRollover (setSession .roomA { session (minuted 60) .roomA with state := .held, reasons := { Reasons.none with allowance := true } } (minuted 60))) .roomA).state =
         .presenting ∧
       (limitRollover (minuted 60)).limits.profiles.get 0 = some { Profile.master with allowance := 60 } ∧
       (next .allowanceMinute (holding (minuted 59))).core.limits.profiles.get 0 = some { Profile.master with allowance := 60, used := 60 }) := by
  decide +kernel

end Sys2Proof.Tests
end

section
/-! The channel directory and its carriers: what CHANNEL INFO answers (R14). -/

namespace Sys2Proof.Machine

open Sys2Proof

/-! ## Requests that only read -/

/-- A handled request that only reads gives its rule's answer, and the blocks stay as they are. -/
theorem replies_of_readOnly {α : Type} {i : Instr} {tag : Byte} {a : α} {f : α → Core → Answer} {s : State} {code : Code}
    {body : ReplyBody} (hexec : exec i s = .next (answeredWith i tag (some a) (fun x => readOnly (f x)) s)) (hh : Handled i s)
    (hf : f a s.core = ⟨code, body⟩) : Replies i tag code body s.core s := by
  unfold Replies
  rw [hexec, answeredWith_handled hh]
  simp [readOnly, hf]

/-! ## Lookups (R1) -/

theorem lcnInRange_iff {n : Nat} : lcnInRange n = true ↔ 1 ≤ n ∧ n ≤ 9999 := by simp [lcnInRange]

theorem guideCarrier_eq_some_iff {c : Core} {x : Carrier} :
    guideCarrier c = some x ↔ ∃ n, c.dir.guideCarrier = some n ∧ resolve c n = some x := Option.bind_eq_some_iff

/-- The comparison of CHANNEL INFO: two carriers are the same only where both are known. -/
theorem isSome_and_beq_iff {a b : Option Carrier} : (a.isSome && b == a) = true ↔ ∃ x, b = some x ∧ a = some x := by
  cases a <;> simp

/-! ## CHANNEL INFO (R14) -/

theorem exec_channelInfo (tag : Byte) (a : Option Nat) (s : State) :
    exec (.channelInfo tag a) s = execChannelInfo tag a s := rfl

theorem channelInfo_outOfRange {lcn : Nat} (c : Core) (h : lcn = 0 ∨ 9999 < lcn) : channelInfo lcn c = .bare .badRequest := by
  have hr : ¬lcnInRange lcn = true := by rw [lcnInRange_iff]; omega
  simp [channelInfo, hr]

theorem channelInfo_noEntry {lcn : Nat} {c : Core} (hr : lcnInRange lcn = true) (hf : findChannel c lcn = none) :
    channelInfo lcn c = .bare .noSuch := by
  simp [channelInfo, hr, hf]

theorem channelInfo_entry {lcn : Nat} {c : Core} {e : ChannelEntry} (hr : lcnInRange lcn = true)
    (hf : findChannel c lcn = some e) :
    channelInfo lcn c =
      ⟨.ok, .channelInfo e (resolve c e.carrierNo)
        ((resolve c e.carrierNo).isSome && guideCarrier c == resolve c e.carrierNo)
        ((resolve c e.carrierNo).isSome && c.dir.home == resolve c e.carrierNo)⟩ := by
  simp [channelInfo, hr, hf]

theorem replies_channelInfo {tag : Byte} {lcn : Nat} {s : State} {code : Code} {body : ReplyBody}
    (hh : Handled (.channelInfo tag (some lcn)) s) (hf : channelInfo lcn s.core = ⟨code, body⟩) :
    Replies (.channelInfo tag (some lcn)) tag code body s.core s :=
  replies_of_readOnly (exec_channelInfo tag (some lcn) s) hh hf

/-- Settles O16: each clause is one of the three answers of CHANNEL INFO, and the two flags are the comparison of the entry's
carrier with the guide and home carriers. -/
theorem channelInfoReply : Obligations.ChannelInfoReply := by
  unfold Obligations.ChannelInfoReply
  intro tag lcn s hh
  refine ⟨fun hout => ?outOfRange, fun h1 h2 hf => ?noEntry, fun e h1 h2 hf => ?entry⟩
  case outOfRange => exact replies_channelInfo hh (channelInfo_outOfRange s.core hout)
  case noEntry => exact replies_channelInfo hh (channelInfo_noEntry (lcnInRange_iff.mpr ⟨h1, h2⟩) hf)
  case entry =>
    refine ⟨_, _, replies_channelInfo hh (channelInfo_entry (lcnInRange_iff.mpr ⟨h1, h2⟩) hf), ?guide, isSome_and_beq_iff⟩
    rw [isSome_and_beq_iff]
    simp only [guideCarrier_eq_some_iff]
    exact ⟨fun ⟨x, ⟨n, hn, hx⟩, he⟩ => ⟨n, x, hn, hx, he⟩, fun ⟨n, x, hn, hx, he⟩ => ⟨x, ⟨n, hn, hx⟩, he⟩⟩

end Sys2Proof.Machine
end

section
/-! The ends of unlock grants: RELOCK ROOM and RELOCK ALL (R134). -/

namespace Sys2Proof.Machine

open Sys2Proof

/-- A handled request answers what its rule answers, and the blocks become what its rule leaves. -/
theorem replies_of_answeredWith {α : Type} {i : Instr} {tag : Byte} {a : α} {f : α → Core → Answer × Core} {s : State}
    {code : Code} {body : ReplyBody} {c : Core} (hexec : exec i s = .next (answeredWith i tag (some a) f s)) (hh : Handled i s)
    (hf : f a s.core = (⟨code, body⟩, c)) : Replies i tag code body c s := by
  unfold Replies
  rw [hexec, answeredWith_handled hh, hf]

/-! ## The room a request names (R134) -/

theorem roomOf_outOfRange {n : Nat} (h : 1 < n) : roomOf n = none := by
  match n, h with
  | _ + 2, _ => rfl

theorem roomOf_of_mem {n : Nat} {r : Room} (h : (n, r) ∈ [(0, Room.a), (1, .b)]) : roomOf n = some r := by
  simp only [List.mem_cons, Prod.mk.injEq, List.not_mem_nil, or_false] at h
  obtain ⟨rfl, rfl⟩ | ⟨rfl, rfl⟩ := h
  · rfl
  · rfl

/-! ## RELOCK ROOM -/

theorem exec_relockRoom (tag : Byte) (a : Option Nat) (s : State) : exec (.relockRoom tag a) s = execRelockRoom tag a s := rfl

theorem relockRoom_outOfRange {n : Nat} (c : Core) (h : 1 < n) : relockRoom n c = (.bare .badRequest, c) := by
  simp [relockRoom, roomOf_outOfRange h]

theorem relockRoom_held {n : Nat} {r : Room} {c : Core} (hr : roomOf n = some r) (hg : (context c r).grant ≠ none) :
    relockRoom n c = (.bare .ok, reevaluate (setContext r { context c r with grant := none } c)) := by
  simp [relockRoom, hr, Option.isSome_iff_ne_none.mpr hg]

theorem relockRoom_noGrant {n : Nat} {r : Room} {c : Core} (hr : roomOf n = some r) (hg : (context c r).grant = none) :
    relockRoom n c = (.bare .ok, c) := by
  simp [relockRoom, hr, hg]

theorem replies_relockRoom {tag : Byte} {n : Nat} {s : State} {code : Code} {c : Core} (hh : Handled (.relockRoom tag (some n)) s)
    (hf : relockRoom n s.core = (.bare code, c)) : Replies (.relockRoom tag (some n)) tag code .none c s :=
  replies_of_answeredWith (exec_relockRoom tag (some n) s) hh hf

/-! ## RELOCK ALL -/

/-- A room's context when RELOCK ALL has ended its unlock grant and the one kept in its saved context. -/
def RoomContext.relocked (x : RoomContext) : RoomContext :=
  { x with grant := none, saved := match x.saved with | some v => some { v with grant := none } | none => none }

theorem RoomContext.relocked_eq (x : RoomContext) :
    x.relocked = { x with grant := none, saved := x.saved.map fun v => { v with grant := none } } := by
  obtain ⟨default, active, saved, grant⟩ := x
  cases saved with
  | none => rfl
  | some v => rfl

theorem relockContext_eq (r : Room) (c : Core) : relockContext r c = setContext r (context c r).relocked c := by
  rw [RoomContext.relocked_eq]
  rfl

/-- A relock of one room reads nothing that the relock of the other has changed. -/
theorem relockContext_both (c : Core) :
    relockContext .b (relockContext .a c) =
      setContext .b (context c .b).relocked (setContext .a (context c .a).relocked c) := by
  simp only [relockContext_eq]
  rw [context_setContext_ne _ _ (by decide)]

theorem hasGrant_iff (x : RoomContext) : hasGrant x = true ↔ x.grant ≠ none ∨ ∃ v, x.saved = some v ∧ v.grant ≠ none := by
  cases hs : x.saved with
  | none => simp [hasGrant, hs, Option.isSome_iff_ne_none]
  | some v => simp [hasGrant, hs, Option.isSome_iff_ne_none]

/-- RELOCK ALL finds a grant in force or kept, in either room. -/
def anyGrant (c : Core) : Prop := hasGrant (context c .a) = true ∨ hasGrant (context c .b) = true

theorem exec_relockAll (tag : Byte) (a : Option Unit) (s : State) : exec (.relockAll tag a) s = execRelockAll tag a s := rfl

theorem relockAll_anyGrant {c : Core} (h : anyGrant c) :
    relockAll () c = (.bare .ok,
      reevaluate (setContext .b (context c .b).relocked (setContext .a (context c .a).relocked c))) := by
  have hg : (hasGrant (context c .a) || hasGrant (context c .b)) = true := by simpa [anyGrant] using h
  simp [relockAll, hg, relockContext_both]

theorem relockAll_noGrant {c : Core} (h : ¬anyGrant c) : relockAll () c = (.bare .ok, c) := by
  have hg : ¬(hasGrant (context c .a) || hasGrant (context c .b)) = true := by simpa [anyGrant] using h
  simp only [relockAll, if_neg hg]

theorem replies_relockAll {tag : Byte} {s : State} {code : Code} {c : Core} (hh : Handled (.relockAll tag (some ())) s)
    (hf : relockAll () s.core = (.bare code, c)) : Replies (.relockAll tag (some ())) tag code .none c s :=
  replies_of_answeredWith (exec_relockAll tag (some ()) s) hh hf

/-- The four places of a grant, in the order in which the statement of R134 lists them. -/
theorem anyGrant_iff (c : Core) :
    anyGrant c ↔ (context c .a).grant ≠ none ∨ (context c .b).grant ≠ none ∨
      (∃ v, (context c .a).saved = some v ∧ v.grant ≠ none) ∨ ∃ v, (context c .b).saved = some v ∧ v.grant ≠ none := by
  rw [anyGrant, hasGrant_iff, hasGrant_iff, or_assoc, or_left_comm (b := (context c .b).grant ≠ none)]

/-- Settles O40: RELOCK ROOM by the room it names and whether that room holds a grant, RELOCK ALL by whether either room holds
or keeps one. -/
theorem relockEndsGrants : Obligations.RelockEndsGrants := by
  unfold Obligations.RelockEndsGrants
  intro tag s
  refine ⟨fun n hh => ⟨fun hn => ?outOfRange, fun r hr => ⟨fun hg => ?held, fun hg => ?notHeld⟩⟩,
    fun hh => ⟨fun hg => ?anyGrant, fun hg => ?noGrant⟩⟩
  case outOfRange => exact replies_relockRoom hh (relockRoom_outOfRange s.core hn)
  case held => exact replies_relockRoom hh (relockRoom_held (roomOf_of_mem hr) hg)
  case notHeld => exact replies_relockRoom hh (relockRoom_noGrant (roomOf_of_mem hr) (not_not.mp hg))
  case anyGrant => exact replies_relockAll hh (relockAll_anyGrant ((anyGrant_iff s.core).mpr hg))
  case noGrant => exact replies_relockAll hh (relockAll_noGrant fun h => hg ((anyGrant_iff s.core).mp h))

end Sys2Proof.Machine
end

section
/-! The return path: UPLINK NOW, UPLINK RELEASE and the due test they lead to (R161, R164, R167 to R169); CREDIT STATUS (R172). -/

namespace Sys2Proof.Machine

open Sys2Proof

/-! ## CREDIT STATUS (R172) -/

theorem Issue.isLocked_iff {i : Issue} : i.isLocked = true ↔ ∃ f, i = .locked f := by
  cases i with
  | blank => simp [Issue.isLocked]
  | written f => simp [Issue.isLocked]
  | locked f => simp [Issue.isLocked]

theorem exec_creditStatus (tag : Byte) (a : Option Unit) (s : State) :
    exec (.creditStatus tag a) s = execCreditStatus tag a s := rfl

theorem creditStatus_eq {c : Core} {flight : Option FlightReport} (hf : c.purchase.inFlight.map InFlight.report = flight) :
    creditStatus () c =
      ⟨.ok, .credit c.purchase.balance c.purchase.limit c.purchase.charged flight c.access.issue.isLocked c.access.cut⟩ := by
  rw [← hf]
  rfl

/-- Settles O18: the lock flag of the reply is the issue record's own, and the purchase in flight is reported where there is one. -/
theorem creditStatusReply : Obligations.CreditStatusReply := by
  unfold Obligations.CreditStatusReply
  intro tag s hh
  refine ⟨s.core.access.issue.isLocked, Issue.isLocked_iff,
    replies_of_readOnly (exec_creditStatus tag (some ()) s) hh (creditStatus_eq ?flight)⟩
  cases s.core.purchase.inFlight with
  | none => rfl
  | some f => rfl

/-! ## A send begins (R164) -/

/-- The model hands the report that the statements describe, whatever the issue record gives as its address. -/
theorem handReport_eq (records : List PurchaseRecord) (parity : Bool) (c : Core) :
    handReport records parity c = { c with uplink := handed records parity c } := by
  unfold handReport handed
  cases c.access.issue with
  | blank => rfl
  | written f => rfl
  | locked f => rfl

theorem sendReport_eq (c : Core) : sendReport c = { c with uplink := sendBegun c } := by
  rw [sendReport, handReport_eq]
  rfl

/-! ## The due test (R161) -/

theorem dueTest_notIdle {c : Core} (h : c.uplink.state ≠ .idle) : dueTest c = c := by
  simp [dueTest, h]

theorem dueTest_pending {c : Core} (hs : c.uplink.state = .idle) (hp : c.uplink.pendingFlag = true)
    (hl : c.purchase.log ≠ []) : dueTest c = sendReport c := by
  simp [dueTest, hs, hp, hl]

theorem dueTest_emptyLog {c : Core} (hs : c.uplink.state = .idle) (hp : c.uplink.pendingFlag = true)
    (hl : c.purchase.log = []) : dueTest c = setUplinkState { c.uplink with pendingFlag := false } c := by
  simp [dueTest, unreported, hs, hp, hl]

/-! ## UPLINK NOW (R168) -/

/-- The blocks with the pending flag set, which UPLINK NOW hands to the due test. -/
def withPendingFlag (c : Core) : Core := { c with uplink := { c.uplink with pendingFlag := true } }

theorem exec_uplinkNow (tag : Byte) (a : Option Unit) (s : State) : exec (.uplinkNow tag a) s = execUplinkNow tag a s := rfl

theorem uplinkNow_eq (c : Core) : uplinkNow () c = (.bare .ok, dueTest (withPendingFlag c)) := rfl

/-- A send begins with the pending flag cleared, so the flag set just before it leaves no trace. -/
theorem sendReport_withPendingFlag (c : Core) : sendReport (withPendingFlag c) = { c with uplink := sendBegun c } := by
  rw [sendReport_eq]
  rfl

theorem uplinkNow_sends {c : Core} (hs : c.uplink.state = .idle) (hl : c.purchase.log ≠ []) :
    uplinkNow () c = (.bare .ok, { c with uplink := sendBegun c }) := by
  rw [uplinkNow_eq, dueTest_pending (c := withPendingFlag c) hs rfl hl, sendReport_withPendingFlag]

theorem uplinkNow_emptyLog {c : Core} (hs : c.uplink.state = .idle) (hl : c.purchase.log = []) :
    uplinkNow () c = (.bare .ok, { c with uplink := { c.uplink with pendingFlag := false } }) := by
  rw [uplinkNow_eq, dueTest_emptyLog (c := withPendingFlag c) hs rfl hl]
  rfl

theorem uplinkNow_notIdle {c : Core} (hs : c.uplink.state ≠ .idle) : uplinkNow () c = (.bare .ok, withPendingFlag c) := by
  rw [uplinkNow_eq, dueTest_notIdle (c := withPendingFlag c) hs]

theorem replies_uplinkNow {tag : Byte} {s : State} {code : Code} {c : Core} (hh : Handled (.uplinkNow tag (some ())) s)
    (hf : uplinkNow () s.core = (.bare code, c)) : Replies (.uplinkNow tag (some ())) tag code .none c s :=
  replies_of_answeredWith (exec_uplinkNow tag (some ()) s) hh hf

/-! ## UPLINK RELEASE (R169) -/

/-- Recovery waits for the end of the quiet count in both modes (R167). -/
theorem testRecovery_of_quiet_lt {c : Core} (h : c.uplink.quiet < 32) : testRecovery c = c := by
  have hr : recovers c.uplink = false := by simp [recovers, h.ne]
  simp [testRecovery, hr]

/-- The blocks with the release flag set, in which UPLINK RELEASE has recovery tested. -/
def withReleaseFlag (c : Core) : Core := { c with uplink := { c.uplink with release := true } }

theorem exec_uplinkRelease (tag : Byte) (a : Option Unit) (s : State) :
    exec (.uplinkRelease tag a) s = execUplinkRelease tag a s := rfl

theorem uplinkRelease_silent {c : Core} (h : c.uplink.state = .silent) :
    uplinkRelease () c = (.bare .ok, testRecovery (withReleaseFlag c)) := by
  rw [uplinkRelease, if_pos h]
  rfl

theorem uplinkRelease_quiet {c : Core} (h : c.uplink.state = .silent) (hq : c.uplink.quiet < 32) :
    uplinkRelease () c = (.bare .ok, withReleaseFlag c) := by
  rw [uplinkRelease_silent h, testRecovery_of_quiet_lt (c := withReleaseFlag c) hq]

theorem uplinkRelease_notSilent {c : Core} (h : c.uplink.state ≠ .silent) : uplinkRelease () c = (.bare .notSilent, c) := by
  simp [uplinkRelease, h]

theorem replies_uplinkRelease {tag : Byte} {s : State} {code : Code} {c : Core} (hh : Handled (.uplinkRelease tag (some ())) s)
    (hf : uplinkRelease () s.core = (.bare code, c)) : Replies (.uplinkRelease tag (some ())) tag code .none c s :=
  replies_of_answeredWith (exec_uplinkRelease tag (some ()) s) hh hf

/-- Settles O46: UPLINK NOW by the uplink's state and whether the log is empty, UPLINK RELEASE by whether the uplink is SILENT; a
quiet count still running keeps the test of recovery from changing anything. -/
theorem uplinkRequestsAct : Obligations.UplinkRequestsAct := by
  unfold Obligations.UplinkRequestsAct
  intro tag s
  refine ⟨fun hh => ⟨fun hs hl => ?sends, fun hs hl => ?emptyLog, fun hs => ?notIdle⟩,
    fun hh => ⟨fun hs => ?silent, fun hs hq => ?quiet, fun hs => ?notSilent⟩⟩
  case sends => exact replies_uplinkNow hh (uplinkNow_sends hs hl)
  case emptyLog => exact replies_uplinkNow hh (uplinkNow_emptyLog hs hl)
  case notIdle => exact replies_uplinkNow hh (uplinkNow_notIdle hs)
  case silent => exact replies_uplinkRelease hh (uplinkRelease_silent hs)
  case quiet => exact replies_uplinkRelease hh (uplinkRelease_quiet hs hq)
  case notSilent => exact replies_uplinkRelease hh (uplinkRelease_notSilent hs)

end Sys2Proof.Machine
end

section
/-! The message link: PING (R222), and the key line with the press that wakes the unit (R210, R220). -/

namespace Sys2Proof.Machine

open Sys2Proof

/-! ## Requests that wait (R215) -/

theorem offerFrame_room {i : Instr} {tag : Byte} {s : State} (h : s.front.intake.length < 4) :
    offerFrame i tag s = { s with front := { s.front with intake := s.front.intake ++ [i] } } := if_pos h

/-- While an issue-area write is in progress, a request that finds others in the intake is held back. -/
theorem isHandledNow_issueWrite {i : Instr} {s : State} (hw : s.core.access.issueWrite.isSome = true)
    (hne : s.front.intake ≠ []) : isHandledNow i s = false := by
  have hnone : s.core.access.issueWrite.isNone = false := by simpa using hw
  have hempty : s.front.intake.isEmpty = false := List.isEmpty_eq_false_iff.mpr hne
  simp [isHandledNow, hnone, hempty]

/-! ## PING (R222) -/

/-- What PING answers: the part, its revision, whether the start-up scan runs, and the rate of the strap. -/
def pingReply (tag : Byte) (s : State) : Frame :=
  .reply tag .ok
    (.ping 0x0460 Config.siliconRevision (s.core.store.state == .scanning) (Config.strapRate s.front.strap))

theorem exec_ping (tag : Byte) (a : Option Unit) (s : State) : exec (.ping tag a) s = execPing tag a s := rfl

theorem withHead_strap (i : Instr) (s : State) : (withHead i s).front.strap = s.front.strap := by
  unfold withHead; split <;> rfl

/-- Taking PING as the head of the intake changes nothing that its reply tells. -/
theorem pingReply_withHead (tag : Byte) (i : Instr) (s : State) : pingReply tag (withHead i s) = pingReply tag s := by
  unfold pingReply
  rw [withHead_core, withHead_strap]

/-- PING asks nothing of the store: it has no test of the start-up scan. -/
theorem ping_handled {tag : Byte} {s : State} (h : isHandledNow (.ping tag (some ())) s = true) :
    ping tag (some ()) s = replied (pingReply tag s) s.core s :=
  calc ping tag (some ()) s
      = replyHead (pingReply tag (withHead (.ping tag (some ())) s)) (withHead (.ping tag (some ())) s) := if_pos h
    _ = replyHead (pingReply tag s) { withHead (.ping tag (some ())) s with core := s.core } := by
        rw [pingReply_withHead, ← withHead_core (.ping tag (some ())) s]
    _ = replied (pingReply tag s) s.core s := replyHead_withHead _ _ _ _

theorem ping_waiting {tag : Byte} {s : State} (h : isHandledNow (.ping tag (some ())) s = false)
    (hroom : s.front.intake.length < 4) :
    ping tag (some ()) s =
      { s with front := { s.front with intake := s.front.intake ++ [.ping tag (some ())] } } := by
  rw [ping, request_waiting h, offerFrame_room hroom]

/-- Settles O10: a PING handled now is answered whatever the store does, and one behind an issue-area write joins the intake. -/
theorem pingAnswers : Obligations.PingAnswers := by
  unfold Obligations.PingAnswers
  intro tag s
  refine ⟨fun hh => ?handled, fun hw hne hroom => ?waiting⟩
  case handled => exact congrArg Host.Outcome.next (ping_handled hh)
  case waiting => exact congrArg Host.Outcome.next (ping_waiting (isHandledNow_issueWrite hw hne) hroom)

/-! ## WAKE (R210) -/

theorem assertWake_standby {f : WakeCauses → WakeCauses} {c : Core} (h : c.clock.power = .standby) :
    assertWake f c = { c with clock := { c.clock with wake := true, causes := f c.clock.causes } } := if_pos h

theorem assertWake_active {f : WakeCauses → WakeCauses} {c : Core} (h : c.clock.power = .active) : assertWake f c = c := by
  simp [assertWake, h]

/-! ## The key line (R220) -/

theorem exec_keyReport (code : Byte) (mark : KeyMark) (s : State) :
    exec (.keyReport code mark) s = .next (onCore (keyReportTaken code mark) s) := rfl

/-- A notice that joins, or is discarded, leaves the power key's code as it was (R217). -/
theorem Link.join_powerKey (l : Link) (n : Notice) : (l.join n).powerKey = l.powerKey := by
  unfold Link.join
  split
  · cases l.mode with
    | level => rfl
    | edge => dsimp only; split <;> rfl
  · rfl

/-- A press is posted first; the notice moves neither the power key nor the power state that the second half reads. -/
theorem keyReportTaken_powerKey {code : Byte} {c : Core} (h : code = c.link.powerKey) :
    keyReportTaken code .press c =
      assertWake (fun w => { w with powerKey := true }) (post (.keypress code) c) := by
  have hkey : code = (post (.keypress code) c).link.powerKey := by
    rw [post_link, Link.join_powerKey, h]
  exact if_pos hkey

theorem keyReportTaken_otherKey {code : Byte} {c : Core} (h : code ≠ c.link.powerKey) :
    keyReportTaken code .press c = post (.keypress code) c := by
  have hkey : code ≠ (post (.keypress code) c).link.powerKey := by
    rw [post_link, Link.join_powerKey]
    exact h
  exact if_neg hkey

theorem keyReportTaken_noWake {code : Byte} {c : Core} (h : code ≠ c.link.powerKey ∨ c.clock.power = .active) :
    keyReportTaken code .press c = post (.keypress code) c := by
  by_cases hkey : code = c.link.powerKey
  · have hactive : c.clock.power = .active := h.resolve_left (not_not.mpr hkey)
    rw [keyReportTaken_powerKey hkey, assertWake_active (c := post (.keypress code) c) hactive]
  · exact keyReportTaken_otherKey hkey

theorem keyReportTaken_wakes {code : Byte} {c : Core} (hkey : code = c.link.powerKey) (hstandby : c.clock.power = .standby) :
    keyReportTaken code .press c =
      { post (.keypress code) c with
        clock := { c.clock with wake := true, causes := { c.clock.causes with powerKey := true } } } := by
  rw [keyReportTaken_powerKey hkey, assertWake_standby (c := post (.keypress code) c) hstandby, post_clock]

/-- Settles O13: a press posts KEYPRESS, which leaves the power key and the power state as they were, and WAKE follows where the
code is the power key's and the power state is STANDBY; a report of another mark changes nothing. -/
theorem keyReportsArePosted : Obligations.KeyReportsArePosted := by
  unfold Obligations.KeyReportsArePosted
  intro code s
  refine ⟨fun h => ?noWake, fun hkey hstandby => ?wakes, ?repeated, ?other⟩
  case noWake => rw [exec_keyReport, onCore, keyReportTaken_noWake h]
  case wakes => rw [exec_keyReport, onCore, keyReportTaken_wakes hkey hstandby]
  case repeated => rfl
  case other => rfl

end Sys2Proof.Machine
end

section
/-! Every command by its form: the requests that are answered at once or when their issue-area write ends, and the events (R214, R215,
R221, R224); what every step keeps. -/

namespace Sys2Proof.Machine

open Sys2Proof

/-! ## The forms of the commands -/

/-- The form of a request's meaning: its own rule `g` answers it, it waits for the issue area, or it is one of the three link requests
with a form of their own. -/
inductive RequestForm (i : Instr) (tag : Byte) : Prop where
  | answers (g : Core → Answer × Core) (hexec : ∀ s, exec i s = .next (answered i tag g s))
      (hmisfit : malformed i = true → ∀ c, g c = (.bare .badRequest, c)) (hok : ∀ c, CoreOk c → CoreOk (g c).2)
  | waits (start : Core → Except Code IssueWrite) (hwrites : writesIssue i = true)
      (hexec : ∀ s, exec i s = .next (answeredLater i tag start s))
      (hmisfit : malformed i = true → ∀ c, start c = .error .badRequest)
  | takesNotices (a : Option Unit) (hi : i = .takeNotices tag a)
  | pings (a : Option Unit) (hi : i = .ping tag a)
  | resets (a : Option Unit) (hi : i = .resetUnit tag a)

/-- The form of an event's meaning: it acts on the blocks behind the link, ends an issue-area write, receives bytes, or resets. -/
inductive EventForm (i : Instr) : Prop where
  | acts (f : Core → Core) (hexec : ∀ s, exec i s = .next (onCore f s)) (hok : ∀ c, CoreOk c → CoreOk (f c))
  | endsIssueWrite (ok : Bool) (hexec : ∀ s, exec i s = .next (issueWriteDone ok s))
  | endsLockWrite (ok : Bool) (hexec : ∀ s, exec i s = .next (lockIssueWriteDone ok s))
  | receives (bytes : List Byte) (hexec : ∀ s, exec i s = .next (receive bytes s))
  | limitsReceiver (hexec : ∀ s, exec i s = .next (receiveLimit s))
  | resets (cause : ResetCause) (r : ResetInput) (hexec : ∀ s, exec i s = .next (resetWith cause r s))
  | takesReset (r : ResetInput) (hexec : ∀ s, exec i s = .next (requestReset r s))

theorem RequestForm.of_answeredWith {α : Type} {i : Instr} {tag : Byte} {a : Option α} {h : α → Core → Answer × Core}
    (hexec : ∀ s, exec i s = .next (answeredWith i tag a h s)) (hmalformed : malformed i = true → a = none)
    (hok : ∀ x c, CoreOk c → CoreOk (h x c).2) : RequestForm i tag := by
  refine .answers _ hexec (fun hm c => ?misfit) (fun c hc => ?ok)
  case misfit =>
    rw [hmalformed hm]
  case ok =>
    cases a with
    | none => exact hc
    | some x => exact hok x c hc

theorem RequestForm.of_readOnly {α : Type} {i : Instr} {tag : Byte} {a : Option α} {f : α → Core → Answer}
    (hexec : ∀ s, exec i s = .next (answeredWith i tag a (fun x => readOnly (f x)) s)) (hmalformed : malformed i = true → a = none) :
    RequestForm i tag :=
  .of_answeredWith hexec hmalformed fun _ _ hc => hc

/-- Each request has one of the forms. -/
theorem requestForm {i : Instr} {tag : Byte} (h : i.tag = some tag) : RequestForm i tag := by
  cases i <;> simp only [Instr.tag, Option.some.injEq, reduceCtorEq] at h <;> subst h
  case listChannels a => exact .of_readOnly (fun _ => rfl) (by cases a <;> simp [malformed])
  case channelInfo a => exact .of_readOnly (fun _ => rfl) (by cases a <;> simp [malformed])
  case setHomeCarrier a => exact .of_answeredWith (fun _ => rfl) (by cases a <;> simp [malformed]) fun _ _ => setHomeCarrier_ok
  case setTuning a => exact .of_answeredWith (fun _ => rfl) (by cases a <;> simp [malformed]) fun _ _ => setTuning_ok
  case tunerStatus a => exact .of_readOnly (fun _ => rfl) (by cases a <;> simp [malformed])
  case selectChannel a => exact .of_answeredWith (fun _ => rfl) (by cases a <;> simp [malformed]) fun _ _ => selectChannel_ok
  case stopOutput a => exact .of_answeredWith (fun _ => rfl) (by cases a <;> simp [malformed]) fun _ _ => stopOutput_ok
  case sessionStatus a => exact .of_readOnly (fun _ => rfl) (by cases a <;> simp [malformed])
  case keyStatus a => exact .of_readOnly (fun _ => rfl) (by cases a <;> simp [malformed])
  case issue a => exact .waits _ rfl (fun _ => rfl) (by cases a <;> simp [malformed, issueStart])
  case lockIssue a => exact .waits _ rfl (fun _ => rfl) (by cases a <;> simp [malformed, lockStart])
  case accessStatus a => exact .of_readOnly (fun _ => rfl) (by cases a <;> simp [malformed])
  case issueStatus a => exact .of_readOnly (fun _ => rfl) (by cases a <;> simp [malformed])
  case guideQuery a => exact .of_readOnly (fun _ => rfl) (by cases a <;> simp [malformed])
  case nowNext a => exact .of_readOnly (fun _ => rfl) (by cases a <;> simp [malformed])
  case refreshGuide a => exact .of_answeredWith (fun _ => rfl) (by cases a <;> simp [malformed]) fun _ _ => refreshGuide_ok
  case unlockRoom a => exact .of_answeredWith (fun _ => rfl) (by cases a <;> simp [malformed]) fun _ _ => unlockRoom_ok
  case relockRoom a => exact .of_answeredWith (fun _ => rfl) (by cases a <;> simp [malformed]) fun _ _ => relockRoom_ok
  case relockAll a => exact .of_answeredWith (fun _ => rfl) (by cases a <;> simp [malformed]) fun _ _ => relockAll_ok
  case switchProfile a => exact .of_answeredWith (fun _ => rfl) (by cases a <;> simp [malformed]) fun _ _ => switchProfile_ok
  case returnProfile a => exact .of_answeredWith (fun _ => rfl) (by cases a <;> simp [malformed]) fun _ _ => returnProfile_ok
  case setRoomDefault a => exact .of_answeredWith (fun _ => rfl) (by cases a <;> simp [malformed]) fun _ _ => setRoomDefault_ok
  case setProfile a => exact .of_answeredWith (fun _ => rfl) (by cases a <;> simp [malformed]) fun _ _ => setProfile_ok
  case setPin a => exact .of_answeredWith (fun _ => rfl) (by cases a <;> simp [malformed]) fun _ _ => setPin_ok
  case lockChannel a => exact .of_answeredWith (fun _ => rfl) (by cases a <;> simp [malformed]) fun _ _ => lockChannel_ok
  case unlockChannel a => exact .of_answeredWith (fun _ => rfl) (by cases a <;> simp [malformed]) fun _ _ => unlockChannel_ok
  case limitStatus a => exact .of_readOnly (fun _ => rfl) (by cases a <;> simp [malformed])
  case purchase a => exact .of_answeredWith (fun _ => rfl) (by cases a <;> simp [malformed]) fun _ _ => purchase_ok
  case uplinkNow a => exact .of_answeredWith (fun _ => rfl) (by cases a <;> simp [malformed]) fun _ _ => uplinkNow_ok
  case uplinkRelease a => exact .of_answeredWith (fun _ => rfl) (by cases a <;> simp [malformed]) fun _ _ => uplinkRelease_ok
  case setUplink a => exact .of_answeredWith (fun _ => rfl) (by cases a <;> simp [malformed]) fun _ _ => setUplink_ok
  case purchaseLog a => exact .of_readOnly (fun _ => rfl) (by cases a <;> simp [malformed])
  case creditStatus a => exact .of_readOnly (fun _ => rfl) (by cases a <;> simp [malformed])
  case wipeAccount a => exact .of_answeredWith (fun _ => rfl) (by cases a <;> simp [malformed]) fun _ _ => wipeAccount_ok
  case storeStatus a => exact .of_readOnly (fun _ => rfl) (by cases a <;> simp [malformed])
  case addBooking a => exact .of_answeredWith (fun _ => rfl) (by cases a <;> simp [malformed]) fun _ _ => addBooking_ok
  case dropBooking a => exact .of_answeredWith (fun _ => rfl) (by cases a <;> simp [malformed]) fun _ _ => dropBooking_ok
  case listBookings a => exact .of_readOnly (fun _ => rfl) (by cases a <;> simp [malformed])
  case standby a => exact .of_answeredWith (fun _ => rfl) (by cases a <;> simp [malformed]) fun _ _ => standby_ok
  case resume a => exact .of_answeredWith (fun _ => rfl) (by cases a <;> simp [malformed]) fun _ _ => resume_ok
  case wakeAt a => exact .of_answeredWith (fun _ => rfl) (by cases a <;> simp [malformed]) fun _ _ => wakeAt_ok
  case setZone a => exact .of_answeredWith (fun _ => rfl) (by cases a <;> simp [malformed]) fun _ _ => setZone_ok
  case clockStatus a => exact .of_readOnly (fun _ => rfl) (by cases a <;> simp [malformed])
  case takeNotices a => exact .takesNotices a rfl
  case ping a => exact .pings a rfl
  case setAttention a => exact .of_answeredWith (fun _ => rfl) (by cases a <;> simp [malformed]) fun _ _ => setAttention_ok
  case setKeys a => exact .of_answeredWith (fun _ => rfl) (by cases a <;> simp [malformed]) fun _ _ => setKeys_ok
  case resetUnit a => exact .resets a rfl

/-- Each command without a tag has one of the forms of events. -/
theorem eventForm {i : Instr} (h : i.tag = none) : EventForm i := by
  cases i <;> simp only [Instr.tag, reduceCtorEq] at h
  case frameReceived bytes => exact .receives bytes fun _ => rfl
  case frameReceiveLimit => exact .limitsReceiver fun _ => rfl
  case issueWriteDone ok => exact .endsIssueWrite ok fun _ => rfl
  case lockIssueWriteDone ok => exact .endsLockWrite ok fun _ => rfl
  case requestReset r => exact .takesReset r fun _ => rfl
  case powerOn r => exact .resets .powerOn r fun _ => rfl
  case resetLine r => exact .resets .line r fun _ => rfl
  case lockReport => exact .acts _ (fun _ => rfl) fun _ => lockReport_ok
  case lossReport => exact .acts _ (fun _ => rfl) fun _ => lossReport_ok
  case acquisitionLimit => exact .acts _ (fun _ => rfl) fun _ => acquisitionFailed_ok
  case lossTimer => exact .acts _ (fun _ => rfl) fun _ => lossTimerExpired_ok
  case standbyWatchHold => exact .acts _ (fun _ => rfl) fun _ => holdExpired_ok
  case cellArrival => exact .acts _ (fun _ => rfl) fun _ => cellArrival_ok
  case bufferHandOver => exact .acts _ (fun _ => rfl) fun _ => bufferHandOver_ok
  case keptBulletinRetest => exact .acts _ (fun _ => rfl) fun _ => retestKept_ok
  case keyLife => exact .acts _ (fun _ => rfl) fun _ => keyLifeExpired_ok
  case sweepTimer => exact .acts _ (fun _ => rfl) fun _ => sweepTimerExpired_ok
  case sweepLimit => exact .acts _ (fun _ => rfl) fun _ => sweepLimitExpired_ok
  case laneMapWait => exact .acts _ (fun _ => rfl) fun _ => laneWaitExpired_ok
  case keyWait => exact .acts _ (fun _ => rfl) fun _ => keyWaitExpired_ok
  case lockoutTimer => exact .acts _ (fun _ => rfl) fun _ => lockoutExpired_ok
  case allowanceMinute => exact .acts _ (fun _ => rfl) fun _ => allowanceMinute_ok
  case reportTimer => exact .acts _ (fun _ => rfl) fun _ => reportTimerExpired_ok
  case sendBegin => exact .acts _ (fun _ => rfl) fun _ => dueTest_ok
  case modemAnswer => exact .acts _ (fun _ => rfl) fun _ => modemAnswer_ok
  case answerWait => exact .acts _ (fun _ => rfl) fun _ => answerWaitExpired_ok
  case retryTimer => exact .acts _ (fun _ => rfl) fun _ => retryExpired_ok
  case ackWait => exact .acts _ (fun _ => rfl) fun _ => ackWaitExpired_ok
  case backoffTimer => exact .acts _ (fun _ => rfl) fun _ => backoffExpired_ok
  case quietTimer => exact .acts _ (fun _ => rfl) fun _ => quietExpired_ok
  case owedCommitOffer => exact .acts _ (fun _ => rfl) fun _ => offerOwed_ok
  case itemWriteBegin => exact .acts _ (fun _ => rfl) fun _ => itemWriteBegin_ok
  case itemWriteDone => exact .acts _ (fun _ => rfl) fun _ => itemWriteDone_ok
  case markWriteDone => exact .acts _ (fun _ => rfl) fun _ => markWriteDone_ok
  case copyWriteDone => exact .acts _ (fun _ => rfl) fun _ => copyWriteDone_ok
  case pageEraseDone => exact .acts _ (fun _ => rfl) fun _ => pageEraseDone_ok
  case bankEraseDone => exact .acts _ (fun _ => rfl) fun _ => bankEraseDone_ok
  case startUpScanDone => exact .acts _ (fun _ => rfl) fun _ => startUpScanDone_ok
  case clockSecond => exact .acts _ (fun _ => rfl) fun _ => secondPassed_ok
  case keyReport => exact .acts _ (fun _ => rfl) fun _ => keyReportTaken_ok
  case gapTimer => exact .acts _ (fun _ => rfl) fun _ => gapExpired_ok
  case bodyLengthExceeded kind tag length => exact .receives [0xA5#8, kind, tag, length] fun _ => rfl

end Sys2Proof.Machine
end

section
/-! What every command does to the link's front: the commands behind it, the frame of a request, the receiver and the intake (R214 to
R216, R221). -/

namespace Sys2Proof.Machine

open Sys2Proof

/-! ## Requests by their form -/

theorem request_handledNow {i : Instr} {tag : Byte} {h : State → State} {s : State} (hn : isHandledNow i s = true) :
    request i tag h s = h (withHead i s) := if_pos hn

theorem unlessScanning_scanning {tag : Byte} {h : State → State} {s : State} (hs : s.core.store.state = .scanning) :
    unlessScanning tag h s = replyHead (.reply tag .busy .none) s := if_pos hs

theorem unlessScanning_over {tag : Byte} {h : State → State} {s : State} (hs : s.core.store.state ≠ .scanning) :
    unlessScanning tag h s = h s := if_neg hs

theorem replyHead_taken (f : Frame) (i : Instr) (s : State) : replyHead f (withHead i s) = replied f s.core s :=
  calc replyHead f (withHead i s)
      = replyHead f { withHead i s with core := s.core } := by rw [← withHead_core i s]
    _ = replied f s.core s := replyHead_withHead f i s.core s

/-- A handled request with the test of the start-up scan goes on to its own rule. -/
theorem request_unlessScanning {i : Instr} {tag : Byte} {h : State → State} {s : State} (hh : Handled i s) :
    request i tag (unlessScanning tag h) s = h (withHead i s) := by
  rw [request_handledNow hh.1, unlessScanning_over (by rw [withHead_core]; exact hh.2)]

/-- During the start-up scan the request is answered BUSY whatever its own rule. -/
theorem request_scanning {i : Instr} {tag : Byte} {h : State → State} {s : State} (hn : isHandledNow i s = true)
    (hs : s.core.store.state = .scanning) :
    request i tag (unlessScanning tag h) s = replied (.reply tag .busy .none) s.core s := by
  rw [request_handledNow hn, unlessScanning_scanning (by rw [withHead_core]; exact hs), replyHead_taken]

theorem exec_eq_request {i : Instr} {tag : Byte} (h : i.tag = some tag) :
    ∃ h, ∀ s, exec i s = .next (request i tag h s) := by
  cases requestForm h with
  | answers g hexec => exact ⟨_, hexec⟩
  | waits start _ hexec => exact ⟨_, hexec⟩
  | takesNotices a hi => subst hi; exact ⟨_, fun _ => rfl⟩
  | pings a hi => subst hi; exact ⟨_, fun _ => rfl⟩
  | resets a hi => subst hi; exact ⟨_, fun _ => rfl⟩

/-- Every request but PING asks whether the start-up scan runs. -/
theorem exec_eq_request_unlessScanning {i : Instr} {tag : Byte} (h : i.tag = some tag) (hp : ∀ a, i ≠ .ping tag a) :
    ∃ h, ∀ s, exec i s = .next (request i tag (unlessScanning tag h) s) := by
  cases requestForm h with
  | answers g hexec => exact ⟨_, hexec⟩
  | waits start _ hexec => exact ⟨_, hexec⟩
  | takesNotices a hi => subst hi; exact ⟨_, fun _ => rfl⟩
  | pings a hi => exact absurd hi (hp a)
  | resets a hi => subst hi; exact ⟨_, fun _ => rfl⟩

theorem offerFrame_full {i : Instr} {tag : Byte} {s : State} (h : 4 ≤ s.front.intake.length) :
    offerFrame i tag s = { s with front := { s.front with sent := s.front.sent ++ [.reply tag .busy .none] } } :=
  if_neg (by omega)

/-- Settles O6: the one test of the start-up scan that all requests but PING share, and the offer to the intake. -/
theorem requestsAreTurnedAwayOrWait : Obligations.RequestsAreTurnedAwayOrWait := by
  unfold Obligations.RequestsAreTurnedAwayOrWait
  refine ⟨fun i tag s htag hping hnow hscan => ?scan, fun i tag s htag hnow => ⟨fun hroom => ?room, fun hfull => ?full⟩⟩
  case scan =>
    obtain ⟨h, hexec⟩ := exec_eq_request_unlessScanning htag hping
    rw [Replies, hexec, request_scanning hnow hscan]
  all_goals obtain ⟨h, hexec⟩ := exec_eq_request htag
  case room => rw [hexec, request_waiting hnow, offerFrame_room hroom]
  case full => rw [hexec, request_waiting hnow, offerFrame_full hfull]

/-! ## Misfit bodies (R214) -/

theorem takeNotices_misfit {tag : Byte} {s : State} (hh : Handled (.takeNotices tag none) s) :
    takeNotices tag none s = replied (.reply tag .badRequest .none) s.core s :=
  (request_unlessScanning hh).trans (replyHead_taken _ _ s)

theorem ping_misfit {tag : Byte} {s : State} (hn : isHandledNow (.ping tag none) s = true) :
    ping tag none s = replied (.reply tag .badRequest .none) s.core s :=
  (request_handledNow hn).trans (replyHead_taken _ _ s)

theorem resetUnit_misfit {tag : Byte} {s : State} (hh : Handled (.resetUnit tag none) s) :
    resetUnit tag none s = replied (.reply tag .badRequest .none) s.core s :=
  (request_unlessScanning hh).trans (replyHead_taken _ _ s)

/-- A request for the issue area that is refused at its start is answered at once. -/
theorem answeredLater_error {i : Instr} {tag : Byte} {start : Core → Except Code IssueWrite} {code : Code} {s : State}
    (hh : Handled i s) (hs : start s.core = .error code) :
    answeredLater i tag start s = replied (.reply tag code .none) s.core s := by
  rw [answeredLater, request_unlessScanning hh, withHead_core, hs]
  exact replyHead_taken _ _ s

/-- A request for the issue area whose write begins stays at the head of the intake. -/
theorem answeredLater_ok {i : Instr} {tag : Byte} {start : Core → Except Code IssueWrite} {w : IssueWrite} {s : State}
    (hh : Handled i s) (hs : start s.core = .ok w) :
    answeredLater i tag start s =
      { withHead i s with core := { s.core with access := { s.core.access with issueWrite := some w } } } := by
  rw [answeredLater, request_unlessScanning hh]
  simp only [withHead_core, hs]

/-- Settles O7: a body that does not fit is turned down by each form of request before its rule is asked. -/
theorem misfitRequestsAreBad : Obligations.MisfitRequestsAreBad := by
  unfold Obligations.MisfitRequestsAreBad
  intro i tag s htag hmal hh
  unfold Replies
  cases requestForm htag with
  | answers g hexec hmisfit =>
    rw [hexec, answered_handled hh, hmisfit hmal]
    rfl
  | waits start _ hexec hmisfit => rw [hexec, answeredLater_error hh (hmisfit hmal s.core)]
  | takesNotices a hi =>
    subst hi
    cases a with
    | none => exact congrArg _ (takeNotices_misfit hh)
    | some u => cases hmal
  | pings a hi =>
    subst hi
    cases a with
    | none => exact congrArg _ (ping_misfit hh.1)
    | some u => cases hmal
  | resets a hi =>
    subst hi
    cases a with
    | none => exact congrArg _ (resetUnit_misfit hh)
    | some u => cases hmal

/-! ## The link requests with a form of their own -/

theorem takeNotices_handled {tag : Byte} {s : State} (hh : Handled (.takeNotices tag (some ())) s) :
    takeNotices tag (some ()) s = replied (noticeBatch tag s.core.link) (setLink s.core.link.taken s.core) s := by
  rw [takeNotices, request_unlessScanning hh]
  simp only [withHead_core]
  exact replyHead_withHead _ _ _ s

theorem resetUnit_handled {tag : Byte} {s : State} (hh : Handled (.resetUnit tag (some ())) s) :
    resetUnit tag (some ()) s = { replied (.reply tag .ok .none) s.core s with
      front := { (replied (.reply tag .ok .none) s.core s).front with resetPending := true } } := by
  rw [resetUnit, request_unlessScanning hh]
  simp only [replyHead_taken]

/-! ## One frame for each request (R216) -/

/-- One frame with the tag is sent, and the head leaves the intake. -/
def SendsOne (tag : Byte) (s t : State) : Prop :=
  ∃ f : Frame, f.tag = tag ∧ t.front.sent = s.front.sent ++ [f] ∧ t.front.intake = s.front.intake.tail

theorem sendsOne_replied {f : Frame} {tag : Byte} {c : Core} {s : State} (h : f.tag = tag) : SendsOne tag s (replied f c s) :=
  ⟨f, h, rfl, rfl⟩

theorem withHead_sent (i : Instr) (s : State) : (withHead i s).front.sent = s.front.sent := by
  unfold withHead; split <;> rfl

/-- The request that is handled stands at the head of the intake. -/
theorem withHead_head {i : Instr} {s : State} (hn : isHandledNow i s = true) : (withHead i s).front.intake.head? = some i := by
  unfold withHead
  split
  · rfl
  · next hne =>
    simp only [isHandledNow, Bool.and_eq_true, Bool.or_eq_true, beq_iff_eq] at hn
    obtain ⟨-, hempty | ⟨hhead, -⟩⟩ := hn
    · exact absurd hempty hne
    · exact hhead

/-- A request waits for the issue area: nothing is sent, and it stays at the head while the write is in progress. -/
def WaitsAtHead (i : Instr) (s t : State) : Prop :=
  writesIssue i = true ∧ t.front.sent = s.front.sent ∧ t.front.intake.head? = some i ∧ t.core.access.issueWrite.isSome = true

theorem unlessScanning_sends {i : Instr} {tag : Byte} {h : State → State} {s : State} (hn : isHandledNow i s = true)
    (hh : Handled i s → SendsOne tag s (request i tag (unlessScanning tag h) s) ∨
      WaitsAtHead i s (request i tag (unlessScanning tag h) s)) :
    SendsOne tag s (request i tag (unlessScanning tag h) s) ∨ WaitsAtHead i s (request i tag (unlessScanning tag h) s) := by
  by_cases hscan : s.core.store.state = .scanning
  · rw [request_scanning hn hscan]
    exact .inl (sendsOne_replied rfl)
  · exact hh ⟨hn, hscan⟩

theorem ping_sends {tag : Byte} {a : Option Unit} {s : State} (hn : isHandledNow (.ping tag a) s = true) :
    SendsOne tag s (ping tag a s) := by
  cases a with
  | none => rw [ping_misfit hn]; exact sendsOne_replied rfl
  | some u => rw [ping_handled hn]; exact sendsOne_replied rfl

theorem takeNotices_sends {tag : Byte} {a : Option Unit} {s : State} (hh : Handled (.takeNotices tag a) s) :
    SendsOne tag s (takeNotices tag a s) := by
  cases a with
  | none => rw [takeNotices_misfit hh]; exact sendsOne_replied rfl
  | some u => rw [takeNotices_handled hh]; exact sendsOne_replied rfl

theorem resetUnit_sends {tag : Byte} {a : Option Unit} {s : State} (hh : Handled (.resetUnit tag a) s) :
    SendsOne tag s (resetUnit tag a s) := by
  cases a with
  | none => rw [resetUnit_misfit hh]; exact sendsOne_replied rfl
  | some u => rw [resetUnit_handled hh]; exact ⟨_, rfl, rfl, rfl⟩

theorem answeredLater_sends {i : Instr} {tag : Byte} {start : Core → Except Code IssueWrite} {s : State}
    (hw : writesIssue i = true) (hh : Handled i s) :
    SendsOne tag s (answeredLater i tag start s) ∨ WaitsAtHead i s (answeredLater i tag start s) := by
  cases hs : start s.core with
  | error code => rw [answeredLater_error hh hs]; exact .inl (sendsOne_replied rfl)
  | ok w => rw [answeredLater_ok hh hs]; exact .inr ⟨hw, withHead_sent i s, withHead_head hh.1, rfl⟩

theorem request_sends {i : Instr} {tag : Byte} {s : State} (htag : i.tag = some tag) (hn : isHandledNow i s = true) :
    ∃ t, exec i s = .next t ∧ (SendsOne tag s t ∨ WaitsAtHead i s t) := by
  cases requestForm htag with
  | answers g hexec =>
    refine ⟨_, hexec s, unlessScanning_sends hn fun hh => .inl ?_⟩
    rw [← answered, answered_handled hh]
    exact sendsOne_replied rfl
  | waits start hw hexec => exact ⟨_, hexec s, unlessScanning_sends hn fun hh => answeredLater_sends hw hh⟩
  | takesNotices a hi => subst hi; exact ⟨_, rfl, unlessScanning_sends hn fun hh => .inl (takeNotices_sends hh)⟩
  | pings a hi => subst hi; exact ⟨_, rfl, .inl (ping_sends hn)⟩
  | resets a hi => subst hi; exact ⟨_, rfl, unlessScanning_sends hn fun hh => .inl (resetUnit_sends hh)⟩

/-! ## The bytes of the frames (Tables 11.7-1 and 11.7-2) -/

theorem bytesOf_one (x : Nat) : bytesOf 1 x = [BitVec.ofNat 8 x] := by
  simp [bytesOf]

theorem bytesOf_two (x : Nat) : bytesOf 2 x = [BitVec.ofNat 8 (x / 256), BitVec.ofNat 8 x] := by
  simp [bytesOf]

theorem bytesOf_four (x : Nat) :
    bytesOf 4 x =
      [BitVec.ofNat 8 (x / 16777216), BitVec.ofNat 8 (x / 65536), BitVec.ofNat 8 (x / 256), BitVec.ofNat 8 x] := by
  simp [bytesOf]

/-- A frame on the line: SYNC, the counted bytes, and their check. -/
def lineFrame (kind tag : Byte) (body : List Byte) : List Byte :=
  let counted := kind :: tag :: BitVec.ofNat 8 body.length :: body
  0xA5#8 :: counted ++ [BitVec.ofNat 8 ((crc counted).toNat / 256), BitVec.ofNat 8 (crc counted).toNat]

theorem Frame.bytes_eq (f : Frame) : f.bytes = lineFrame (BitVec.ofNat 8 f.kindValue) f.tag f.body := by
  simp [Frame.bytes, lineFrame, bytesOf_one, bytesOf_two]

theorem body_bareReply (tag : Byte) (code : Code) : (Frame.reply tag code .none).body = [BitVec.ofNat 8 code.value] :=
  bytesOf_one _

theorem body_reply (tag : Byte) (code : Code) (body : ReplyBody) :
    ∃ fields, fields.length ≤ 239 ∧ (Frame.reply tag code body).body = BitVec.ofNat 8 code.value :: fields := by
  by_cases hb : body = .none
  · subst hb
    exact ⟨[], Nat.zero_le _, body_bareReply tag code⟩
  · refine ⟨(Config.replyFields body).take 239, List.length_take_le _ _, ?_⟩
    have hbody : (Frame.reply tag code body).body = bytesOf 1 code.value ++ (Config.replyFields body).take 239 := by
      cases body with
      | none => exact absurd rfl hb
      | _ => rfl
    rw [hbody, bytesOf_one]
    rfl

theorem body_batch (tag : Byte) (lost : Bool) (remaining : Nat) (l : List Notice) :
    (Frame.batch tag lost remaining l).body =
      [0x00#8, (if lost = true then 1 else 0), BitVec.ofNat 8 remaining, BitVec.ofNat 8 l.length] ++ l.flatMap Notice.bytes := by
  simp [Frame.body, bytesOf_one, Code.value]

theorem Notice.bytes_eq (n : Notice) :
    ∃ fields, fields.length ≤ 32 ∧ n.bytes =
      [BitVec.ofNat 8 n.body.kindValue, (if n.network = true then 1 else 0), BitVec.ofNat 8 (n.stamp / 16777216),
        BitVec.ofNat 8 (n.stamp / 65536), BitVec.ofNat 8 (n.stamp / 256), BitVec.ofNat 8 n.stamp,
        BitVec.ofNat 8 fields.length] ++ fields :=
  ⟨(Config.noticeFields n.body).take 32, List.length_take_le _ _, by
    simp [Notice.bytes, bytesOf_one, bytesOf_four]⟩

/-- Settles O8: each form of request sends its one frame or waits for the issue area; the leading bytes follow the layouts of Tables
11.7-1 and 11.7-2. -/
theorem oneFramePerRequest : Obligations.OneFramePerRequest := by
  unfold Obligations.OneFramePerRequest
  refine ⟨fun i tag s htag hn => request_sends htag hn,
    fun tag code body lost remaining l n s => ⟨?bare, ?fields, ?batch, n.bytes_eq, rfl⟩⟩
  case bare => rw [Frame.bytes_eq, body_bareReply]; rfl
  case fields =>
    obtain ⟨fields, hlen, hbody⟩ := body_reply tag code body
    exact ⟨fields, hlen, by rw [Frame.bytes_eq, hbody]; rfl⟩
  case batch => rw [Frame.bytes_eq, body_batch]; rfl

end Sys2Proof.Machine
end

section
/-! What every step keeps: the commands behind it, and the invariant of the receiver, the intake, the notices and the commit queue (R177,
R214, R215, R217, R219). -/

namespace Sys2Proof.Machine

open Sys2Proof

/-- Settles O1: the step takes the front of the queue, and there is none in an empty one. -/
theorem stepRunsFrontCommand : Obligations.StepRunsFrontCommand := by
  unfold Obligations.StepRunsFrontCommand
  refine ⟨fun i rest s => rfl, fun s hs => ?_⟩
  rw [step, hs]

/-! ## The commands behind (R214, R215) -/

theorem withHead_pending (i : Instr) (s : State) : (withHead i s).pending = s.pending := by
  unfold withHead; split <;> rfl

theorem offerFrame_pending (i : Instr) (tag : Byte) (s : State) : (offerFrame i tag s).pending = s.pending := by
  unfold offerFrame; split <;> rfl

theorem request_pending {i : Instr} {tag : Byte} {h : State → State} (hh : ∀ s, (h s).pending = s.pending) (s : State) :
    (request i tag h s).pending = s.pending := by
  unfold request
  split
  · rw [hh, withHead_pending]
  · exact offerFrame_pending i tag s

theorem unlessScanning_pending {tag : Byte} {h : State → State} (hh : ∀ s, (h s).pending = s.pending) (s : State) :
    (unlessScanning tag h s).pending = s.pending := by
  unfold unlessScanning
  split
  · rfl
  · exact hh s

theorem judgeFrame_pending (bs : List Byte) (s : State) : (judgeFrame bs s).pending = s.pending := by
  unfold judgeFrame
  split
  · rfl
  · rfl
  · exact offerFrame_pending _ _ _

theorem receiveByte_pending (s : State) (b : Byte) : (receiveByte s b).pending = s.pending := by
  unfold receiveByte
  split
  · split <;> rfl
  · dsimp only
    split
    · rfl
    · split
      · rfl
      · split
        · exact judgeFrame_pending _ s
        · rfl

theorem receive_pending (bs : List Byte) : ∀ s : State, (receive bs s).pending = s.pending := by
  induction bs with
  | nil => exact fun _ => rfl
  | cons b bs ih => exact fun s => (ih (receiveByte s b)).trans (receiveByte_pending s b)

theorem issueWriteDone_pending (ok : Bool) (s : State) : (issueWriteDone ok s).pending = s.pending := by
  unfold issueWriteDone; split <;> rfl

theorem lockIssueWriteDone_pending (ok : Bool) (s : State) : (lockIssueWriteDone ok s).pending = s.pending := by
  unfold lockIssueWriteDone
  split
  · split <;> rfl
  · rfl

theorem answered_pending (i : Instr) (tag : Byte) (g : Core → Answer × Core) (s : State) :
    (answered i tag g s).pending = s.pending :=
  request_pending (unlessScanning_pending fun _ => by rfl) s

theorem answeredLater_pending (i : Instr) (tag : Byte) (start : Core → Except Code IssueWrite) (s : State) :
    (answeredLater i tag start s).pending = s.pending :=
  request_pending (unlessScanning_pending fun s => by dsimp only; split <;> rfl) s

theorem takeNotices_pending (tag : Byte) (a : Option Unit) (s : State) : (takeNotices tag a s).pending = s.pending :=
  request_pending (unlessScanning_pending fun s => by cases a <;> rfl) s

theorem ping_pending (tag : Byte) (a : Option Unit) (s : State) : (ping tag a s).pending = s.pending :=
  request_pending (fun s => by cases a <;> rfl) s

theorem resetUnit_pending (tag : Byte) (a : Option Unit) (s : State) : (resetUnit tag a s).pending = s.pending :=
  request_pending (unlessScanning_pending fun s => by cases a <;> rfl) s

theorem request_completes {i : Instr} {tag : Byte} (htag : i.tag = some tag) (s : State) :
    ∃ t, exec i s = .next t ∧ t.pending = s.pending := by
  cases requestForm htag with
  | answers g hexec => exact ⟨_, hexec s, answered_pending i tag g s⟩
  | waits start _ hexec => exact ⟨_, hexec s, answeredLater_pending i tag start s⟩
  | takesNotices a hi => subst hi; exact ⟨_, rfl, takeNotices_pending tag a s⟩
  | pings a hi => subst hi; exact ⟨_, rfl, ping_pending tag a s⟩
  | resets a hi => subst hi; exact ⟨_, rfl, resetUnit_pending tag a s⟩

theorem event_completes {i : Instr} (htag : i.tag = none) (s : State) : ∃ t, exec i s = .next t ∧ t.pending = s.pending := by
  cases eventForm htag with
  | acts f hexec => exact ⟨_, hexec s, rfl⟩
  | endsIssueWrite ok hexec => exact ⟨_, hexec s, issueWriteDone_pending ok s⟩
  | endsLockWrite ok hexec => exact ⟨_, hexec s, lockIssueWriteDone_pending ok s⟩
  | receives bytes hexec => exact ⟨_, hexec s, receive_pending bytes s⟩
  | limitsReceiver hexec => exact ⟨_, hexec s, by unfold receiveLimit; split <;> rfl⟩
  | resets cause r hexec => exact ⟨_, hexec s, rfl⟩
  | takesReset r hexec => exact ⟨_, hexec s, by unfold requestReset; split <;> rfl⟩

/-- Settles O2: each form of command answers a next state. -/
theorem everyCommandCompletes : Obligations.EveryCommandCompletes := by
  unfold Obligations.EveryCommandCompletes
  intro i s
  cases htag : i.tag with
  | none => exact event_completes htag s
  | some tag => exact request_completes htag s

/-! ## The receiver and the intake (R214, R215) -/

theorem FrontOk.withHead {i : Instr} {s : State} (h : FrontOk s.front) : FrontOk (withHead i s).front := by
  unfold Machine.withHead
  split
  · exact ⟨h.1, by simp⟩
  · exact h

theorem FrontOk.replyHead {f : Frame} {s : State} (h : FrontOk s.front) : FrontOk (replyHead f s).front :=
  ⟨h.1, Nat.le_trans (by simp [Machine.replyHead, send]) h.2⟩

theorem FrontOk.offerFrame {i : Instr} {tag : Byte} {s : State} (h : FrontOk s.front) : FrontOk (offerFrame i tag s).front := by
  unfold Machine.offerFrame
  split
  · next hroom => exact ⟨h.1, by simpa using hroom⟩
  · exact h

theorem FrontOk.closeFrame {s : State} (h : FrontOk s.front) : FrontOk (closeFrame s).front := ⟨rfl, h.2⟩

theorem FrontOk.judgeFrame {bs : List Byte} {s : State} (h : FrontOk s.front) : FrontOk (judgeFrame bs s).front := by
  unfold Machine.judgeFrame
  split
  · exact h.closeFrame
  · exact h.closeFrame
  · exact h.closeFrame.offerFrame

/-- An open frame begins with SYNC and waits: for its length byte, or for the bytes that this byte counts. -/
theorem rxOk_iff_of_ne_nil {rx : List Byte} (h : rx ≠ []) :
    rxOk rx = true ↔ rx.head? = some 0xA5#8 ∧
      ((bodyLength rx = none ∧ rx.length ≤ 3) ∨ ∃ n, bodyLength rx = some n ∧ n ≤ 240 ∧ rx.length < n + 6) := by
  have hempty : rx.isEmpty = false := List.isEmpty_eq_false_iff.mpr h
  cases hb : bodyLength rx with
  | none => simp [rxOk, hempty, hb]
  | some n => simp [rxOk, hempty, hb]

theorem bodyLength_append {rx : List Byte} (b : Byte) (h : 4 ≤ rx.length) : bodyLength (rx ++ [b]) = bodyLength rx := by
  simp [bodyLength, List.getElem?_append_left (show 3 < rx.length by omega)]

theorem bodyLength_eq_none_iff {rx : List Byte} : bodyLength rx = none ↔ rx.length ≤ 3 := by
  simp [bodyLength]

theorem le_length_of_bodyLength {rx : List Byte} {n : Nat} (h : bodyLength rx = some n) : 4 ≤ rx.length := by
  by_contra hlt
  rw [bodyLength_eq_none_iff.mpr (by omega)] at h
  cases h

theorem head?_append_singleton {rx : List Byte} {b x : Byte} (h : rx.head? = some x) : (rx ++ [b]).head? = some x := by
  cases rx with
  | nil => cases h
  | cons a t => exact h

/-- A byte that does not complete the open frame leaves a frame that waits for more. -/
theorem rxOk_append {rx : List Byte} {b : Byte} {n : Nat} (hne : rx ≠ []) (h : rxOk rx = true)
    (hn : bodyLength (rx ++ [b]) = some n) (hle : n ≤ 240) (hlen : (rx ++ [b]).length ≠ n + 6) : rxOk (rx ++ [b]) = true := by
  obtain ⟨hhead, hwait⟩ := (rxOk_iff_of_ne_nil hne).mp h
  refine (rxOk_iff_of_ne_nil (by simp)).mpr ⟨head?_append_singleton hhead, .inr ⟨n, hn, hle, ?_⟩⟩
  obtain ⟨-, hshort⟩ | ⟨m, hm, -, hlt⟩ := hwait
  · simp; omega
  · rw [bodyLength_append b (le_length_of_bodyLength hm), hm, Option.some.injEq] at hn
    simp at hlen ⊢
    omega

theorem FrontOk.receiveByte {s : State} {b : Byte} (h : FrontOk s.front) : FrontOk (receiveByte s b).front := by
  unfold Machine.receiveByte
  split
  · split
    · next hb => subst hb; exact ⟨rfl, h.2⟩
    · exact h
  · next hopen =>
    have hne : s.front.rx ≠ [] := fun e => hopen (by rw [e]; rfl)
    have hhead := ((rxOk_iff_of_ne_nil hne).mp h.1).1
    dsimp only
    split
    · next hnone =>
      exact ⟨(rxOk_iff_of_ne_nil (by simp)).mpr
        ⟨head?_append_singleton hhead, .inl ⟨hnone, bodyLength_eq_none_iff.mp hnone⟩⟩, h.2⟩
    · next n hn =>
      split
      · exact h.closeFrame
      · next hle =>
        split
        · exact h.judgeFrame
        · next hlen => exact ⟨rxOk_append hne h.1 hn (by omega) hlen, h.2⟩

theorem FrontOk.receive {bs : List Byte} : ∀ {s : State}, FrontOk s.front → FrontOk (receive bs s).front := by
  induction bs with
  | nil => exact id
  | cons b bs ih => exact fun h => ih h.receiveByte

theorem FrontOk.receiveLimit {s : State} (h : FrontOk s.front) : FrontOk (receiveLimit s).front := by
  unfold Machine.receiveLimit
  split
  · exact h
  · exact h.closeFrame

theorem frontOk_reset (strap : Bool) : FrontOk (Front.reset strap) := ⟨rfl, Nat.zero_le _⟩

/-! ## The blocks behind the link stand while bytes are received -/

theorem offerFrame_core (i : Instr) (tag : Byte) (s : State) : (offerFrame i tag s).core = s.core := by
  unfold offerFrame; split <;> rfl

theorem judgeFrame_core (bs : List Byte) (s : State) : (judgeFrame bs s).core = s.core := by
  unfold judgeFrame
  split
  · rfl
  · rfl
  · exact offerFrame_core _ _ _

theorem receiveByte_core (s : State) (b : Byte) : (receiveByte s b).core = s.core := by
  unfold receiveByte
  split
  · split <;> rfl
  · dsimp only
    split
    · rfl
    · split
      · rfl
      · split
        · exact judgeFrame_core _ s
        · rfl

theorem receive_core (bs : List Byte) : ∀ s : State, (receive bs s).core = s.core := by
  induction bs with
  | nil => exact fun _ => rfl
  | cons b bs ih => exact fun s => (ih (receiveByte s b)).trans (receiveByte_core s b)

/-! ## The invariant -/

theorem linkOk_reset (cause : ResetCause) : LinkOk (Link.reset cause) :=
  ⟨by simp [Link.reset], fun _ => rfl, fun _ => rfl, fun h => absurd h (by simp [Link.reset, Timer.stopped])⟩

theorem coreOk_reset (issue : Issue) (pages : Vector Page 128) (cause : ResetCause) (free : Nat) :
    CoreOk (Core.reset issue pages cause free) :=
  ⟨linkOk_reset cause, QueueOk.nil⟩

/-- Settles O4: the reset empties the receiver, the intake, the notices and the commit queue. -/
theorem resetMeetsInvariant : Obligations.ResetMeetsInvariant := ⟨frontOk_reset _, coreOk_reset _ _ _ _⟩

theorem Invariant.withHead {i : Instr} {s : State} (h : Invariant s) : Invariant (withHead i s) :=
  ⟨h.1.withHead, by rw [withHead_core]; exact h.2⟩

theorem Invariant.replyHead {f : Frame} {s : State} (h : Invariant s) : Invariant (replyHead f s) := ⟨h.1.replyHead, h.2⟩

theorem Invariant.request {i : Instr} {tag : Byte} {h : State → State} {s : State} (hs : Invariant s)
    (hh : ∀ s, Invariant s → Invariant (h s)) : Invariant (request i tag h s) := by
  unfold Machine.request
  split
  · exact hh _ hs.withHead
  · exact ⟨hs.1.offerFrame, by rw [offerFrame_core]; exact hs.2⟩

theorem Invariant.unlessScanning {tag : Byte} {h : State → State} {s : State} (hs : Invariant s) (hh : Invariant (h s)) :
    Invariant (unlessScanning tag h s) := by
  unfold Machine.unlessScanning
  split
  · exact hs.replyHead
  · exact hh

theorem Invariant.withCore {s : State} {c : Core} (h : Invariant s) (hc : CoreOk c) : Invariant { s with core := c } := ⟨h.1, hc⟩

theorem Invariant.answered {i : Instr} {tag : Byte} {g : Core → Answer × Core} {s : State} (h : Invariant s)
    (hg : ∀ c, CoreOk c → CoreOk (g c).2) : Invariant (answered i tag g s) :=
  h.request fun _ h => h.unlessScanning (h.withCore (hg _ h.2)).replyHead

theorem Invariant.answeredLater {i : Instr} {tag : Byte} {start : Core → Except Code IssueWrite} {s : State} (h : Invariant s) :
    Invariant (answeredLater i tag start s) := by
  refine h.request fun s h => h.unlessScanning ?_
  cases hs : start s.core with
  | error code => exact h.replyHead
  | ok w => exact h.withCore h.2

theorem Invariant.takeNotices {tag : Byte} {a : Option Unit} {s : State} (h : Invariant s) : Invariant (takeNotices tag a s) := by
  refine h.request fun s h => h.unlessScanning ?_
  cases a with
  | none => exact h.replyHead
  | some u => exact (h.withCore (setLink_ok h.2 h.2.linkOk.taken)).replyHead

theorem Invariant.ping {tag : Byte} {a : Option Unit} {s : State} (h : Invariant s) : Invariant (ping tag a s) := by
  refine h.request fun s h => ?_
  cases a with
  | none => exact h.replyHead
  | some u => exact h.replyHead

theorem Invariant.resetUnit {tag : Byte} {a : Option Unit} {s : State} (h : Invariant s) : Invariant (resetUnit tag a s) := by
  refine h.request fun s h => h.unlessScanning ?_
  cases a with
  | none => exact h.replyHead
  | some u => exact ⟨h.1.replyHead (f := .reply tag .ok .none), h.2⟩

theorem lastNumbers_ok {l : Vector (Option Seq) 5} {c : Core} (h : CoreOk c) :
    CoreOk { c with access := { c.access with last := l } } := h

theorem Invariant.issueWriteDone {ok : Bool} {s : State} (h : Invariant s) : Invariant (issueWriteDone ok s) := by
  unfold Machine.issueWriteDone
  split
  · exact (h.withCore (reevaluate_ok (setIssue_ok h.2))).replyHead
  · exact h

theorem Invariant.lockIssueWriteDone {ok : Bool} {s : State} (h : Invariant s) : Invariant (lockIssueWriteDone ok s) := by
  unfold Machine.lockIssueWriteDone
  split
  · split
    · exact (h.withCore (reevaluate_ok (lastNumbers_ok (setIssue_ok h.2)))).replyHead
    · exact (h.withCore (setIssue_ok h.2)).replyHead
  · exact h

theorem invariant_resetWith (cause : ResetCause) (r : ResetInput) (s : State) : Invariant (resetWith cause r s) :=
  ⟨frontOk_reset _, coreOk_reset _ _ _ _⟩

theorem request_keeps_invariant {i : Instr} {tag : Byte} {s t : State} (htag : i.tag = some tag) (h : Invariant s)
    (he : exec i s = .next t) : Invariant t := by
  cases requestForm htag with
  | answers g hexec _ hok => rw [hexec] at he; cases he; exact h.answered hok
  | waits start _ hexec => rw [hexec] at he; cases he; exact h.answeredLater
  | takesNotices a hi => subst hi; cases he; exact h.takeNotices
  | pings a hi => subst hi; cases he; exact h.ping
  | resets a hi => subst hi; cases he; exact h.resetUnit

theorem event_keeps_invariant {i : Instr} {s t : State} (htag : i.tag = none) (h : Invariant s) (he : exec i s = .next t) :
    Invariant t := by
  cases eventForm htag with
  | acts f hexec hok => rw [hexec] at he; cases he; exact h.withCore (hok _ h.2)
  | endsIssueWrite ok hexec => rw [hexec] at he; cases he; exact h.issueWriteDone
  | endsLockWrite ok hexec => rw [hexec] at he; cases he; exact h.lockIssueWriteDone
  | receives bytes hexec => rw [hexec] at he; cases he; exact ⟨h.1.receive, by rw [receive_core]; exact h.2⟩
  | limitsReceiver hexec =>
    rw [hexec] at he; cases he
    exact ⟨h.1.receiveLimit, by unfold receiveLimit; split <;> exact h.2⟩
  | resets cause r hexec => rw [hexec] at he; cases he; exact invariant_resetWith cause r s
  | takesReset r hexec =>
    rw [hexec] at he; cases he
    unfold requestReset
    split
    · exact invariant_resetWith _ r s
    · exact h

/-- Settles O3: an idle step keeps the state, and each form of command keeps the invariant, which does not speak of the commands
behind it. -/
theorem stepKeepsInvariant : Obligations.StepKeepsInvariant := by
  unfold Obligations.StepKeepsInvariant
  intro s t h hstep
  unfold step at hstep
  split at hstep
  · cases hstep
    exact h
  · next i rest _ =>
    have hrest : Invariant { s with pending := rest } := h
    cases htag : i.tag with
    | none => exact event_keeps_invariant htag hrest hstep
    | some tag => exact request_keeps_invariant htag hrest hstep

end Sys2Proof.Machine
end

section
/-! The resets: what they leave of every block, of the issue record and of the pages (R83 to R85, R180, R184, R187, R221, R224). -/

namespace Sys2Proof.Machine

open Sys2Proof

/-! ## The issue record and the pages that a reset keeps -/

theorem cutIssue_notCut {landed : Bool} {a : Access} (h : a.issueWrite = none ∨ landed = false) : cutIssue landed a = a.issue := by
  obtain hw | hl := h
  · cases landed <;> simp [cutIssue, hw]
  · simp [cutIssue, hl]

theorem cutIssue_issue {a : Access} {f : IssueFields} (hw : a.issueWrite = some (.issue f)) : cutIssue true a = .written f := by
  simp [cutIssue, hw]

theorem cutIssue_lockFlag {a : Access} {f : IssueFields} (hw : a.issueWrite = some .lockFlag) (hi : a.issue = .written f) :
    cutIssue true a = .locked f := by
  simp [cutIssue, hw, hi]

/-- Page `q` among the pages that a reset leaves. -/
def cutPage (landed : Bool) (st : Store) (q : PageNo) : Page := (cutPages landed st).get q

theorem cutPages_none {landed : Bool} {st : Store} (h : st.activity = .none) : cutPages landed st = st.pages := by
  simp [cutPages, h]

theorem cutPages_mark_lost {st : Store} {m : PageMark} {second : Bool} {n : Need} (h : st.activity = .mark m second n) :
    cutPages false st = st.pages := by
  simp [cutPages, h]

theorem cutPages_erase_lost {st : Store} {p : PageNo} (h : st.activity = .erase p) : cutPages false st = st.pages := by
  simp [cutPages, h]

theorem cutPages_bankErase_lost {st : Store} {b : Fin 8} (h : st.activity = .bankErase b) : cutPages false st = st.pages := by
  simp [cutPages, h]

theorem cutPage_item {landed : Bool} {st : Store} {second : Bool} {j : Job} {x : Record} {p : PageNo}
    (h : st.activity = .item second) (hj : st.job = some j) (hx : j.next = some x) (hp : openPage st = some p) (q : PageNo) :
    cutPage landed st q =
      if q = p then { page st p with entries := (page st p).entries ++ [.record { x with torn := !landed }] } else page st q := by
  rw [← page_addEntry]
  simp [cutPage, cutPages, h, hj, hx, hp, cutRecord, page]

theorem cutPage_copy {landed : Bool} {st : Store} {second : Bool} {x : Record} {p : PageNo} (h : st.activity = .copy x second)
    (hp : openPage st = some p) (q : PageNo) :
    cutPage landed st q =
      if q = p then { page st p with entries := (page st p).entries ++ [.record { x with torn := !landed }] } else page st q := by
  rw [← page_addEntry]
  simp [cutPage, cutPages, h, hp, cutRecord, page]

theorem cutPage_mark {st : Store} {m : PageMark} {second : Bool} {n : Need} (h : st.activity = .mark m second n) (q : PageNo) :
    cutPage true st q = page (applyMark m true st) q := by
  simp [cutPage, cutPages, h, page]

theorem cutPage_erase {st : Store} {p : PageNo} (h : st.activity = .erase p) (q : PageNo) :
    cutPage true st q = if q = p then .blank else page st q := by
  rw [← page_setPage]
  simp [cutPage, cutPages, h, page]

theorem cutPage_bankErase {st : Store} {b : Fin 8} (h : st.activity = .bankErase b) (q : PageNo) :
    cutPage true st q = if q.val / 16 = b.val then .blank else page st q := by
  rw [← page_blankBank]
  simp [cutPage, cutPages, h, page]

/-! ## The blocks after a reset -/

theorem get_replicate {α : Type} {n : Nat} (x : α) (i : Fin n) : (Vector.replicate n x).get i = x := by
  simp [Vector.get_eq_getElem]

/-- The commands that take a reset, with its cause. -/
def TakesReset (i : Instr) (cause : ResetCause) (r : ResetInput) (s : State) : Prop :=
  (i = .powerOn r ∧ cause = .powerOn) ∨ (i = .resetLine r ∧ cause = .line) ∨
    (i = .requestReset r ∧ cause = .request ∧ s.front.resetPending = true)

theorem exec_reset {i : Instr} {cause : ResetCause} {r : ResetInput} {s : State} (h : TakesReset i cause r s) :
    exec i s = .next (resetWith cause r s) := by
  obtain ⟨rfl, rfl⟩ | ⟨rfl, rfl⟩ | ⟨rfl, rfl, hp⟩ := h
  · rfl
  · rfl
  · exact congrArg Host.Outcome.next (if_pos hp)

theorem requestReset_nothing {r : ResetInput} {s : State} (h : s.front.resetPending = false) : requestReset r s = s :=
  if_neg (by simp [h])

theorem takesReset_of_command {i : Instr} {r : ResetInput} {s : State}
    (h : i = .powerOn r ∨ i = .resetLine r ∨ (i = .requestReset r ∧ s.front.resetPending = true)) :
    ∃ cause, TakesReset i cause r s := by
  obtain rfl | rfl | ⟨rfl, hp⟩ := h
  · exact ⟨_, .inl ⟨rfl, rfl⟩⟩
  · exact ⟨_, .inr (.inl ⟨rfl, rfl⟩)⟩
  · exact ⟨_, .inr (.inr ⟨rfl, rfl, hp⟩)⟩

/-- Settles O5: the blocks after a reset are those of `Core.reset`, over the issue record and the pages as the cut write or erase
leaves them. -/
theorem resetsStartOver : Obligations.ResetsStartOver := by
  unfold Obligations.ResetsStartOver
  refine ⟨fun r s i cause h => ⟨_, exec_reset h, ?blocks⟩, fun r s i h => ?pages, fun s => ⟨fun tag hh => ?request, fun r hp => ?nothing⟩⟩
  case blocks =>
    refine ⟨rfl, rfl, rfl, rfl, get_replicate _, rfl, rfl, get_replicate _, fun o => get_replicate _ _, get_replicate _,
      fun r => get_replicate _ _, get_replicate _, rfl, rfl, get_replicate _, rfl, rfl, rfl, rfl, rfl, rfl,
      cutIssue_notCut, fun f hw hl => ?issue, fun f hw hi hl => ?lockFlag⟩
    case issue =>
      show cutIssue r.landed s.core.access = _
      rw [hl, cutIssue_issue hw]
    case lockFlag =>
      show cutIssue r.landed s.core.access = _
      rw [hl, cutIssue_lockFlag hw hi]
  case pages =>
    obtain ⟨cause, h⟩ := takesReset_of_command h
    refine ⟨_, exec_reset h, cutPages_none, fun second j x p ha hj hx hp => cutPage_item ha hj hx hp,
      fun x second p ha hp => cutPage_copy ha hp, fun m second n ha hl => ?markLost, fun p second n ha hl q => ?full,
      fun p second n ha hl q => ?opening, fun p second n ha hl q => ?retiring, fun p second n ha hl q => ?wipe,
      fun p ha => ⟨fun hl q => ?erase, fun hl => ?eraseLost⟩, fun b ha => ⟨fun hl q => ?bank, fun hl => ?bankLost⟩⟩
    case markLost => exact (congrArg (cutPages · s.core.store) hl).trans (cutPages_mark_lost ha)
    case eraseLost => exact (congrArg (cutPages · s.core.store) hl).trans (cutPages_erase_lost ha)
    case bankLost => exact (congrArg (cutPages · s.core.store) hl).trans (cutPages_bankErase_lost ha)
    all_goals
      show cutPage r.landed s.core.store q = _
      rw [hl]
    case full => exact (cutPage_mark ha q).trans (page_setPage p q _ _)
    case opening => exact (cutPage_mark ha q).trans (page_setPage p q _ _)
    case retiring => exact (cutPage_mark ha q).trans (page_setPage p q _ _)
    case wipe => exact (cutPage_mark ha q).trans (page_addEntry p q _ _)
    case erase => exact cutPage_erase ha q
    case bank => exact cutPage_bankErase ha q
  case request => exact congrArg Host.Outcome.next (resetUnit_handled hh)
  case nothing => exact congrArg Host.Outcome.next (requestReset_nothing hp)

end Sys2Proof.Machine
end

section
/-! The message link: frames from the host, notices with ATTN, and the two link settings (R214, R217 to R219, R223); ISSUE STATUS (R104)
and the table of R15. -/

namespace Sys2Proof.Machine

open Sys2Proof

/-! ## Receiving (R214) -/

/-- The state with these bytes of an open frame. -/
def withRx (rx : List Byte) (s : State) : State := { s with front := { s.front with rx := rx } }

theorem receive_append (xs ys : List Byte) (s : State) : receive (xs ++ ys) s = receive ys (receive xs s) :=
  List.foldl_append

theorem receiveByte_withRx {rx : List Byte} (b : Byte) (s : State) (hne : rx ≠ []) :
    receiveByte (withRx rx s) b =
      match bodyLength (rx ++ [b]) with
      | none => withRx (rx ++ [b]) s
      | some n =>
        if n > 240 then badFrame (withRx rx s)
        else if (rx ++ [b]).length = n + 6 then judgeFrame ((rx ++ [b]).drop 1) (withRx rx s)
        else withRx (rx ++ [b]) s := by
  have hopen : ¬(withRx rx s).front.rx.isEmpty = true := by simpa [withRx] using hne
  rw [receiveByte, if_neg hopen]
  rfl

/-- Bytes that do not complete the open frame are kept. -/
theorem receive_waits {n : Nat} (hn : n ≤ 240) (s : State) : ∀ (bs rx : List Byte), bodyLength rx = some n →
    rx.length + bs.length < n + 6 → receive bs (withRx rx s) = withRx (rx ++ bs) s
  | [], rx, _, _ => by rw [List.append_nil]; rfl
  | b :: bs, rx, hrx, hlen => by
    have hne : rx ≠ [] := by rintro rfl; cases hrx
    have hb : bodyLength (rx ++ [b]) = some n := by rw [bodyLength_append b (le_length_of_bodyLength hrx), hrx]
    have hkept : receiveByte (withRx rx s) b = withRx (rx ++ [b]) s := by
      rw [receiveByte_withRx b s hne, hb]
      simp only [List.length_cons] at hlen
      simp only [List.length_append, List.length_singleton]
      rw [if_neg (by omega), if_neg (by omega)]
    calc receive (b :: bs) (withRx rx s)
        = receive bs (withRx (rx ++ [b]) s) := congrArg (receive bs) hkept
      _ = withRx (rx ++ [b] ++ bs) s := receive_waits hn s bs (rx ++ [b]) hb (by simp at hlen ⊢; omega)
      _ = withRx (rx ++ b :: bs) s := by rw [List.append_assoc]; rfl

/-- The byte that completes the open frame has it judged. -/
theorem receiveByte_completes {n : Nat} (hn : n ≤ 240) {rx : List Byte} (b : Byte) (s : State) (hrx : bodyLength rx = some n)
    (hlen : rx.length + 1 = n + 6) :
    receiveByte (withRx rx s) b = judgeFrame ((rx ++ [b]).drop 1) (withRx rx s) := by
  have hne : rx ≠ [] := by rintro rfl; cases hrx
  have hb : bodyLength (rx ++ [b]) = some n := by rw [bodyLength_append b (le_length_of_bodyLength hrx), hrx]
  rw [receiveByte_withRx b s hne, hb]
  simp only [List.length_append, List.length_singleton]
  rw [if_neg (by omega), if_pos hlen]

/-- The header of a frame opens it on an idle receiver. -/
theorem receive_header {kind tag len : Byte} {s : State} (hrx : s.front.rx = []) (hlen : len.toNat ≤ 240) :
    receive [0xA5#8, kind, tag, len] s = withRx [0xA5#8, kind, tag, len] s := by
  have hsync : receiveByte s 0xA5#8 = withRx [0xA5#8] s := by simp [receiveByte, hrx, withRx]
  have hlen' : ¬240 < len.toNat := by omega
  simp [receive, hsync, receiveByte_withRx, bodyLength, hlen']

theorem receive_tooLong {kind tag len : Byte} {s : State} (hrx : s.front.rx = []) (hlen : 240 < len.toNat) :
    receive [0xA5#8, kind, tag, len] s = badFrame s := by
  have hsync : receiveByte s 0xA5#8 = withRx [0xA5#8] s := by simp [receiveByte, hrx, withRx]
  simp [receive, hsync, receiveByte_withRx, bodyLength, hlen]
  rfl

theorem toNat_bodyByte {n : Nat} (h : n ≤ 240) : (BitVec.ofNat 8 n).toNat = n := by
  rw [BitVec.toNat_ofNat]
  omega

/-- A whole frame on an idle receiver is judged. -/
theorem receive_frame {kind tag : Byte} {body check : List Byte} {s : State} (hrx : s.front.rx = []) (hbody : body.length ≤ 240)
    (hcheck : check.length = 2) :
    ∃ rx, receive ([0xA5#8, kind, tag, BitVec.ofNat 8 body.length] ++ body ++ check) s =
      judgeFrame ([kind, tag, BitVec.ofNat 8 body.length] ++ body ++ check) (withRx rx s) := by
  obtain ⟨c1, c2, rfl⟩ := List.length_eq_two.mp hcheck
  have hlen : bodyLength ([0xA5#8, kind, tag, BitVec.ofNat 8 body.length] ++ (body ++ [c1])) = some body.length := by
    simp [bodyLength, toNat_bodyByte hbody]
  refine ⟨[0xA5#8, kind, tag, BitVec.ofNat 8 body.length] ++ (body ++ [c1]), ?_⟩
  have hsplit : [0xA5#8, kind, tag, BitVec.ofNat 8 body.length] ++ body ++ [c1, c2] =
      [0xA5#8, kind, tag, BitVec.ofNat 8 body.length] ++ ((body ++ [c1]) ++ [c2]) := by simp
  rw [hsplit, receive_append, receive_header hrx (by rw [toNat_bodyByte hbody]; exact hbody), receive_append,
    receive_waits hbody s (body ++ [c1]) _ (by simp [bodyLength, toNat_bodyByte hbody]) (by simp; omega)]
  have hlast := receiveByte_completes hbody c2 s hlen (by simp +arith)
  simpa [receive] using hlast

/-! ## The judgement of a frame (R214) -/

/-- The check bytes of a frame are the check of the bytes before them. -/
def FrameHolds (kind tag : Byte) (body check : List Byte) : Prop :=
  number check = (crc ([kind, tag, BitVec.ofNat 8 body.length] ++ body)).toNat

theorem checkHolds_iff {kind tag : Byte} {body check : List Byte} (hcheck : check.length = 2) :
    checkHolds ([kind, tag, BitVec.ofNat 8 body.length] ++ body ++ check) = true ↔ FrameHolds kind tag body check := by
  have hlen : ([kind, tag, BitVec.ofNat 8 body.length] ++ body ++ check).length - 2 =
      ([kind, tag, BitVec.ofNat 8 body.length] ++ body).length := by
    rw [List.length_append, hcheck, Nat.add_sub_cancel]
  rw [checkHolds, hlen, List.drop_left, List.take_left, beq_iff_eq, FrameHolds]

theorem judge_badFrame {kind tag : Byte} {body check : List Byte} (hcheck : check.length = 2)
    (h : ¬FrameHolds kind tag body check) : judge ([kind, tag, BitVec.ofNat 8 body.length] ++ body ++ check) = .badFrame :=
  if_neg (mt (checkHolds_iff hcheck).mp h)

theorem judge_holds {kind tag : Byte} {body check : List Byte} (hbody : body.length ≤ 240) (hcheck : check.length = 2)
    (h : FrameHolds kind tag body check) :
    judge ([kind, tag, BitVec.ofNat 8 body.length] ++ body ++ check) =
      if kind ≠ 0x01#8 ∨ tag = 0 ∨ body.length < 2 then .unknown tag
      else match requestOf (number (body.take 2)) tag (body.drop 2) with
        | some i => .request tag i
        | none => .unknown tag := by
  have htake : (body ++ check).take (BitVec.ofNat 8 body.length).toNat = body := by rw [toNat_bodyByte hbody, List.take_left]
  unfold judge
  rw [if_pos ((checkHolds_iff hcheck).mpr h)]
  simp only [List.cons_append, List.nil_append, htake, Bool.or_eq_true, bne_iff_ne, beq_iff_eq, decide_eq_true_eq, or_assoc]
  rfl

theorem judge_unknown {kind tag : Byte} {body check : List Byte} (hbody : body.length ≤ 240) (hcheck : check.length = 2)
    (h : FrameHolds kind tag body check) (hu : kind ≠ 0x01#8 ∨ tag = 0 ∨ body.length < 2) :
    judge ([kind, tag, BitVec.ofNat 8 body.length] ++ body ++ check) = .unknown tag := by
  rw [judge_holds hbody hcheck h, if_pos hu]

theorem judge_noRequest {tag : Byte} {body check : List Byte} (hbody : body.length ≤ 240) (hcheck : check.length = 2)
    (h : FrameHolds 0x01#8 tag body check) (htag : tag ≠ 0) (hlen : 2 ≤ body.length)
    (ha : requestOf (number (body.take 2)) tag (body.drop 2) = none) :
    judge ([0x01#8, tag, BitVec.ofNat 8 body.length] ++ body ++ check) = .unknown tag := by
  rw [judge_holds hbody hcheck h, if_neg (by simp; exact ⟨htag, hlen⟩), ha]

theorem judge_request {tag : Byte} {body check : List Byte} {i : Instr} (hbody : body.length ≤ 240) (hcheck : check.length = 2)
    (h : FrameHolds 0x01#8 tag body check) (htag : tag ≠ 0) (hlen : 2 ≤ body.length)
    (ha : requestOf (number (body.take 2)) tag (body.drop 2) = some i) :
    judge ([0x01#8, tag, BitVec.ofNat 8 body.length] ++ body ++ check) = .request tag i := by
  rw [judge_holds hbody hcheck h, if_neg (by simp; exact ⟨htag, hlen⟩), ha]

/-- Closing the frame leaves an idle receiver as it was before the frame. -/
theorem closeFrame_withRx {rx : List Byte} {s : State} (h : s.front.rx = []) : closeFrame (withRx rx s) = s := by
  obtain ⟨pending, ⟨rx', intake, sent, resetPending, strap⟩, core⟩ := s
  subst h
  rfl

theorem judgeFrame_badFrame {bs rx : List Byte} {s : State} (hrx : s.front.rx = []) (hj : judge bs = .badFrame) :
    judgeFrame bs (withRx rx s) = send (.reply 0 .badFrame .none) s := by
  rw [judgeFrame, hj]
  simp only [badFrame, closeFrame_withRx hrx]

theorem judgeFrame_unknown {bs rx : List Byte} {tag : Byte} {s : State} (hrx : s.front.rx = []) (hj : judge bs = .unknown tag) :
    judgeFrame bs (withRx rx s) = send (.reply tag .unknown .none) s := by
  rw [judgeFrame, hj]
  simp only [closeFrame_withRx hrx]

theorem judgeFrame_request {bs rx : List Byte} {tag : Byte} {i : Instr} {s : State} (hrx : s.front.rx = [])
    (hj : judge bs = .request tag i) : judgeFrame bs (withRx rx s) = offerFrame i tag s := by
  rw [judgeFrame, hj]
  simp only [closeFrame_withRx hrx]

theorem exec_frameReceived (bytes : List Byte) (s : State) : exec (.frameReceived bytes) s = .next (receive bytes s) := rfl

/-- Settles O9: a whole frame is kept byte by byte until its last check byte, then judged; a judged frame leaves the receiver idle. -/
theorem framesAreJudged : Obligations.FramesAreJudged := by
  unfold Obligations.FramesAreJudged
  refine ⟨fun kind tag body check s hrx hbody hcheck => ?frame, fun s => ⟨fun hopen => ?limit, fun hidle => ?idle,
    fun kind tag n hrx hn => ?tooLong⟩⟩
  case frame =>
    obtain ⟨rx, hreceive⟩ := receive_frame (kind := kind) (tag := tag) hrx hbody hcheck
    simp only [exec_frameReceived, hreceive]
    refine ⟨fun hbad => ?bad, fun hholds hu => ?unknown, ?request⟩
    case bad => rw [judgeFrame_badFrame hrx (judge_badFrame hcheck hbad)]; rfl
    case unknown => rw [judgeFrame_unknown hrx (judge_unknown hbody hcheck hholds hu)]; rfl
    case request =>
      rintro hholds rfl htag hlen
      refine ⟨fun ha => ?none, fun i ha hfull => ?full, fun i ha hroom => ?room⟩
      case none => rw [judgeFrame_unknown hrx (judge_noRequest hbody hcheck hholds htag hlen ha)]; rfl
      case full => rw [judgeFrame_request hrx (judge_request hbody hcheck hholds htag hlen ha), offerFrame_full hfull]
      case room => rw [judgeFrame_request hrx (judge_request hbody hcheck hholds htag hlen ha), offerFrame_room hroom]
  case limit => exact congrArg Host.Outcome.next (if_neg (by simpa using hopen))
  case idle => exact congrArg Host.Outcome.next (if_pos (by simp [hidle]))
  case tooLong => exact congrArg Host.Outcome.next (receive_tooLong hrx hn)

/-! ## Notices and ATTN (R217 to R219) -/

/-- Settles O11: the batch is taken from the head of the queue, and ATTN is settled for what is left in the mode in force. -/
theorem noticesAreTaken : Obligations.NoticesAreTaken := by
  unfold Obligations.NoticesAreTaken
  intro tag s hh
  refine (congrArg Host.Outcome.next (takeNotices_handled hh)).trans ?_
  unfold Link.taken Link.attnTaken
  cases hmode : s.core.link.mode with
  | level => simp [noticeBatch, setLink]
  | edge => simp [noticeBatch, setLink, Timer.stop, Timer.start]

theorem stamped_eq (b : NoticeBody) (c : Core) :
    stamped c b = ⟨c.clock.time.isSome, c.clock.time.getD c.link.refSeconds, b⟩ := by
  unfold stamped
  cases c.clock.time <;> rfl

theorem Link.join_room {l : Link} (n : Notice) (h : l.notices.length < 32) :
    l.join n = { l with
      notices := l.notices ++ [n], attn := l.attn || l.mode == .level
      pulses := if l.mode = .edge ∧ l.notices = [] then l.pulses + 1 else l.pulses } := by
  unfold Link.join
  rw [if_pos h]
  cases hmode : l.mode with
  | level => simp
  | edge => cases hn : l.notices <;> simp

theorem Link.join_full {l : Link} (n : Notice) (h : 32 ≤ l.notices.length) : l.join n = { l with lost := true } :=
  if_neg (by omega)

/-- An event that acts on the blocks alone gives the state with what it leaves of them. -/
theorem onCore_eq {f : Core → Core} {c' : Core} {s : State} (h : f s.core = c') : onCore f s = { s with core := c' } := by
  rw [onCore, h]

theorem gapExpired_running {c : Core} (h : c.link.gapTimer.running = true) :
    gapExpired c = setLink { c.link with gapTimer := c.link.gapTimer.expired, pulses := c.link.pulses + 1 } c := if_pos h

theorem gapExpired_stopped {c : Core} (h : c.link.gapTimer.running = false) : gapExpired c = c := if_neg (by simp [h])

/-- Settles O12: the two ends of a notice that is posted, and the gap timer by whether it runs. -/
theorem noticesJoinAndPulse : Obligations.NoticesJoinAndPulse := by
  unfold Obligations.NoticesJoinAndPulse
  refine ⟨fun b c => ⟨fun hroom => ?room, fun hfull => ?full⟩, fun s => ⟨fun hr => ?running, fun hr => ?stopped⟩⟩
  case room => rw [post, stamped_eq, Link.join_room _ hroom]
  case full => rw [post, Link.join_full _ hfull]
  case running => exact congrArg Host.Outcome.next (onCore_eq (gapExpired_running hr))
  case stopped => exact congrArg Host.Outcome.next (onCore_eq (gapExpired_stopped hr))

/-! ## The table of R15 -/

/-- A request that settles an item follows the table of R15. -/
theorem settingTable_of_settle {α : Type} {i : Instr} {tag : Byte} {a : α} {f : α → Core → Answer × Core} {it : Item}
    {change : Core → Core} {s : State} (hexec : exec i s = .next (answeredWith i tag (some a) f s)) (hh : Handled i s)
    (hf : f a s.core = settle it change s.core) : SettingTable i tag it change s.core s := by
  have hrefused : ∀ {x : OfferAnswer}, x ≠ .taken → (offer it s.core).1 = x → Replies i tag x.code .none s.core s := by
    rintro x hx rfl
    refine replies_of_answeredWith hexec hh ?_
    have hsame : (offer it s.core).2 = s.core := offer_refused rfl hx
    rw [hf, settle]
    split
    · next c ho => exact absurd (congrArg Prod.fst ho) hx
    · next x c _ ho =>
      rw [ho] at hsame
      rw [ho, ← hsame]
      rfl
  refine ⟨fun c' ho => ?taken, hrefused (by simp), hrefused (by simp), hrefused (by simp), hrefused (by simp)⟩
  refine replies_of_answeredWith hexec hh ?_
  rw [hf, settle, ho]
  rfl

/-! ## SET ATTENTION and SET KEYS (R223) -/

theorem modeOf_none {n : Nat} (h : n ≠ 0 ∧ n ≠ 1) : modeOf n = none := by
  match n, h with
  | _ + 2, _ => rfl

theorem modeOf_some {n : Nat} {m : AttnMode} (h : (n = 0 ∧ m = .level) ∨ (n = 1 ∧ m = .edge)) : modeOf n = some m := by
  obtain ⟨rfl, rfl⟩ | ⟨rfl, rfl⟩ := h
  · rfl
  · rfl

theorem setAttention_misfit {a : AttentionReq} (c : Core) (h : (a.mode ≠ 0 ∧ a.mode ≠ 1) ∨ a.gap = 0 ∨ 8 < a.gap) :
    setAttention a c = (.bare .badRequest, c) := by
  unfold setAttention
  obtain hmode | hgap := h
  · rw [modeOf_none hmode]
  · split
    · rfl
    · rw [if_pos (by simp; omega)]

theorem setAttention_fits {a : AttentionReq} {m : AttnMode} (c : Core) (hm : modeOf a.mode = some m) (h1 : 1 ≤ a.gap)
    (h8 : a.gap ≤ 8) :
    setAttention a c = settle (linkItem m a.gap c.link.powerKey) (fun c => setLink (c.link.withMode m a.gap) c) c := by
  unfold setAttention
  rw [hm]
  exact if_neg (by simp; omega)

/-- ATTN is settled only where the mode in force is a new one (R223). -/
theorem Link.withMode_eq (l : Link) (m : AttnMode) (gap : Nat) :
    l.withMode m gap =
      if l.mode = m then { l with gap := gap }
      else if m = .level then
        { l with mode := m, gap := gap, attn := !l.notices.isEmpty, gapTimer := { l.gapTimer with running := false } }
      else { l with mode := m, gap := gap, attn := false
                    gapTimer := if l.notices.isEmpty then l.gapTimer else { reload := gap, left := gap, running := true } } := by
  unfold Link.withMode
  by_cases h : l.mode = m
  · subst h
    simp
  · have h' : ¬m = l.mode := fun e => h e.symm
    cases m with
    | level => simp [h, h', Timer.stop]
    | edge => simp [h, h', Timer.start]

theorem setKeys_misfit {n : Nat} (c : Core) (h : 255 < n) : setKeys n c = (.bare .badRequest, c) := if_pos h

theorem setKeys_fits {n : Nat} (c : Core) (h : n ≤ 255) :
    setKeys n c = settle (linkItem c.link.mode c.link.gap (BitVec.ofNat 8 n))
      (fun c => setLink { c.link with powerKey := BitVec.ofNat 8 n } c) c := if_neg (by omega)

theorem exec_setAttention (tag : Byte) (a : Option AttentionReq) (s : State) :
    exec (.setAttention tag a) s = execSetAttention tag a s := rfl

theorem exec_setKeys (tag : Byte) (a : Option Nat) (s : State) : exec (.setKeys tag a) s = execSetKeys tag a s := rfl

/-- Settles O14: the ranges of the two requests, and the table of R15 for the one record of both. -/
theorem linkSettings : Obligations.LinkSettings := by
  unfold Obligations.LinkSettings
  intro tag s
  refine ⟨fun a hh => ⟨fun hbad => ?attnBad, fun m hm h1 h8 => ?attn⟩, fun n hh => ⟨fun hbad => ?keysBad, fun hn => ?keys⟩⟩
  case attnBad => exact replies_of_answeredWith (exec_setAttention tag (some a) s) hh (setAttention_misfit s.core hbad)
  case attn =>
    refine settingTable_of_settle (exec_setAttention tag (some a) s) hh ?_
    rw [setAttention_fits s.core (modeOf_some hm) h1 h8]
    simp only [Link.withMode_eq]
    rfl
  case keysBad => exact replies_of_answeredWith (exec_setKeys tag (some n) s) hh (setKeys_misfit s.core hbad)
  case keys => exact settingTable_of_settle (exec_setKeys tag (some n) s) hh (setKeys_fits s.core hn)

/-! ## ISSUE STATUS (R104) -/

theorem exec_issueStatus (tag : Byte) (a : Option Unit) (s : State) : exec (.issueStatus tag a) s = execIssueStatus tag a s := rfl

/-- Each group is reported with its slot. -/
theorem IssueFields.report_eq (f : IssueFields) :
    f.report = ⟨f.address, (List.range f.groups.length).map fun n => (n + 1, f.groups.getD n 0), true⟩ := by
  have hgroups : ((List.range f.groups.length).zip f.groups).map (fun x => (x.1 + 1, x.2)) =
      (List.range f.groups.length).map fun n => (n + 1, f.groups.getD n 0) := by
    refine List.ext_getElem (by simp) fun n h1 h2 => ?_
    have hn : n < f.groups.length := by simpa using h2
    simp [hn]
  simp only [IssueFields.report, hgroups]

/-- Settles O17: BUSY in the scan as every request, else the condition of the record with its fields. -/
theorem issueStatusReply : Obligations.IssueStatusReply := by
  unfold Obligations.IssueStatusReply
  intro tag s hn
  simp only [← IssueFields.report_eq]
  refine ⟨fun hs => congrArg Host.Outcome.next (request_scanning hn hs), fun hs hi => ?blank, fun f hs hi => ?written,
    fun f hs hi => ?locked⟩
  all_goals
    refine replies_of_readOnly (exec_issueStatus tag (some ()) s) ⟨hn, hs⟩ ?_
    rw [issueStatus, hi]
    rfl

end Sys2Proof.Machine
end

section
/-! The settings of the directory, the tuners and the clock (R15, R28, R211, R212), and the status requests with their replies (R13, R29,
R65, R82, R103, R121, R122, R146, R171, R190, R207, R213). -/

namespace Sys2Proof.Machine

open Sys2Proof

/-! ## Settings (table of R15) -/

/-- Only what the change does to the blocks that the queue leaves matters to the table. -/
theorem SettingTable.congr {i : Instr} {tag : Byte} {it : Item} {change change' : Core → Core} {c : Core} {s : State}
    (h : SettingTable i tag it change c s) (hc : ∀ c', offer it c = (.taken, c') → change c' = change' c') :
    SettingTable i tag it change' c s :=
  { h with taken := fun c' ho => hc c' ho ▸ h.taken c' ho }

theorem exec_setHomeCarrier (tag : Byte) (a : Option (Option CarrierReq)) (s : State) :
    exec (.setHomeCarrier tag a) s = execSetHomeCarrier tag a s := rfl

theorem exec_setTuning (tag : Byte) (a : Option Nat) (s : State) : exec (.setTuning tag a) s = execSetTuning tag a s := rfl

theorem exec_wakeAt (tag : Byte) (a : Option WakeAtReq) (s : State) : exec (.wakeAt tag a) s = execWakeAt tag a s := rfl

theorem exec_setZone (tag : Byte) (a : Option (Option Int)) (s : State) : exec (.setZone tag a) s = execSetZone tag a s := rfl

theorem symOf_none {n : Nat} (h : 2 < n) : symOf n = none := by
  match n, h with
  | _ + 3, _ => rfl

theorem symOf_of_mem {n : Nat} {sym : SymbolClass} (h : (n, sym) ∈ [(0, SymbolClass.a), (1, .b), (2, .c)]) : symOf n = some sym := by
  simp only [List.mem_cons, Prod.mk.injEq, List.not_mem_nil, or_false] at h
  obtain ⟨rfl, rfl⟩ | ⟨rfl, rfl⟩ | ⟨rfl, rfl⟩ := h
  · rfl
  · rfl
  · rfl

theorem carrierOf_none {f n : Nat} (h : f < 48000 ∨ 1002000 < f ∨ 2 < n) : carrierOf ⟨f, n⟩ = none := by
  by_cases hf : frequencyInRange f = true
  · have hn : 2 < n := by simp [frequencyInRange] at hf; omega
    simp [carrierOf, hf, symOf_none hn]
  · simp [carrierOf, hf]

theorem carrierOf_some {f n : Nat} {sym : SymbolClass} (hs : symOf n = some sym) (h1 : 48000 ≤ f) (h2 : f ≤ 1002000) :
    carrierOf ⟨f, n⟩ = some ⟨f, sym⟩ := by
  simp [carrierOf, frequencyInRange, h1, h2, hs]

theorem setHomeCarrier_misfit {r : CarrierReq} (c : Core) (h : carrierOf r = none) :
    setHomeCarrier (some r) c = (.bare .badRequest, c) := by
  simp [setHomeCarrier, h]

theorem setHomeCarrier_fits {r : CarrierReq} {x : Carrier} (c : Core) (h : carrierOf r = some x) :
    setHomeCarrier (some r) c = settleHome (some x) c := by
  simp [setHomeCarrier, h]

theorem setTuning_misfit {n : Nat} (c : Core) (h : n < 200 ∨ 3000 < n ∨ n % 100 ≠ 0) : setTuning n c = (.bare .badRequest, c) :=
  if_pos (by simpa [or_assoc] using h)

theorem setTuning_fits {n : Nat} (c : Core) (h1 : 200 ≤ n) (h2 : n ≤ 3000) (h3 : n % 100 = 0) :
    setTuning n c = settle (.single .settings 2 (.acqLimit n)) (setAcqLimit n) c :=
  if_neg (by simp [h3]; omega)

/-- An alarm that is not after network time (R211). -/
def AlarmLate (k : Clock) (alarm : Option Nat) : Prop := ∃ now t, k.time = some now ∧ alarm = some t ∧ t ≤ now

/-- WAKE AT is refused for a late alarm and for a lead out of range; else the alarm is set, with the lead through the queue. -/
theorem wakeAt_misfit {a : WakeAtReq} {c : Core}
    (h : AlarmLate c.clock a.alarm ∨ ∃ n, a.lead = some n ∧ (n < 30 ∨ 600 < n)) : wakeAt a c = (.bare .badRequest, c) := by
  refine if_pos ?_
  rw [Bool.or_eq_true]
  obtain ⟨now, t, hnow, ht, hle⟩ | ⟨n, hn, hr⟩ := h
  · simp [hnow, ht, hle]
  · simp [hn, hr]

/-- An alarm that is not late leaves the lead to decide. -/
theorem wakeAt_notLate {a : WakeAtReq} {c : Core} (h : ¬AlarmLate c.clock a.alarm) :
    wakeAt a c =
      if a.lead.any (fun n => n < 30 || n > 600) then (.bare .badRequest, c)
      else match a.lead with
        | none => (.bare .ok, setClock { c.clock with alarm := a.alarm } c)
        | some n =>
          settle (clockItem c.clock.zone n) (fun c => setClock { c.clock with alarm := a.alarm, wakeLead := n } c) c := by
  unfold wakeAt
  cases hnow : c.clock.time with
  | none => rfl
  | some now =>
    cases ht : a.alarm with
    | none => rfl
    | some t =>
      have hlate : ¬t ≤ now := fun hle => h ⟨now, t, hnow, ht, hle⟩
      simp only [hlate, decide_false, Bool.false_or] <;> rfl

theorem wakeAt_alarm {a : WakeAtReq} {c : Core} (h : ¬AlarmLate c.clock a.alarm) (hl : a.lead = none) :
    wakeAt a c = (.bare .ok, setClock { c.clock with alarm := a.alarm } c) := by
  rw [wakeAt_notLate h, hl]
  rfl

theorem wakeAt_lead {a : WakeAtReq} {c : Core} {n : Nat} (h : ¬AlarmLate c.clock a.alarm) (hl : a.lead = some n) (h1 : 30 ≤ n)
    (h2 : n ≤ 600) :
    wakeAt a c = settle (clockItem c.clock.zone n) (fun c => setClock { c.clock with alarm := a.alarm, wakeLead := n } c) c := by
  rw [wakeAt_notLate h, hl]
  exact if_neg (by simp; omega)

theorem setZone_misfit {z : Option Int} {c : Core} (h : ∃ n, z = some n ∧ (n < -720 ∨ 840 < n)) :
    setZone z c = (.bare .badRequest, c) := by
  obtain ⟨n, rfl, hn⟩ := h
  exact if_pos (by simp [offsetInRange]; omega)

theorem setZone_fits {z : Option Int} {c : Core} (h : ∀ n, z = some n → -720 ≤ n ∧ n ≤ 840) :
    setZone z c = settle (clockItem z c.clock.wakeLead)
      (fun c' => if offsetInForce { c'.clock with zone := z } = offsetInForce c.clock then setClock { c'.clock with zone := z } c'
        else offsetChanged (setClock { c'.clock with zone := z } c')) c := by
  refine if_neg ?_
  cases z with
  | none => simp
  | some n => simpa [offsetInRange] using h n rfl

/-- Settles O19: the ranges of the four requests, and the table of R15 for what each settles; a commit that is taken leaves the clock as
it was, so the offset in force is compared with what it was before the offer. -/
theorem settingsFollowTheQueue : Obligations.SettingsFollowTheQueue := by
  unfold Obligations.SettingsFollowTheQueue
  refine ⟨fun tag s => ⟨fun f n hh => ⟨fun hbad => ?homeBad, fun sym hsym h1 h2 => ?home⟩, fun hh => ?noHome,
      fun n hh => ⟨fun hbad => ?tuningBad, fun h1 h2 h3 => ?tuning⟩⟩,
    fun tag s => ⟨fun a hh => ⟨fun hbad => ?wakeBad, fun hlate hl => ?alarm, fun n hlate hl h1 h2 => ?lead⟩,
      fun z hh => ⟨fun hbad => ?zoneBad, fun hz => ?zone⟩⟩⟩
  case homeBad =>
    exact replies_of_answeredWith (exec_setHomeCarrier tag _ s) hh (setHomeCarrier_misfit s.core (carrierOf_none hbad))
  case home =>
    exact settingTable_of_settle (exec_setHomeCarrier tag _ s) hh
      (setHomeCarrier_fits s.core (carrierOf_some (symOf_of_mem hsym) h1 h2))
  case noHome => exact settingTable_of_settle (exec_setHomeCarrier tag (some none) s) hh rfl
  case tuningBad => exact replies_of_answeredWith (exec_setTuning tag (some n) s) hh (setTuning_misfit s.core hbad)
  case tuning => exact settingTable_of_settle (exec_setTuning tag (some n) s) hh (setTuning_fits s.core h1 h2 h3)
  case wakeBad => exact replies_of_answeredWith (exec_wakeAt tag (some a) s) hh (wakeAt_misfit hbad)
  case alarm => exact replies_of_answeredWith (exec_wakeAt tag (some a) s) hh (wakeAt_alarm hlate hl)
  case lead => exact settingTable_of_settle (exec_wakeAt tag (some a) s) hh (wakeAt_lead hlate hl h1 h2)
  case zoneBad => exact replies_of_answeredWith (exec_setZone tag (some z) s) hh (setZone_misfit hbad)
  case zone =>
    refine (settingTable_of_settle (exec_setZone tag (some z) s) hh (setZone_fits hz)).congr fun c' ho => ?_
    have hclock : c'.clock = s.core.clock := (offer_only ho).clock
    simp only [offsetInForce, hclock]
    rfl

end Sys2Proof.Machine
end

section
/-! The status requests with their replies (R13, R29, R65, R82, R103, R121, R122, R146, R171, R190, R207, R213). -/

namespace Sys2Proof.Machine

open Sys2Proof

/-! ## The reply of each status request with its values in range -/

theorem listChannels_inRange {a : ListChannelsReq} (c : Core) (h : lcnInRange a.start = true) :
    listChannels a c =
      ⟨.ok, .channels c.dir.version c.dir.map.length c.dir.carriers.length c.dir.guideCarrier c.dir.home
        (c.dir.asmVersion.map fun v => (v, c.dir.asmArea.length))
        (((c.dir.map.filter fun e => a.start ≤ e.lcn && (a.hidden || !e.hidden)).take 10).map listed)
        (((c.dir.map.filter fun e => a.start ≤ e.lcn && (a.hidden || !e.hidden)).drop 10).head?.map (·.lcn))⟩ :=
  if_neg (by simp [h])

/-- The number of an output in SESSION STATUS (R65). -/
theorem outputOf_of_mem {n : Nat} {o : Output}
    (h : (n, o) ∈ [(0, Output.roomA), (1, .roomB), (2, .record1), (3, .record2)]) : outputOf n = some o := by
  simp only [List.mem_cons, Prod.mk.injEq, List.not_mem_nil, or_false] at h
  obtain ⟨rfl, rfl⟩ | ⟨rfl, rfl⟩ | ⟨rfl, rfl⟩ | ⟨rfl, rfl⟩ := h
  · rfl
  · rfl
  · rfl
  · rfl

theorem outputOf_isSome {n : Nat} (h : n ≤ 3) : ∃ o, outputOf n = some o := by
  match n, h with
  | 0, _ => exact ⟨_, rfl⟩
  | 1, _ => exact ⟨_, rfl⟩
  | 2, _ => exact ⟨_, rfl⟩
  | 3, _ => exact ⟨_, rfl⟩

theorem sessionStatus_one {n : Nat} {o : Output} (c : Core) (h : outputOf n = some o) :
    sessionStatus (some n) c = ⟨.ok, .sessions [sessionReport c o]⟩ := by
  simp [sessionStatus, h]

theorem keyStatus_one {n : Nat} (c : Core) (h : n < 4) : keyStatus (some n) c = ⟨.ok, .keys [keyReport c ⟨n, h⟩]⟩ := dif_pos h

/-- The package grants that ACCESS STATUS lists from a position, none while the issue record is not locked (R103). -/
def listedPackages (c : Core) (position : Nat) : List PackageGrant :=
  if c.access.issue.isLocked then c.access.packages.filter (position ≤ ·.id) else []

/-- The event grants that ACCESS STATUS lists from a position (R103). -/
def listedEvents (c : Core) (position : Nat) : List EventGrant :=
  if c.access.issue.isLocked then c.access.events.drop position else []

/-- A package grant valid today; today may be absent. -/
def validToday (c : Core) (g : PackageGrant) : Bool := c.clock.today.any fun d => (g.first : Int) ≤ d && d ≤ (g.last : Int)

theorem accessStatus_packages {position : Nat} (c : Core) (h1 : 1 ≤ position) (h2 : position ≤ 4095) :
    accessStatus ⟨0, position⟩ c =
      ⟨.ok, .packages (accessSummary c) (((listedPackages c position).take 16).map fun g => (g, validToday c g))
        (((listedPackages c position).drop 16).head?.map (·.id))⟩ := by
  have hvalid : (fun g : PackageGrant => (g, validToday c g)) = fun g => (g, match c.clock.today with
      | some d => g.validOn d
      | none => false) := by
    funext g
    unfold validToday
    cases c.clock.today <;> rfl
  rw [hvalid]
  exact if_pos (by simp [h1, h2])

theorem accessStatus_events {position : Nat} (c : Core) (h : position ≤ 23) :
    accessStatus ⟨1, position⟩ c =
      ⟨.ok, .events (accessSummary c) ((listedEvents c position).take 12)
        (if 12 < (listedEvents c position).length then some (position + 12) else none)⟩ := if_pos h

theorem isPresent_eq (c : Core) (r : EventRecord) : isPresent c r = (presentEvent c r.lcn).any (·.event == r.event) := by
  unfold isPresent
  cases presentEvent c r.lcn <;> rfl

theorem guideQuery_inRange {a : GuideReq} (c : Core) (h : lcnInRange a.lcn = true) :
    guideQuery a c =
      ⟨.ok, .guide (guideSummary c)
        (((c.guide.records.filter fun r => r.lcn == a.lcn && a.fromTime < r.finish).take 6).map fun r => (r, isPresent c r))
        (if 6 < (c.guide.records.filter fun r => r.lcn == a.lcn && a.fromTime < r.finish).length then
          ((c.guide.records.filter fun r => r.lcn == a.lcn && a.fromTime < r.finish).take 6).getLast?.map (·.finish) else none)⟩ :=
  if_neg (by simp [h])

theorem nowNext_listed {lcn : Nat} {c : Core} (h : lcnInRange lcn = true) (hf : (findChannel c lcn).isSome = true) :
    nowNext lcn c =
      ⟨.ok, .nowNext ((presentEvent c lcn).map fun p => (p, findRecord c lcn p.event)) (c.clock.time.bind (nextRecord c lcn))
        ((markerOf c lcn).map fun m => (m, markerInUse c m))⟩ := by
  have hn : (findChannel c lcn).isNone = false := by simpa using hf
  simp [nowNext, h, hn]

theorem purchaseLog_inRange {position : Nat} (c : Core) (h : position ≤ 47) :
    ∃ body, purchaseLog position c = ⟨.ok, body⟩ := ⟨_, if_neg (by omega)⟩

theorem listBookings_inRange {position : Nat} (c : Core) (h : position ≤ 31) :
    listBookings position c =
      ⟨.ok, .bookings c.clock.bookings.length
        (((c.clock.bookings.drop position).take 6).map fun b => (b, c.clock.owedBookings.contains b.id))
        (if 6 < (c.clock.bookings.drop position).length then some (position + 6) else none)⟩ := if_neg (by omega)

/-! ## A status request changes nothing -/

theorem statusRequest_replies {i : Instr} {tag : Byte} {s : State} (htag : i.tag = some tag) (hr : statusRequest s.core i = true)
    (hh : Handled i s) : ∃ body, Replies i tag .ok body s.core s := by
  cases i <;> simp only [Instr.tag, Option.some.injEq, reduceCtorEq] at htag <;> subst htag
  case listChannels a =>
    cases a with
    | none => cases hr
    | some a => exact ⟨_, replies_of_readOnly rfl hh (listChannels_inRange s.core hr)⟩
  case channelInfo a =>
    cases a with
    | none => cases hr
    | some l =>
      simp only [statusRequest, Bool.and_eq_true, Option.isSome_iff_exists] at hr
      obtain ⟨hl, e, he⟩ := hr
      exact ⟨_, replies_channelInfo hh (channelInfo_entry hl he)⟩
  case tunerStatus a =>
    cases a with
    | none => cases hr
    | some u => exact ⟨_, replies_of_readOnly (f := tunerStatus) rfl hh rfl⟩
  case issueStatus a =>
    cases a with
    | none => cases hr
    | some u => exact ⟨_, replies_of_readOnly (f := issueStatus) rfl hh rfl⟩
  case limitStatus a =>
    cases a with
    | none => cases hr
    | some u => exact ⟨_, replies_of_readOnly (f := limitStatus) rfl hh rfl⟩
  case creditStatus a =>
    cases a with
    | none => cases hr
    | some u => exact ⟨_, replies_of_readOnly (f := creditStatus) rfl hh rfl⟩
  case storeStatus a =>
    cases a with
    | none => cases hr
    | some u => exact ⟨_, replies_of_readOnly (f := storeStatus) rfl hh rfl⟩
  case clockStatus a =>
    cases a with
    | none => cases hr
    | some u => exact ⟨_, replies_of_readOnly (f := clockStatus) rfl hh rfl⟩
  case sessionStatus a =>
    match a with
    | none => cases hr
    | some none => exact ⟨_, replies_of_readOnly (f := sessionStatus) rfl hh rfl⟩
    | some (some n) =>
      obtain ⟨o, ho⟩ := outputOf_isSome (by simpa [statusRequest] using hr)
      exact ⟨_, replies_of_readOnly rfl hh (sessionStatus_one s.core ho)⟩
  case keyStatus a =>
    match a with
    | none => cases hr
    | some none => exact ⟨_, replies_of_readOnly (f := keyStatus) rfl hh rfl⟩
    | some (some n) =>
      have hn : n ≤ 3 := by simpa [statusRequest] using hr
      exact ⟨_, replies_of_readOnly rfl hh (keyStatus_one s.core (by omega))⟩
  case accessStatus a =>
    match a with
    | none => cases hr
    | some ⟨selector, position⟩ =>
      simp only [statusRequest, Bool.or_eq_true, Bool.and_eq_true, beq_iff_eq, decide_eq_true_eq] at hr
      obtain ⟨⟨rfl, h1⟩, h2⟩ | ⟨rfl, h2⟩ := hr
      · exact ⟨_, replies_of_readOnly rfl hh (accessStatus_packages s.core h1 h2)⟩
      · exact ⟨_, replies_of_readOnly rfl hh (accessStatus_events s.core h2)⟩
  case guideQuery a =>
    cases a with
    | none => cases hr
    | some a => exact ⟨_, replies_of_readOnly rfl hh (guideQuery_inRange s.core hr)⟩
  case nowNext a =>
    cases a with
    | none => cases hr
    | some l =>
      simp only [statusRequest, Bool.and_eq_true] at hr
      exact ⟨_, replies_of_readOnly rfl hh (nowNext_listed hr.1 hr.2)⟩
  case purchaseLog a =>
    cases a with
    | none => cases hr
    | some p =>
      obtain ⟨body, hbody⟩ := purchaseLog_inRange s.core (by simpa [statusRequest] using hr)
      exact ⟨body, replies_of_readOnly rfl hh hbody⟩
  case listBookings a =>
    cases a with
    | none => cases hr
    | some p => exact ⟨_, replies_of_readOnly rfl hh (listBookings_inRange s.core (by simpa [statusRequest] using hr))⟩
  all_goals cases hr

/-! ## The next booking to become DUE (R213) -/

/-- A fold that keeps the entry of the least value gives one of the entries with none below it. -/
theorem foldl_least {α : Type} {pick : Option α → α → Option α} {value : α → Int}
    (hnone : ∀ b, pick none b = some b) (hsome : ∀ x b, pick (some x) b = some (if value b < value x then b else x)) :
    ∀ (l : List α) (x : α), ∃ b ∈ x :: l, l.foldl pick (some x) = some b ∧ ∀ y ∈ x :: l, value b ≤ value y
  | [], x => ⟨x, by simp, rfl, by simp⟩
  | a :: l, x => by
    obtain ⟨b, hb, hfold, hle⟩ := foldl_least hnone hsome l (if value a < value x then a else x)
    have hstart : ∀ y ∈ x :: a :: l, ∃ z ∈ (if value a < value x then a else x) :: l, value z ≤ value y := by
      intro y hy
      simp only [List.mem_cons] at hy
      obtain rfl | rfl | hy := hy
      · exact ⟨_, List.mem_cons_self, by split <;> omega⟩
      · exact ⟨_, List.mem_cons_self, by split <;> omega⟩
      · exact ⟨y, List.mem_cons_of_mem _ hy, le_refl _⟩
    refine ⟨b, ?_, by rw [List.foldl_cons, hsome, hfold], fun y hy => ?_⟩
    · split at hb <;> simp only [List.mem_cons] at hb ⊢ <;> tauto
    · obtain ⟨z, hz, hzy⟩ := hstart y hy
      exact (hle z hz).trans hzy

/-- The entry that such a fold of a list gives. -/
theorem foldl_least_spec {α : Type} {pick : Option α → α → Option α} {value : α → Int} {l : List α} {best : Option α}
    (h : l.foldl pick none = best) (hnone : ∀ b, pick none b = some b)
    (hsome : ∀ x b, pick (some x) b = some (if value b < value x then b else x)) :
    (best = none ∧ l = []) ∨ ∃ b ∈ l, best = some b ∧ ∀ y ∈ l, value b ≤ value y := by
  cases l with
  | nil => exact .inl ⟨h.symm, rfl⟩
  | cons x l =>
    obtain ⟨b, hb, hfold, hle⟩ := foldl_least hnone hsome l x
    exact .inr ⟨b, hb, by rw [← h, List.foldl_cons, hnone, hfold], hle⟩

theorem nextDue_spec (k : Clock) :
    (nextDue k = none ∧ ∀ b, ¬(b ∈ k.bookings ∧ b.state = .waiting)) ∨
      ∃ b, (b ∈ k.bookings ∧ b.state = .waiting) ∧ nextDue k = some (b.id, b.start) ∧
        ∀ x, (x ∈ k.bookings ∧ x.state = .waiting) → duePoint k b ≤ duePoint k x := by
  have hmem : ∀ b, b ∈ k.bookings.filter (·.state == .waiting) ↔ b ∈ k.bookings ∧ b.state = .waiting := fun b => by
    simp [List.mem_filter]
  simp only [← hmem]
  unfold nextDue
  generalize k.bookings.filter (·.state == .waiting) = waiting
  generalize hfold : List.foldl _ none waiting = best
  obtain ⟨hbest, rfl⟩ | ⟨b, hb, hbest, hle⟩ := foldl_least_spec (value := duePoint k) hfold (fun _ => rfl)
    fun x b => by dsimp only; split <;> rfl
  · exact .inl ⟨by rw [hbest]; rfl, fun b => List.not_mem_nil⟩
  · exact .inr ⟨b, hb, by rw [hbest]; rfl, hle⟩

/-! ## The replies -/

theorem Slot.isOn_eq (x : Slot) (t : Fin 4) : x.isOn t = x.filter.any (·.tuner == t) := by
  unfold Slot.isOn
  cases x.filter <;> rfl

theorem tunerReport_eq (c : Core) :
    tunerReport c = fun t =>
      { state := (tuner c t).state, carrier := (tuner c t).carrier, number := (tuner c t).number, holders := (tuner c t).holders,
        lossExpired := (tuner c t).state == .lost && !(tuner c t).loss.running,
        openSlots := allSlots.countP fun n => (slot c n).filter.any (·.tuner == t) } := by
  funext t
  simp only [tunerReport, Slot.isOn_eq]

theorem nextRecord_eq (c : Core) (lcn : Nat) :
    nextRecord c lcn = fun now => c.guide.records.find? fun r =>
      r.lcn == lcn && now ≤ r.start && !(presentEvent c r.lcn).any (·.event == r.event) := by
  funext now
  simp only [nextRecord, isPresent_eq]

theorem countState_eq (st : Store) (x : PageState) : countState st x = (allPages.filter fun q => (page st q).state == x).length := by
  have hpages : st.pages.toList = allPages.map (page st) := by
    refine List.ext_getElem (by simp [allPages]) fun n h1 h2 => ?_
    simp [allPages, page, Vector.get_eq_getElem]
  rw [countState, hpages, List.countP_map, List.countP_eq_length_filter]
  rfl

/-- Settles O15: no status request in range changes anything, and each reply is written out from its rule. -/
theorem statusRequestsReadOnly : Obligations.StatusRequestsReadOnly := by
  unfold Obligations.StatusRequestsReadOnly
  refine ⟨fun i tag s htag hr hh => statusRequest_replies htag hr hh,
    fun tag s => ⟨fun a h1 h2 hh => ?list, fun hh => ?tuners, fun hh => ?sessions, fun n o ho hh => ?session,
      fun hh => ?keys, fun k hh => ?key⟩,
    fun tag s => ⟨fun position h1 h2 hh => ?packages, fun position h hh => ?events, fun lcn start h1 h2 hh => ?guide,
      fun lcn e h1 h2 hf hh => ?nowNext⟩,
    fun tag s => ⟨fun hh => ?limits, fun position h hh => ?log, fun hh => ?store, fun position h hh => ?bookings,
      fun hh => ?clock⟩⟩
  case list => exact replies_of_readOnly rfl hh (listChannels_inRange s.core (lcnInRange_iff.mpr ⟨h1, h2⟩))
  case tuners =>
    refine replies_of_readOnly (f := tunerStatus) rfl hh ?_
    simp only [tunerStatus, tunerReport_eq]
    rfl
  case sessions =>
    exact replies_of_readOnly (f := sessionStatus) rfl hh rfl
  case session =>
    refine replies_of_readOnly (f := sessionStatus) rfl hh ?_
    rw [sessionStatus_one s.core (outputOf_of_mem ho)]
    cases o <;> rfl
  case keys => exact replies_of_readOnly (f := keyStatus) rfl hh rfl
  case key => exact replies_of_readOnly (f := keyStatus) rfl hh (keyStatus_one s.core k.isLt)
  case packages => exact replies_of_readOnly rfl hh (accessStatus_packages s.core h1 h2)
  case events => exact replies_of_readOnly rfl hh (accessStatus_events s.core h)
  case guide =>
    refine replies_of_readOnly (f := guideQuery) rfl hh ?_
    rw [guideQuery_inRange s.core (lcnInRange_iff.mpr ⟨h1, h2⟩)]
    simp only [isPresent_eq]
    rfl
  case nowNext =>
    refine replies_of_readOnly (f := nowNext) rfl hh ?_
    rw [nowNext_listed (lcnInRange_iff.mpr ⟨h1, h2⟩) (by rw [hf]; rfl)]
    simp only [nextRecord_eq]
    rfl
  case limits => exact replies_of_readOnly (f := limitStatus) rfl hh rfl
  case log => exact replies_of_readOnly (f := purchaseLog) rfl hh (if_neg (by omega))
  case store =>
    refine replies_of_readOnly (f := storeStatus) rfl hh ?_
    simp only [storeStatus, countState_eq, List.countP_eq_length_filter]
    rfl
  case bookings => exact replies_of_readOnly rfl hh (listBookings_inRange s.core h)
  case clock =>
    refine ⟨nextDue s.core.clock, ?due, replies_of_readOnly (f := clockStatus) rfl hh ?_⟩
    case due => exact nextDue_spec s.core.clock
    simp only [clockStatus, List.countP_eq_length_filter]
    rfl

end Sys2Proof.Machine
end

section
/-! Sessions and tuners: the end of a verdict at a session, what LOCK and LOSS reports hand out, and the tuners that stand through it (R18 to
R21, R46, R53, R54, R58). -/

namespace Sys2Proof.Machine

open Sys2Proof

/-! ## Ends of a change and of a verdict (R46 to R48, R57, R58) -/

theorem inFlight_iff {t : ChangeTag} : t.inFlight = true ↔ t ≠ .absent := by simp [ChangeTag.inFlight]

/-- What a session reports where a verdict has brought it: the end of its change, or SESSION_STATE. -/
def reportArrival (o : Output) (x : Session) (st : SessionState) (r : Reasons) (outcome : ChangeOutcome) (rs : Option Reasons)
    (c : Core) : Core :=
  if x.change = .absent then post (.sessionState o st r x.lcn x.event) c
  else endChange o x outcome rs c

theorem endChange_eq (o : Output) (x : Session) (outcome : ChangeOutcome) (rs : Option Reasons) (c : Core) :
    endChange o x outcome rs c =
      match x.origin with
      | .host => post (.changeDone o x.change.host outcome x.lcn rs) c
      | .booking id => bookingOutcome id outcome (post (.changeDone o x.change.host outcome x.lcn rs) c) := rfl

/-- The session where a verdict leaves it, with no change in flight. -/
def Session.arrived (x : Session) (st : SessionState) (r : Reasons) : Session :=
  { x with state := st, reasons := r, ret := none, change := .absent, keyWait := { x.keyWait with running := false } }

/-- The session takes PRESENTING from another state. -/
theorem arrive_toPresenting {o : Output} {x : Session} (entering : Bool) (c : Core) (h : x.state ≠ .presenting) :
    arrive o x x.toPresenting entering c =
      reportArrival o x .presenting .none .presenting none (setSession o (x.arrived .presenting .none) c) := by
  have hstate : SessionState.presenting ≠ x.state := fun e => h e.symm
  unfold arrive reportArrival
  by_cases hc : x.change = .absent
  · simp [Session.toPresenting, Session.arrived, Timer.stop, ChangeTag.inFlight, hc, hstate, postSession]
  · simp only [Session.toPresenting, ChangeTag.inFlight, bne_iff_ne, ne_eq, hc, not_false_eq_true, if_true, if_false,
      reduceCtorEq, decide_false, Bool.false_and, Bool.false_eq_true]
    rfl

/-- The session takes HELD from another state; NO_GRANT may then offer a purchase. -/
theorem arrive_toHeld {o : Output} {x : Session} (r : Reasons) (c : Core) (h : x.state ≠ .held) :
    arrive o x (x.toHeld r) true c =
      if r.noGrant = true then purchaseOffer o (reportArrival o x .held r .held (some r) (setSession o (x.arrived .held r) c))
      else reportArrival o x .held r .held (some r) (setSession o (x.arrived .held r) c) := by
  have hstate : SessionState.held ≠ x.state := fun e => h e.symm
  have hreported :
      (if (x.toHeld r).change.inFlight then
        match (x.toHeld r).state with
        | .held => endChange o (x.toHeld r) .held (some (x.toHeld r).reasons) (setSession o { x.toHeld r with change := .absent } c)
        | _ => endChange o (x.toHeld r) .presenting none (setSession o { x.toHeld r with change := .absent } c)
      else if (x.toHeld r).state ≠ x.state ∨ (x.toHeld r).reasons ≠ x.reasons then
        postSession o (setSession o { x.toHeld r with change := .absent } c)
      else setSession o { x.toHeld r with change := .absent } c) =
      reportArrival o x .held r .held (some r) (setSession o (x.arrived .held r) c) := by
    unfold reportArrival
    by_cases hc : x.change = .absent
    · simp [Session.toHeld, Session.arrived, Timer.stop, ChangeTag.inFlight, hc, hstate, postSession]
    · simp only [Session.toHeld, ChangeTag.inFlight, bne_iff_ne, ne_eq, hc, not_false_eq_true, if_true, if_false]
      rfl
  rw [← hreported]
  unfold arrive
  simp [Session.toHeld]

/-! ## A session in OPENING (R41, R46) -/

theorem tryChecking_entry {o : Output} {old : Session} {e : LaneEntry} {c : Core} (hs : (session c o).state = .opening)
    (he : laneEntry c (session c o) = some e) : tryChecking o old c = enterChecking o e c := by
  unfold tryChecking
  rw [if_pos hs, he]

theorem tryChecking_noEntry {o : Output} {old : Session} {c : Core} (hs : (session c o).state = .opening)
    (he : laneEntry c (session c o) = none) (hold : old.state ≠ .opening) :
    tryChecking o old c = if (session c o).change = .absent then postSession o c else c := by
  unfold tryChecking
  rw [if_pos hs, he]
  by_cases hc : (session c o).change = .absent <;> simp [ChangeTag.inFlight, hc, hold]

theorem laneEntry_toOpening (o : Output) (x : Session) (c : Core) :
    laneEntry (setSession o x.toOpening c) x.toOpening = laneEntry c x := rfl

/-- A session that goes to OPENING and finds its lane-map entry is checked at once. -/
theorem tryChecking_toOpening_entry {o : Output} {old x : Session} {e : LaneEntry} {c : Core} (he : laneEntry c x = some e) :
    tryChecking o old (setSession o x.toOpening c) = enterChecking o e (setSession o x.toOpening c) :=
  tryChecking_entry (by rw [session_setSession]; rfl) (by rw [session_setSession, laneEntry_toOpening, he])

theorem tryChecking_toOpening_noEntry {o : Output} {old x : Session} {c : Core} (he : laneEntry c x = none)
    (hold : old.state ≠ .opening) :
    tryChecking o old (setSession o x.toOpening c) =
      if x.change = .absent then post (.sessionState o .opening .none x.lcn none) (setSession o x.toOpening c)
      else setSession o x.toOpening c := by
  rw [tryChecking_noEntry (by rw [session_setSession]; rfl) (by rw [session_setSession, laneEntry_toOpening, he]) hold,
    session_setSession, postSession, session_setSession]
  rfl

/-! ## The key of a session's service -/

theorem KeySlot.clears_iff {x : KeySlot} : x.clears = true ↔ x.state = .ready ∨ x.state = .stale := by
  simp [KeySlot.clears]

theorem keyReady_iff {c : Core} {x : Session} :
    keyReady c x = true ↔ ∃ e, x.service = some e ∧ (e.keyLane = 0 ∨
      ∃ k, x.slot = some k ∧ ((keySlot c k).state = .ready ∨ (keySlot c k).state = .stale)) := by
  unfold keyReady
  cases x.service with
  | none => simp
  | some e => cases x.slot <;> simp [KeySlot.clears_iff]

theorem Reasons.isEmpty_iff {r : Reasons} : r.isEmpty = true ↔ r = .none := by simp [Reasons.isEmpty]

/-! ## Return of signal (R54) -/

theorem signalRegained_notDark {o : Output} {c : Core} (h : (session c o).state ≠ .dark) : signalRegained o c = c := if_neg h

theorem signalRegained_opening {o : Output} {c : Core} (h : (session c o).state = .dark)
    (hr : (session c o).ret = some .opening) :
    signalRegained o c = tryChecking o (session c o) (setSession o (session c o).toOpening c) := by
  unfold signalRegained
  rw [if_pos h, hr]

theorem signalRegained_checking_noEntry {o : Output} {c : Core} (h : (session c o).state = .dark)
    (hr : (session c o).ret = some .checking) (he : laneEntry c (session c o) = none) :
    signalRegained o c = tryChecking o (session c o) (setSession o (session c o).toOpening c) := by
  unfold signalRegained
  rw [if_pos h, hr]
  simp only [he]

theorem signalRegained_checking_entry {o : Output} {e : LaneEntry} {c : Core} (h : (session c o).state = .dark)
    (hr : (session c o).ret = some .checking) (he : laneEntry c (session c o) = some e) :
    signalRegained o c = enterChecking o e c := by
  unfold signalRegained
  rw [if_pos h, hr]
  simp only [he]

/-- A return to PRESENTING or HELD goes by the set recorded and the key. -/
theorem signalRegained_verdict {o : Output} {c : Core} (h : (session c o).state = .dark)
    (hr : (session c o).ret = some .presenting ∨ (session c o).ret = some .held) :
    signalRegained o c =
      if ((session c o).reasons.isEmpty && keyReady c (session c o)) = true then
        arrive o (session c o) (session c o).toPresenting false c
      else arrive o (session c o) ((session c o).toHeld (session c o).reasons) true c := by
  unfold signalRegained
  rw [if_pos h]
  obtain hr | hr := hr
  · rw [hr]
  · rw [hr]

theorem signalRegained_presents {o : Output} {c : Core} (h : (session c o).state = .dark)
    (hr : (session c o).ret = some .presenting ∨ (session c o).ret = some .held) (hempty : (session c o).reasons = .none)
    (hkey : keyReady c (session c o) = true) :
    signalRegained o c =
      reportArrival o (session c o) .presenting .none .presenting none
        (setSession o ((session c o).arrived .presenting .none) c) := by
  rw [signalRegained_verdict h hr, if_pos (by rw [Bool.and_eq_true, Reasons.isEmpty_iff]; exact ⟨hempty, hkey⟩),
    arrive_toPresenting false c (by simp [h])]

theorem signalRegained_holds {o : Output} {c : Core} (h : (session c o).state = .dark)
    (hr : (session c o).ret = some .presenting ∨ (session c o).ret = some .held)
    (hheld : (session c o).reasons ≠ .none ∨ ¬keyReady c (session c o) = true) :
    signalRegained o c =
      let x := session c o
      let c1 := reportArrival o x .held x.reasons .held (some x.reasons) (setSession o (x.arrived .held x.reasons) c)
      if x.reasons.noGrant = true then purchaseOffer o c1 else c1 := by
  rw [signalRegained_verdict h hr, if_neg (by rw [Bool.and_eq_true, Reasons.isEmpty_iff]; tauto),
    arrive_toHeld _ c (by simp [h])]

/-! ## Tuners that stand through what follows a transition -/

theorem Calm.refl {c : Core} (h : noneExtended c) : Calm c c := ⟨rfl, h⟩

theorem Calm.tuner {c0 c : Core} (h : Calm c0 c) (t : Fin 4) : tuner c t = tuner c0 t := by
  unfold Machine.tuner
  rw [h.arb]

theorem Calm.heldTuner {c0 c : Core} (h : Calm c0 c) (x : Claimant) : heldTuner c x = heldTuner c0 x := by
  unfold Machine.heldTuner
  simp only [h.tuner]

theorem noneExtended_setTuner {t : Fin 4} {u : Tuner} {c : Core} (h : noneExtended c) : noneExtended (setTuner t u c) := h

/-- Standby watch is the only holder exactly when no other claimant holds with it. -/
theorem Holders.only_watch_iff {h : Holders} : h.only .watch = true ↔ h = Holders.none.put .watch true := by
  simp [Holders.only]

theorem Holders.hasOther_onlyWatch : (Holders.none.put .watch true).hasOther = false := rfl

/-- What a tuner that leaves its carrier hands out leaves the tuners alone, unless standby watch is tested. -/
theorem handLeft_calm {stop : Output → Core → Core} {t : Fin 4} {u : Tuner} {c0 c : Core} (hok : Calm c0 c)
    (h : ¬(u.state = .locked ∧ u.holders.hasOther = true)) : Calm c0 (handLeft stop t u c) := by
  have hclosed : Calm c0 (setLaneMap t .empty (settleControl (closeTunerSlots t c))) :=
    setLaneMap_calm (settleControl_calm (closeTunerSlots_calm hok))
  unfold handLeft
  dsimp only
  rw [if_neg (by simpa using h)]
  exact ite_calm (carrierUnlocked_calm hclosed) hclosed

theorem noneExtended_turnOff {t : Fin 4} {c : Core} (h : noneExtended c) : noneExtended (turnOff t c) := h

theorem goOff_calm {stop : Output → Core → Core} {t : Fin 4} {c : Core} (hn : noneExtended c)
    (h : ¬((tuner c t).state = .locked ∧ (tuner c t).holders.hasOther = true)) : Calm (turnOff t c) (goOff stop t c) :=
  handLeft_calm (.refl (noneExtended_turnOff hn)) h

theorem tuner_turnOff_ne {t v : Fin 4} (c : Core) (h : t ≠ v) : tuner (turnOff t c) v = tuner c v := by
  rw [turnOff_eq, tuner_setTuner_ne _ _ h]
  rfl

theorem heldTuner_eq_none_iff {c : Core} {x : Claimant} : heldTuner c x = none ↔ ∀ t, (tuner c t).holders.has x = false := by
  have hall : ∀ t : Fin 4, t ∈ allTuners := by decide
  simp only [heldTuner, List.find?_eq_none, hall, forall_const, Bool.not_eq_true]

theorem release_none {x : Claimant} {c : Core} (h : heldTuner c x = none) : release x c = c := by
  rw [release, releaseWith, h]

theorem release_only {x : Claimant} {t : Fin 4} {c : Core} (h : heldTuner c x = some t)
    (ho : (tuner c t).holders.only x = true) : release x c = goOff stopSession t c := by
  rw [release, releaseWith, h]
  exact if_pos ho

theorem release_among {x : Claimant} {t : Fin 4} {c : Core} (h : heldTuner c x = some t)
    (ho : (tuner c t).holders.only x = false) : release x c = setHolder t x false c := by
  rw [release, releaseWith, h]
  exact if_neg (by simp [ho])

/-- Standby watch that gives up its claim leaves the state, carrier and count of every tuner that another claimant holds. -/
theorem watchEnds_tuner {t : Fin 4} {c : Core} (hn : noneExtended c) (ho : (tuner c t).holders.hasOther = true) :
    ∃ h, tuner (watchEnds c) t = { tuner c t with holders := h } := by
  show ∃ h, tuner (release .watch c) t = _
  cases hheld : heldTuner c .watch with
  | none => exact ⟨_, by rw [release_none hheld]⟩
  | some v =>
    cases honly : (tuner c v).holders.only .watch with
    | false =>
      rw [release_among hheld honly, setHolder]
      by_cases hv : v = t
      · subst hv
        exact ⟨_, tuner_setTuner v _ c⟩
      · exact ⟨_, tuner_setTuner_ne _ c hv⟩
    | true =>
      have hwatch : (tuner c v).holders.hasOther = false := by
        rw [Holders.only_watch_iff.mp honly]
        exact Holders.hasOther_onlyWatch
      have hv : v ≠ t := by
        rintro rfl
        rw [hwatch] at ho
        cases ho
      rw [release_only hheld honly, (goOff_calm hn (by simp [hwatch])).tuner t, tuner_turnOff_ne c hv]
      exact ⟨_, rfl⟩

theorem toldLocked_tuner {t : Fin 4} {c : Core} (hn : noneExtended c) : ∃ h, tuner (toldLocked t c) t = { tuner c t with holders := h } := by
  unfold toldLocked
  split
  · next ho => exact watchEnds_tuner hn ho
  · exact ⟨_, rfl⟩

/-! ## LOCK reports (R17, R18, R21) -/

theorem lockReport_acquiring {t : Fin 4} {n : BitVec 4} {c : Core} (hn : n = (tuner c t).count)
    (hs : (tuner c t).state = .acquiring) : lockReport t n c = acquired t c := by
  unfold lockReport
  rw [if_pos hn, hs]

theorem lockReport_lost {t : Fin 4} {n : BitVec 4} {c : Core} (hn : n = (tuner c t).count)
    (hs : (tuner c t).state = .lost) : lockReport t n c = regained t c := by
  unfold lockReport
  rw [if_pos hn, hs]

theorem lockReport_discarded {t : Fin 4} {n : BitVec 4} {c : Core}
    (h : n ≠ (tuner c t).count ∨ (tuner c t).state = .off ∨ (tuner c t).state = .locked) : lockReport t n c = c := by
  unfold lockReport
  dsimp only
  split
  · next hn =>
    obtain hoff | hlocked := h.resolve_left (not_not.mpr hn)
    · rw [hoff]
    · rw [hlocked]
  · rfl

/-- A session in TUNING on the tuner goes to OPENING at its LOCK, and is checked at once when its lane-map entry is there. -/
theorem sessionLocked_eq (t : Fin 4) :
    sessionLocked t = fun c o =>
      let x := session c o
      if x.state = .tuning ∧ x.tuner = some t then tryChecking o x (setSession o x.toOpening c) else c := by
  funext c o
  simp only [sessionLocked, Bool.and_eq_true, decide_eq_true_eq]

/-- The sweep is told LOCKED where it holds the tuner, and waits for it. -/
theorem sweepLocked_eq (held : Bool) (t : Fin 4) (c : Core) :
    (if held = true then sweepLocked t c else c) =
      if held = true ∧ c.guide.sweep.state = .tuning then
        openFilter ⟨t, 16, .schedule⟩ { c with guide := { c.guide with sweep := { c.guide.sweep with state := .collecting } } }
      else c := by
  rw [ite_and]
  rfl

theorem acquired_calm {t : Fin 4} {c : Core} (hn : noneExtended c) :
    ∃ c', acquired t c = toldLocked t c' ∧
      Calm (setTuner t { tuner c t with state := .locked, acq := (tuner c t).acq.stop } c) c' := by
  refine ⟨_, rfl, settleControl_calm (openFilter_calm (openFilter_calm ?_))⟩
  have hlocked := foldl_calm (l := allOutputs) (Calm.refl (noneExtended_setTuner (t := t)
    (u := { tuner c t with state := .locked, acq := (tuner c t).acq.stop }) hn)) fun c o hc => sessionLocked_calm (t := t) (o := o) hc
  exact ite_calm (sweepLocked_calm hlocked) hlocked

theorem regained_calm {t : Fin 4} {c : Core} (hn : noneExtended c) :
    ∃ c', regained t c = toldLocked t c' ∧
      Calm (setTuner t { tuner c t with state := .locked, loss := (tuner c t).loss.stop } c) c' :=
  ⟨_, rfl, settleControl_calm (foldl_calm (Calm.refl (noneExtended_setTuner (t := t)
    (u := { tuner c t with state := .locked, loss := (tuner c t).loss.stop }) hn)) fun _ _ hc => signalRegained_calm hc)⟩

theorem lockReport_tuner {t : Fin 4} {n : BitVec 4} {c : Core} (hn : n = (tuner c t).count)
    (hs : (tuner c t).state = .acquiring ∨ (tuner c t).state = .lost) (hx : noneExtended c) :
    (tuner (lockReport t n c) t).state = .locked ∧ (tuner (lockReport t n c) t).carrier = (tuner c t).carrier ∧
      (tuner (lockReport t n c) t).count = (tuner c t).count := by
  obtain hs | hs := hs
  · obtain ⟨c', hc', hcalm⟩ := acquired_calm (t := t) hx
    obtain ⟨h, hh⟩ := toldLocked_tuner (t := t) hcalm.none
    rw [lockReport_acquiring hn hs, hc', hh, hcalm.tuner t, tuner_setTuner]
    exact ⟨rfl, rfl, rfl⟩
  · obtain ⟨c', hc', hcalm⟩ := regained_calm (t := t) hx
    obtain ⟨h, hh⟩ := toldLocked_tuner (t := t) hcalm.none
    rw [lockReport_lost hn hs, hc', hh, hcalm.tuner t, tuner_setTuner]
    exact ⟨rfl, rfl, rfl⟩

theorem heldBy_setTuner (t : Fin 4) (u : Tuner) (c : Core) :
    heldBy (setTuner t u c) t = allOutputs.filter fun o => u.holders.has (.out o) := by
  simp only [heldBy, tuner_setTuner]

theorem exec_lockReport (t : Fin 4) (n : BitVec 4) (s : State) :
    exec (.lockReport t n) s = .next (onCore (lockReport t n) s) := rfl

/-- Settles O20: a DARK session by its return state, and a LOCK report by the tuner's state; what follows the transition leaves the
tuners alone but for the claim that standby watch gives up. -/
theorem lockReportLocks : Obligations.LockReportLocks := by
  unfold Obligations.LockReportLocks
  refine ⟨fun o c => ⟨signalRegained_notDark, fun hd hr he => ?noEntry, fun e hd hr he => ?opening, fun e hd hr he => ?checking,
      fun hd hr => ⟨fun hempty hkey => ?presents, fun hheld => ?holds⟩⟩,
    ?reports⟩
  case noEntry =>
    have hto : signalRegained o c = tryChecking o (session c o) (setSession o (session c o).toOpening c) := by
      obtain hr | hr := hr
      · exact signalRegained_opening hd hr
      · exact signalRegained_checking_noEntry hd hr he
    rw [hto, tryChecking_toOpening_noEntry he (by simp [hd])]
    rfl
  case opening =>
    rw [signalRegained_opening hd hr, tryChecking_toOpening_entry he]
    rfl
  case checking => exact signalRegained_checking_entry hd hr he
  case presents => exact signalRegained_presents hd hr hempty (keyReady_iff.mpr hkey)
  case holds => exact signalRegained_holds hd hr (by rwa [keyReady_iff])
  case reports =>
    intro t n s u outputs filters waiting sweep watch
    refine ⟨fun hn hs => ?acquiring, fun hn hs => ?lost, fun hn hs hx => ?stands, fun h => ?discarded⟩
    case acquiring =>
      have hwaiting : sessionLocked t = waiting := sessionLocked_eq t
      have hsweep : ∀ c, (if u.holders.sweep = true then sweepLocked t c else c) = sweep c := sweepLocked_eq u.holders.sweep t
      have houtputs : allOutputs = outputs := rfl
      have hwatch : toldLocked t = watch := rfl
      rw [exec_lockReport, onCore_eq (lockReport_acquiring hn hs), acquired, hwaiting, hsweep, houtputs, hwatch]
      clear_value watch sweep waiting outputs
      rfl
    case lost =>
      rw [exec_lockReport, onCore_eq (lockReport_lost hn hs)]
      unfold regained
      dsimp only
      rw [heldBy_setTuner]
      rfl
    case stands => exact ⟨_, rfl, lockReport_tuners (.refl _), lockReport_tuner hn hs hx⟩
    case discarded => rw [exec_lockReport, onCore_eq (lockReport_discarded h)]

end Sys2Proof.Machine
end

section
/-! What a LOSS report, the acquisition limit and standby watch do to the tuners and the sessions (R4, R18 to R21, R25, R53, R59, R209). -/

namespace Sys2Proof.Machine

open Sys2Proof

/-! ## Blocks that stand -/

theorem openFilter_frame (f : Filter) (c : Core) : ∃ v, openFilter f c = { c with slots := v } := by
  unfold openFilter
  split
  · exact ⟨c.slots, rfl⟩
  · split
    · exact ⟨_, rfl⟩
    · exact ⟨c.slots, rfl⟩

theorem settleControl_frame (c : Core) : ∃ v, settleControl c = { c with slots := v } := by
  unfold settleControl
  split
  · exact ⟨c.slots, rfl⟩
  · dsimp only
    split
    · exact ⟨_, closeWhere_frame isControl c⟩
    · next t _ =>
      obtain ⟨v1, h1⟩ := openFilter_frame ⟨t, 1, .directory⟩ (closeWhere isControl c)
      obtain ⟨v2, h2⟩ := openFilter_frame ⟨t, 2, .time⟩ (openFilter ⟨t, 1, .directory⟩ (closeWhere isControl c))
      obtain ⟨v3, h3⟩ :=
        openFilter_frame ⟨t, 3, .grants⟩ (openFilter ⟨t, 2, .time⟩ (openFilter ⟨t, 1, .directory⟩ (closeWhere isControl c)))
      exact ⟨v3, by rw [h3, h2, h1, closeWhere_frame]⟩

theorem foldl_slots_frame {f : Core → Fin 16 → Core} (hf : ∀ c i, ∃ v, f c i = { c with slots := v }) :
    ∀ (l : List (Fin 16)) (c : Core), ∃ v, l.foldl f c = { c with slots := v }
  | [], c => ⟨c.slots, rfl⟩
  | i :: l, c => by
    obtain ⟨v, hv⟩ := hf c i
    obtain ⟨w, hw⟩ := foldl_slots_frame hf l { c with slots := v }
    exact ⟨w, by rw [List.foldl_cons, hv, hw]⟩

theorem discardAssembly_frame (t : Fin 4) (c : Core) : ∃ v, discardAssembly t c = { c with slots := v } :=
  foldl_slots_frame (fun c i => by
    split
    · exact ⟨_, rfl⟩
    · exact ⟨c.slots, rfl⟩) allSlots c

theorem commitBooking_rooms (id : Nat) (c : Core) : (commitBooking id c).rooms = c.rooms := by
  unfold commitBooking
  split
  · next c' h => exact (offer_only h).rooms
  · next c' h => exact (offer_only h).rooms
  · next a c' _ _ h => exact (offer_only h).rooms

theorem missBooking_rooms (b : Booking) (cause : MissedCause) (c : Core) : (missBooking b cause c).rooms = c.rooms :=
  commitBooking_rooms _ _

theorem bookingOutcome_rooms (id : Nat) (outcome : ChangeOutcome) (c : Core) : (bookingOutcome id outcome c).rooms = c.rooms := by
  unfold bookingOutcome
  split
  · rfl
  · split
    · split
      · exact missBooking_rooms _ _ c
      · exact missBooking_rooms _ _ c
      · exact missBooking_rooms _ _ c
      · exact missBooking_rooms _ _ c
      · rfl
      · rfl
      · rfl
    · rfl

theorem endChange_rooms (o : Output) (x : Session) (outcome : ChangeOutcome) (rs : Option Reasons) (c : Core) :
    (endChange o x outcome rs c).rooms = c.rooms := by
  rw [endChange_eq]
  split
  · rfl
  · exact bookingOutcome_rooms _ _ _

theorem purchaseOffer_rooms (o : Output) (c : Core) : (purchaseOffer o c).rooms = c.rooms := by
  unfold purchaseOffer
  dsimp only
  split
  · split
    · split
      · split <;> rfl
      · rfl
    · rfl
  · rfl

theorem session_of_rooms {c c' : Core} (h : c'.rooms = c.rooms) (o : Output) : session c' o = session c o := by
  unfold session
  rw [h]

/-- A verdict moves its own session and no other. -/
theorem session_arrive (o : Output) (old x : Session) (entering : Bool) (c : Core) :
    (arrive o old x entering c).rooms = (setSession o { x with change := .absent } c).rooms := by
  unfold arrive
  dsimp only
  have hreported : ∀ b : Bool,
      (if b = true then
        match x.state with
        | .held => endChange o x .held (some x.reasons) (setSession o { x with change := .absent } c)
        | _ => endChange o x .presenting none (setSession o { x with change := .absent } c)
      else if x.state ≠ old.state ∨ x.reasons ≠ old.reasons then postSession o (setSession o { x with change := .absent } c)
      else setSession o { x with change := .absent } c).rooms = (setSession o { x with change := .absent } c).rooms := by
    intro b
    split
    · split <;> exact endChange_rooms _ _ _ _ _
    · split <;> rfl
  split
  · exact (purchaseOffer_rooms _ _).trans (hreported _)
  · exact hreported _

theorem session_arrive_ne {o p : Output} (old x : Session) (entering : Bool) (c : Core) (h : o ≠ p) :
    session (arrive o old x entering c) p = session c p :=
  (session_of_rooms (session_arrive o old x entering c) p).trans (session_setSession_ne _ c h)

/-! ## A DARK session (R53, R56, R59) -/

/-- The session of `o` is the DARK session `x` but for its event id and its recorded reasons. -/
def DarkAs (o : Output) (x : Session) (c : Core) : Prop :=
  x.state = .dark ∧ ∃ ev r, session c o = { x with event := ev, reasons := r }

theorem DarkAs.of_session {o : Output} {c : Core} (h : (session c o).state = .dark) : DarkAs o (session c o) c :=
  ⟨h, (session c o).event, (session c o).reasons, rfl⟩

theorem DarkAs.of_rooms {o : Output} {x : Session} {c c' : Core} (h : DarkAs o x c) (hr : c'.rooms = c.rooms) : DarkAs o x c' := by
  obtain ⟨hd, ev, r, hs⟩ := h
  exact ⟨hd, ev, r, (session_of_rooms hr o).trans hs⟩

theorem DarkAs.of_session_eq {o : Output} {x : Session} {c c' : Core} (h : DarkAs o x c) (hs : session c' o = session c o) :
    DarkAs o x c' := by
  obtain ⟨hd, ev, r, hx⟩ := h
  exact ⟨hd, ev, r, hs.trans hx⟩

theorem DarkAs.state {o : Output} {x : Session} {c : Core} (h : DarkAs o x c) : (session c o).state = .dark := by
  obtain ⟨hd, ev, r, hs⟩ := h
  rw [hs]
  exact hd

theorem DarkAs.setVerdict {o : Output} {x : Session} {c : Core} (h : DarkAs o x c) (ev : Option Nat) (r : Reasons) :
    DarkAs o x (setSession o { session c o with event := ev, reasons := r } c) := by
  obtain ⟨hd, ev', r', hs⟩ := h
  exact ⟨hd, ev, r, by rw [session_setSession, hs]⟩

theorem reevalOne_dark {o : Output} {c : Core} (h : (session c o).state = .dark) :
    reevalOne c o = setSession o { session c o with reasons := verdictSet c o } c := by
  have he : (session c o).evaluated = true := by simp [Session.evaluated, h]
  unfold reevalOne
  dsimp only
  rw [if_pos he]
  simp only [h]

theorem reevalOne_session_ne {o p : Output} (c : Core) (h : p ≠ o) : session (reevalOne c p) o = session c o := by
  unfold reevalOne
  dsimp only
  split
  · split
    · split
      · exact session_arrive_ne _ _ _ c h
      · split
        · exact session_arrive_ne _ _ _ c h
        · rfl
    · split
      · rfl
      · exact session_arrive_ne _ _ _ c h
    · split
      · exact session_arrive_ne _ _ _ c h
      · split
        · rfl
        · exact session_arrive_ne _ _ _ c h
    · exact session_setSession_ne _ c h
    · rfl
  · rfl

theorem DarkAs.reevalOne {o p : Output} {x : Session} {c : Core} (h : DarkAs o x c) : DarkAs o x (reevalOne c p) := by
  by_cases hp : p = o
  · subst hp
    rw [reevalOne_dark h.state]
    exact h.setVerdict (session c p).event _
  · exact h.of_session_eq (reevalOne_session_ne c hp)

theorem DarkAs.foldl {α : Type} {o : Output} {x : Session} {f : Core → α → Core} (hf : ∀ c a, DarkAs o x c → DarkAs o x (f c a)) :
    ∀ (l : List α) (c : Core), DarkAs o x c → DarkAs o x (l.foldl f c)
  | [], _, h => h
  | a :: l, c, h => DarkAs.foldl hf l (f c a) (hf c a h)

theorem DarkAs.reevaluate {o : Output} {x : Session} {c : Core} (h : DarkAs o x c) : DarkAs o x (reevaluate c) :=
  DarkAs.foldl (fun _ _ h => h.reevalOne) allOutputs c h

theorem endEventGrant_session (o p : Output) (c : Core) : session (endEventGrant o c) p = session c p := by
  unfold endEventGrant
  split
  · rfl
  · dsimp only
    split
    · split <;> rfl
    · rfl

theorem DarkAs.testSession {o p : Output} {x : Session} {c : Core} (h : DarkAs o x c) : DarkAs o x (testSession c p) := by
  unfold Machine.testSession
  dsimp only
  split
  · next lcn _ _ =>
    split
    · exact h
    · have hposted : ∀ b, DarkAs o x (setSession p { session (post b c) p with event := (presentEvent c lcn).map (·.event) } (post b c)) := by
        intro b
        by_cases hp : p = o
        · subst hp
          exact (h.of_rooms (c' := post b c) rfl).setVerdict _ (session (post b c) p).reasons
        · exact (h.of_rooms (c' := post b c) rfl).of_session_eq (session_setSession_ne _ _ hp)
      have hended := DarkAs.reevaluate ((hposted (.eventChanged p lcn (session c p).event ((presentEvent c lcn).map (·.event))
        (((presentEvent c lcn).map (·.byMarker)).getD false))).of_session_eq (endEventGrant_session p o _))
      split
      · exact hended.of_rooms (purchaseOffer_rooms _ _)
      · exact hended
  · exact h

theorem DarkAs.testPresent {o : Output} {x : Session} {c : Core} (h : DarkAs o x c) : DarkAs o x (testPresent c) :=
  DarkAs.foldl (fun _ _ h => h.testSession) allOutputs c h

/-- With no recording that runs on, a marker change is told to no booking (R118). -/
theorem markerChanged_noneExtended {stop : Output → Core → Core} {lcn : Nat} {c : Core} (hn : noneExtended c) :
    markerChanged stop lcn c = c := by
  have hnone : (c.clock.bookings.filter fun b => b.lcn == lcn && b.state == .active && b.extended) = [] := by
    rw [List.filter_eq_nil_iff]
    intro b hb
    simp [hn b hb]
  rw [markerChanged, hnone]
  rfl

theorem foldl_markerChanged_noneExtended {stop : Output → Core → Core} {c : Core} (hn : noneExtended c) :
    ∀ l : List Nat, l.foldl (fun c l => markerChanged stop l c) c = c
  | [] => rfl
  | lcn :: l => by rw [List.foldl_cons, markerChanged_noneExtended hn, foldl_markerChanged_noneExtended hn l]

/-- With no recording that runs on, the removal of markers changes nothing else. -/
theorem removeMarkers_noneExtended {stop : Output → Core → Core} {p : Marker → Bool} {c : Core} (hn : noneExtended c) :
    removeMarkers stop p c = { c with guide := { c.guide with markers := c.guide.markers.filter fun m => !p m } } := by
  unfold removeMarkers
  exact foldl_markerChanged_noneExtended
    (c := { c with guide := { c.guide with markers := c.guide.markers.filter fun m => !p m } }) hn _

theorem DarkAs.carrierUnlocked {stop : Output → Core → Core} {o : Output} {x : Session} {y : Option Carrier} {c : Core}
    (h : DarkAs o x c) (hn : noneExtended c) : DarkAs o x (carrierUnlocked stop y c) := by
  unfold Machine.carrierUnlocked
  split
  · exact h
  · rw [removeMarkers_noneExtended hn]
    exact DarkAs.testPresent (h.of_rooms rfl)

/-! ## Loss of signal (R53) -/

/-- The states that SIGNAL_LOST makes DARK. -/
def SessionState.plays (s : SessionState) : Prop := s = .opening ∨ s = .checking ∨ s = .presenting ∨ s = .held

/-- The session as SIGNAL_LOST leaves it. -/
def Session.darkened (x : Session) : Session :=
  { x with state := .dark, ret := some x.state, laneWait := { x.laneWait with running := false }
           keyWait := { x.keyWait with running := false } }

theorem signalLost_plays {o : Output} {c : Core} (h : (session c o).state.plays) :
    signalLost o c =
      if (session c o).change = .absent then
        post (.sessionState o .dark (session c o).reasons (session c o).lcn (session c o).event)
          (setSession o (session c o).darkened c)
      else setSession o (session c o).darkened c := by
  have hdark : signalLost o c =
      if (session c o).change.inFlight then setSession o (session c o).darkened c
      else postSession o (setSession o (session c o).darkened c) := by
    unfold signalLost
    obtain h | h | h | h := h
    · simp only [h]; rw [← h]; rfl
    · simp only [h]; rw [← h]; rfl
    · simp only [h]; rw [← h]; rfl
    · simp only [h]; rw [← h]; rfl
  rw [hdark, postSession, session_setSession]
  by_cases hc : (session c o).change = .absent
  · simp [ChangeTag.inFlight, hc, Session.darkened]
  · simp [ChangeTag.inFlight, hc]

theorem signalLost_untouched {o : Output} {c : Core} (h : ¬(session c o).state.plays) : signalLost o c = c := by
  unfold SessionState.plays at h
  unfold signalLost
  dsimp only
  split
  · next hs => exact absurd (.inl hs) h
  · next hs => exact absurd (.inr (.inl hs)) h
  · next hs => exact absurd (.inr (.inr (.inl hs))) h
  · next hs => exact absurd (.inr (.inr (.inr hs))) h
  · rfl

theorem signalLost_session_ne {o p : Output} (c : Core) (h : p ≠ o) : session (signalLost p c) o = session c o := by
  by_cases hp : (session c p).state.plays
  · rw [signalLost_plays hp]
    split
    · exact session_setSession_ne _ c h
    · exact session_setSession_ne _ c h
  · rw [signalLost_untouched hp]

theorem signalLost_session_same {o : Output} {c : Core} (h : (session c o).state.plays) :
    session (signalLost o c) o = (session c o).darkened := by
  rw [signalLost_plays h]
  split
  · exact session_setSession o _ c
  · exact session_setSession o _ c

theorem signalLost_session_dark {o p : Output} {c : Core} (h : (session c o).state = .dark) :
    session (signalLost p c) o = session c o := by
  by_cases hp : p = o
  · subst hp
    rw [signalLost_untouched (by simp [SessionState.plays, h])]
  · exact signalLost_session_ne c hp

theorem foldl_signalLost_session_dark {o : Output} (l : List Output) (c : Core) (h : (session c o).state = .dark) :
    session (l.foldl (fun c o => signalLost o c) c) o = session c o := by
  induction l generalizing c with
  | nil => rfl
  | cons p l ih =>
    have hp := signalLost_session_dark (p := p) h
    rw [List.foldl_cons, ih _ (by rw [hp, h]), hp]

/-- An output among those told goes DARK; the others that are told leave it as it is. -/
theorem foldl_signalLost_session {o : Output} (l : List Output) (c : Core) (hmem : o ∈ l) (hs : (session c o).state.plays) :
    session (l.foldl (fun c o => signalLost o c) c) o = (session c o).darkened := by
  induction l generalizing c with
  | nil => cases hmem
  | cons p l ih =>
    rw [List.foldl_cons]
    by_cases hp : p = o
    · subst hp
      have hd : session (signalLost p c) p = (session c p).darkened := signalLost_session_same hs
      rw [foldl_signalLost_session_dark l _ (by rw [hd]; rfl), hd]
    · have hsame := signalLost_session_ne (o := o) c hp
      rw [ih _ ((List.mem_cons.mp hmem).resolve_left fun e => hp e.symm) (by rw [hsame]; exact hs), hsame]

/-! ## Standby watch (R4, R209) -/

theorem noOtherLocked_iff {c : Core} :
    noOtherLocked c = true ↔ ∀ t, (tuner c t).state = .locked → (tuner c t).holders.put .watch false = .none := by
  have hall : ∀ t : Fin 4, t ∈ allTuners := by decide
  simp only [noOtherLocked, List.all_eq_true, hall, forall_const, Bool.not_eq_true', Bool.and_eq_false_iff, beq_eq_false_iff_ne,
    Holders.hasOther, bne_eq_false_iff_eq, imp_iff_not_or]

theorem standbyCondition_iff {c : Core} : standbyCondition c = true ↔ c.clock.power = .standby ∧ noOtherLocked c = true := by
  simp [standbyCondition]

/-- Standby watch joins the tuner on the carrier, takes an OFF one, retunes its own, or is refused: it preempts none (R24). -/
theorem planClaim_watch_join {c : Core} {x : Carrier} {t : Fin 4} (ht : tunerOn c x = some t)
    (hn : (tuner c t).holders.has .watch = false) (m : ClaimMode) : planClaim c .watch x m = .join t := by
  rw [planClaim, ht]
  exact if_neg (by simp [hn])

theorem planClaim_take {c : Core} {y : Claimant} {x : Carrier} {m : ClaimMode} {t : Fin 4} (ht : tunerOn c x = none)
    (hoff : (tuner c t).state = .off) (hl : ∀ v, v < t → (tuner c v).state ≠ .off) : planClaim c y x m = .take t := by
  rw [planClaim, ht, firstTuner_off hoff hl]

theorem Holders.only_false_of_has {h : Holders} {x : Claimant} (hn : h.has x = false) : h.only x = false := by
  rw [Holders.only, beq_eq_false_iff_ne]
  rintro rfl
  cases x with
  | out o => cases o <;> cases hn
  | sweep => cases hn
  | watch => cases hn

theorem planClaim_watch_refused {c : Core} {x : Carrier} {m : ClaimMode} (ht : tunerOn c x = none)
    (hoff : ∀ v, (tuner c v).state ≠ .off) (hheld : heldTuner c .watch = none) : planClaim c .watch x m = .refused := by
  have hnone : firstTuner c (·.state == .off) = none := firstTuner_none fun v => by simp [hoff v]
  have honly : firstTuner c (fun u => u.holders.only .watch) = none :=
    firstTuner_none fun v => Holders.only_false_of_has (heldTuner_eq_none_iff.mp hheld v)
  rw [planClaim, ht, hnone]
  simp only [honly]
  rfl

/-- Standby watch is to claim: one of its conditions holds, and it holds no tuner. -/
def WatchDue (c : Core) : Prop := (installation c = true ∨ standbyCondition c = true) ∧ heldTuner c .watch = none

theorem watchTest_noHome {c : Core} (h : c.dir.home = none) : watchTest c = c := by
  rw [watchTest, h]

theorem watchTest_notDue {c : Core} (h : ¬WatchDue c) : watchTest c = c := by
  unfold watchTest
  split
  · rfl
  · refine if_neg ?_
    rw [Bool.and_eq_true, Bool.or_eq_true, Option.isNone_iff_eq_none]
    exact h

theorem watchTest_due {c : Core} {x : Carrier} (h : WatchDue c) (hx : c.dir.home = some x) :
    watchTest c =
      match planClaim c .watch x .host with
      | .join t => setHolder t .watch true c
      | .take t => tune t x (Holders.none.put .watch true) c
      | _ => startHold c := by
  unfold watchTest
  rw [hx]
  refine if_pos ?_
  rw [Bool.and_eq_true, Bool.or_eq_true, Option.isNone_iff_eq_none]
  exact h

theorem startHold_standby {c : Core} (h : standbyCondition c = true) :
    startHold c = { c with clock := { c.clock with hold := ⟨30000, 30000, true⟩ } } := if_pos h

theorem startHold_notStandby {c : Core} (h : ¬standbyCondition c = true) : startHold c = c := if_neg h

/-- The test of standby watch changes no tuner that is not OFF but in its holders. -/
theorem watchTest_tuner {t : Fin 4} {c : Core} (h : (tuner c t).state ≠ .off) :
    ∃ hs, tuner (watchTest c) t = { tuner c t with holders := hs } := by
  by_cases hdue : WatchDue c
  · cases hx : c.dir.home with
    | none => exact ⟨_, by rw [watchTest_noHome hx]⟩
    | some x =>
      rw [watchTest_due hdue hx]
      split
      · next v _ =>
        rw [setHolder]
        by_cases hv : v = t
        · subst hv
          exact ⟨_, tuner_setTuner v _ c⟩
        · exact ⟨_, tuner_setTuner_ne _ c hv⟩
      · next v hplan =>
        have hoff : (tuner c v).state = .off := by
          unfold planClaim at hplan
          split at hplan
          · split at hplan <;> cases hplan
          · split at hplan
            · next w hw =>
              cases hplan
              simpa [firstTuner] using List.find?_some hw
            · split at hplan
              · cases hplan
              · split at hplan <;> cases hplan
        have hv : v ≠ t := by
          rintro rfl
          exact h hoff
        rw [tune_eq, tuner_setTuner_ne _ _ hv]
        exact ⟨_, rfl⟩
      · unfold startHold
        split
        · exact ⟨_, rfl⟩
        · exact ⟨_, rfl⟩
  · exact ⟨_, by rw [watchTest_notDue hdue]⟩

/-! ## LOSS reports (R18, R20, R21) -/

theorem exec_lossReport (t : Fin 4) (n : BitVec 4) (s : State) :
    exec (.lossReport t n) s = .next (onCore (lossReport t n) s) := rfl

theorem lossReport_locked {t : Fin 4} {n : BitVec 4} {c : Core} (hn : n = (tuner c t).count)
    (hs : (tuner c t).state = .locked) : lossReport t n c = lost t c := if_pos (by simp [hn, hs])

theorem lossReport_discarded {t : Fin 4} {n : BitVec 4} {c : Core} (h : n ≠ (tuner c t).count ∨ (tuner c t).state ≠ .locked) :
    lossReport t n c = c := if_neg (by simpa [imp_iff_not_or] using h)

/-- The blocks when the holders of a tuner have been told SIGNAL_LOST. -/
def lossTold (t : Fin 4) (c : Core) : Core :=
  (allOutputs.filter fun o => (tuner c t).holders.has (.out o)).foldl (fun c o => signalLost o c)
    (setTuner t { tuner c t with state := .lost, loss := ⟨5000, 5000, true⟩ } c)

/-- The blocks when the tuner's loss has been handed on, before standby watch is tested. -/
def lossHanded (t : Fin 4) (c : Core) : Core :=
  carrierUnlocked stopSession (tuner c t).carrier (discardAssembly t (settleControl (lossTold t c)))

theorem lost_eq (t : Fin 4) (c : Core) :
    lost t c = if (tuner c t).holders.hasOther = true then watchTest (lossHanded t c) else lossHanded t c := by
  unfold lost
  dsimp only
  rw [heldBy_setTuner]
  rfl

theorem lossTold_calm {t : Fin 4} {c : Core} (hn : noneExtended c) :
    Calm (setTuner t { tuner c t with state := .lost, loss := ⟨5000, 5000, true⟩ } c) (lossTold t c) :=
  foldl_calm (.refl (noneExtended_setTuner hn)) fun _ _ h => signalLost_calm h

theorem lossSettled_calm {t : Fin 4} {c : Core} (hn : noneExtended c) :
    Calm (setTuner t { tuner c t with state := .lost, loss := ⟨5000, 5000, true⟩ } c)
      (discardAssembly t (settleControl (lossTold t c))) :=
  discardAssembly_calm (settleControl_calm (lossTold_calm hn))

theorem lossHanded_calm {t : Fin 4} {c : Core} (hn : noneExtended c) :
    Calm (setTuner t { tuner c t with state := .lost, loss := ⟨5000, 5000, true⟩ } c) (lossHanded t c) :=
  carrierUnlocked_calm (lossSettled_calm hn)

theorem lost_tuner {t : Fin 4} {c : Core} (hn : noneExtended c) :
    ∃ hs, tuner (lost t c) t = { tuner c t with state := .lost, loss := ⟨5000, 5000, true⟩, holders := hs } := by
  have hhanded : tuner (lossHanded t c) t = { tuner c t with state := .lost, loss := ⟨5000, 5000, true⟩ } := by
    rw [(lossHanded_calm hn).tuner t, tuner_setTuner]
  rw [lost_eq]
  split
  · obtain ⟨hs, h⟩ := watchTest_tuner (t := t) (c := lossHanded t c) (by rw [hhanded]; simp)
    exact ⟨hs, by rw [h, hhanded]⟩
  · exact ⟨_, hhanded⟩

theorem watchTest_rooms (c : Core) : (watchTest c).rooms = c.rooms := by
  unfold watchTest
  split
  · rfl
  · split
    · split
      · rfl
      · rfl
      · unfold startHold; split <;> rfl
    · rfl

theorem lost_darkAs {t : Fin 4} {o : Output} {c : Core} (hn : noneExtended c) (ho : (tuner c t).holders.has (.out o) = true)
    (hs : (session c o).state.plays) : DarkAs o (session c o).darkened (lost t c) := by
  have hmem : o ∈ allOutputs.filter fun o => (tuner c t).holders.has (.out o) := by
    rw [List.mem_filter]
    exact ⟨by cases o <;> decide, ho⟩
  have htold : session (lossTold t c) o = (session c o).darkened := foldl_signalLost_session _ _ hmem hs
  have hdark : DarkAs o (session c o).darkened (lossTold t c) := by
    rw [← htold]
    exact .of_session (by rw [htold]; rfl)
  obtain ⟨v, hv⟩ := settleControl_frame (lossTold t c)
  obtain ⟨w, hw⟩ := discardAssembly_frame t (settleControl (lossTold t c))
  have hsettled : DarkAs o (session c o).darkened (discardAssembly t (settleControl (lossTold t c))) :=
    hdark.of_rooms (by rw [hw, hv])
  have hhanded : DarkAs o (session c o).darkened (lossHanded t c) := hsettled.carrierUnlocked (lossSettled_calm hn).none
  rw [lost_eq]
  split
  · exact hhanded.of_rooms (watchTest_rooms _)
  · exact hhanded

theorem exec_lossTimer (t : Fin 4) (s : State) : exec (.lossTimer t) s = .next (onCore (lossTimerExpired t) s) := rfl

theorem lossTimerExpired_running {t : Fin 4} {c : Core} (h : (tuner c t).loss.running = true) :
    lossTimerExpired t c =
      post (.signalLost t (tuner c t).number (tuner c t).carrier)
        (setTuner t { tuner c t with loss := (tuner c t).loss.expired } c) := if_pos h

theorem lossTimerExpired_stopped {t : Fin 4} {c : Core} (h : (tuner c t).loss.running = false) : lossTimerExpired t c = c :=
  if_neg (by simp [h])

/-- Settles O21: a session by its state, a LOSS report by the tuner's; a session made DARK stays so through the tests that follow. -/
theorem lossIsReported : Obligations.LossIsReported := by
  unfold Obligations.LossIsReported
  refine ⟨fun o c => ⟨signalLost_plays, signalLost_untouched⟩, ?reports,
    fun t s => ⟨fun h => ?running, fun h => ?stopped⟩⟩
  case reports =>
    intro t n s u outputs told left
    refine ⟨fun hn hs => ?handed, fun hn hs hx => ?stands, fun h => ?discarded⟩
    case handed =>
      have hleft : lossHanded t s.core = left := rfl
      rw [exec_lossReport, onCore_eq (lossReport_locked hn hs), lost_eq, hleft]
    case stands =>
      obtain ⟨hs', htuner⟩ := lost_tuner (t := t) hx
      refine ⟨lost t s.core, by rw [exec_lossReport, onCore_eq (lossReport_locked hn hs)], lost_tuners (.refl _),
        by rw [htuner], by rw [htuner], by rw [htuner], ?_⟩
      intro o x after ho hplays
      obtain ⟨-, ev, r, hafter⟩ := lost_darkAs hx ho hplays
      have hafter : after = { (session s.core o).darkened with event := ev, reasons := r } := hafter
      rw [hafter]
      exact ⟨rfl, rfl, rfl, rfl, rfl, rfl, rfl, rfl, rfl⟩
    case discarded => rw [exec_lossReport, onCore_eq (lossReport_discarded h)]
  case running => rw [exec_lossTimer, onCore_eq (lossTimerExpired_running h)]; rfl
  case stopped => rw [exec_lossTimer, onCore_eq (lossTimerExpired_stopped h)]

end Sys2Proof.Machine
end

section
/-! The acquisition limit and the claims of standby watch (R24, R25, R44, R116, R209). -/

namespace Sys2Proof.Machine

open Sys2Proof

/-! ## The acquisition limit (R25) -/

theorem exec_acquisitionLimit (t : Fin 4) (s : State) :
    exec (.acquisitionLimit t) s = .next (onCore (acquisitionFailed t) s) := rfl

/-- The blocks when the holders of a tuner have been told NO_SIGNAL. -/
def noSignalTold (t : Fin 4) (c : Core) : Core := (holdersOf (tuner c t).holders).foldl tellNoSignal (turnOff t c)

theorem acquisitionFailed_acquiring {t : Fin 4} {c : Core} (hr : (tuner c t).acq.running = true)
    (hs : (tuner c t).state = .acquiring) :
    acquisitionFailed t c = handLeft stopSession t (tuner c t) (noSignalTold t c) := if_pos (by simp [hr, hs])

theorem acquisitionFailed_otherwise {t : Fin 4} {c : Core} (h : (tuner c t).acq.running = false ∨ (tuner c t).state ≠ .acquiring) :
    acquisitionFailed t c = c := by
  refine if_neg ?_
  obtain h | h := h
  · simp [h]
  · simp [h]

/-- A sweep that holds no tuner is told without a change to the tuners (R116). -/
theorem tellNoSignal_calm {c0 c : Core} {x : Claimant} (hok : Calm c0 c) (hsweep : x = .sweep → heldTuner c0 .sweep = none) :
    Calm c0 (tellNoSignal c x) := by
  cases x with
  | out o => exact endChange_calm (setSession_calm (unbindKey_calm hok))
  | sweep =>
    obtain ⟨v, hended, -⟩ := endSweep_noTuner ((hok.heldTuner .sweep).trans (hsweep rfl))
    show Calm c0 (endSweep c)
    rw [hended]
    exact same_calm hok rfl rfl
  | watch => exact watchFailed_calm hok

theorem unbindKey_still {o p : Output} {x : Session} {c : Core} (hok : Still o x c) (hp : p ≠ o) : Still o x (unbindKey p c) := by
  unfold unbindKey
  split
  · exact hok
  · exact setSession_still (dropRef_still hok) hp

theorem tellNoSignal_out {o : Output} {c : Core} (hn : noneExtended c) : Still o .idle (tellNoSignal c (.out o)) := by
  have hidle : Still o .idle (setSession o .idle (unbindKey o c)) :=
    ⟨session_setSession o _ _, rfl, (setSession_calm (unbindKey_calm (.refl hn))).none⟩
  exact endChange_still hidle

theorem tellNoSignal_still {o : Output} {c : Core} (x : Claimant) (hok : Still o .idle c) : Still o .idle (tellNoSignal c x) := by
  cases x with
  | out p =>
    by_cases hp : p = o
    · subst hp
      exact tellNoSignal_out hok.none
    · exact endChange_still (setSession_still (unbindKey_still hok hp) hp)
  | sweep => exact endSweep_still hok
  | watch => exact watchFailed_still hok

/-- An output among the holders told goes to IDLE and stays there. -/
theorem foldl_tellNoSignal_still {o : Output} {c0 : Core} (l : List Claimant) (c : Core) (hok : Calm c0 c)
    (hsweep : .sweep ∈ l → heldTuner c0 .sweep = none) (ho : .out o ∈ l) : Still o .idle (l.foldl tellNoSignal c) := by
  induction l generalizing c with
  | nil => cases ho
  | cons x l ih =>
    rw [List.foldl_cons]
    by_cases hx : x = .out o
    · subst hx
      exact foldl_still (tellNoSignal_out hok.none) fun _ y h => tellNoSignal_still y h
    · exact ih _ (tellNoSignal_calm hok fun e => hsweep (e ▸ List.mem_cons_self)) (fun h => hsweep (List.mem_cons_of_mem _ h))
        ((List.mem_cons.mp ho).resolve_left fun e => hx e.symm)

theorem foldl_tellNoSignal_calm {c0 : Core} (l : List Claimant) (c : Core) (hok : Calm c0 c)
    (hsweep : .sweep ∈ l → heldTuner c0 .sweep = none) : Calm c0 (l.foldl tellNoSignal c) := by
  induction l generalizing c with
  | nil => exact hok
  | cons x l ih =>
    exact ih _ (tellNoSignal_calm hok fun e => hsweep (e ▸ List.mem_cons_self)) fun h => hsweep (List.mem_cons_of_mem _ h)

theorem mem_holdersOf {h : Holders} {x : Claimant} : x ∈ holdersOf h ↔ h.has x = true := by
  have hall : x ∈ allClaimants := by
    cases x with
    | out o => cases o <;> decide
    | sweep => decide
    | watch => decide
  simp [holdersOf, hall]

/-- The sweep holds one tuner at most, so it holds none once its own is OFF. -/
theorem heldTuner_sweep_turnOff {t : Fin 4} {c : Core}
    (h : ∀ v, v ≠ t → (tuner c v).holders.sweep = false) : heldTuner (turnOff t c) .sweep = none := by
  rw [heldTuner_eq_none_iff]
  intro v
  by_cases hv : v = t
  · subst hv
    rw [turnOff_eq, tuner_setTuner]
    rfl
  · rw [tuner_turnOff_ne c (Ne.symm hv)]
    exact h v hv

theorem noSignalTold_calm {t : Fin 4} {c : Core} (hn : noneExtended c)
    (h : (tuner c t).holders.sweep = true → ∀ v, v ≠ t → (tuner c v).holders.sweep = false) :
    Calm (turnOff t c) (noSignalTold t c) :=
  foldl_tellNoSignal_calm _ _ (.refl (noneExtended_turnOff hn)) fun hmem => heldTuner_sweep_turnOff (h (mem_holdersOf.mp hmem))

theorem noSignalTold_still {t : Fin 4} {o : Output} {c : Core} (hn : noneExtended c)
    (h : (tuner c t).holders.sweep = true → ∀ v, v ≠ t → (tuner c v).holders.sweep = false)
    (ho : (tuner c t).holders.has (.out o) = true) : Still o .idle (noSignalTold t c) :=
  foldl_tellNoSignal_still _ _ (.refl (noneExtended_turnOff hn))
    (fun hmem => heldTuner_sweep_turnOff (h (mem_holdersOf.mp hmem))) (mem_holdersOf.mpr ho)

/-- Settles O22: past the off command the holders told leave the tuners alone, and an output told stays IDLE. -/
theorem acquisitionFails : Obligations.AcquisitionFails := by
  unfold Obligations.AcquisitionFails
  intro t s u
  refine ⟨fun hr hs hn hsweep => ?failed, fun h => ?stands⟩
  case stands => rw [exec_acquisitionLimit, onCore_eq (acquisitionFailed_otherwise h)]
  case failed =>
    have hcalm : Calm (turnOff t s.core) (acquisitionFailed t s.core) := by
      rw [acquisitionFailed_acquiring hr hs]
      exact handLeft_calm (noSignalTold_calm hn hsweep) fun h => absurd (hs.symm.trans h.1) (by decide)
    refine ⟨acquisitionFailed t s.core, by rw [exec_acquisitionLimit, onCore_eq rfl], acquisitionFailed_tuners (.refl _), ?tuner,
      ?line, fun o ho => ?idle⟩
    case tuner => rw [hcalm.tuner t, turnOff_eq, tuner_setTuner]
    case line => rw [hcalm.arb, turnOff_eq]; rfl
    case idle =>
      rw [acquisitionFailed_acquiring hr hs]
      exact (handLeft_still (noSignalTold_still hn hsweep ho)).sess

/-! ## Standby watch (R24, R209) -/

theorem exec_standbyWatchHold (s : State) : exec .standbyWatchHold s = .next (onCore holdExpired s) := rfl

theorem installation_iff {c : Core} {x : Carrier} (h : c.dir.home = some x) :
    installation c = true ↔ c.dir.map = [] ∧ noOtherLocked c = true := by
  simp [installation, h]

/-- The hold of 30 s, started. -/
def heldOff (c : Core) : Core := { c with clock := { c.clock with hold := ⟨30000, 30000, true⟩ } }

theorem watchReclaim_unheld {c : Core} (h : heldTuner c .watch = none) : watchReclaim c = watchTest c := by
  rw [watchReclaim, h]

theorem watchReclaim_noHome {c : Core} {t : Fin 4} (h : heldTuner c .watch = some t) (hx : c.dir.home = none) :
    watchReclaim c = release .watch c := by
  rw [watchReclaim, h, hx]

theorem watchReclaim_planned {c : Core} {t : Fin 4} {x : Carrier} (h : heldTuner c .watch = some t) (hx : c.dir.home = some x)
    (hp : planClaim c .watch x .host ≠ .refused) : watchReclaim c = carryOut .watch x (planClaim c .watch x .host) c := by
  rw [watchReclaim, h, hx]
  dsimp only
  split
  · next hr => exact absurd hr hp
  · rfl

theorem watchReclaim_refused {c : Core} {t : Fin 4} {x : Carrier} (h : heldTuner c .watch = some t) (hx : c.dir.home = some x)
    (hp : planClaim c .watch x .host = .refused) : watchReclaim c = startHold c := by
  rw [watchReclaim, h, hx]
  dsimp only
  rw [hp]

theorem watchTest_joins {c : Core} {x : Carrier} {t : Fin 4} (hdue : WatchDue c) (hx : c.dir.home = some x)
    (ht : tunerOn c x = some t) : watchTest c = setHolder t .watch true c := by
  rw [watchTest_due hdue hx, planClaim_watch_join ht (heldTuner_eq_none_iff.mp hdue.2 t)]

theorem watchTest_takes {c : Core} {x : Carrier} {t : Fin 4} (hdue : WatchDue c) (hx : c.dir.home = some x)
    (ht : tunerOn c x = none) (hoff : (tuner c t).state = .off) (hl : ∀ v, v < t → (tuner c v).state ≠ .off) :
    watchTest c = tune t x (Holders.none.put .watch true) c := by
  rw [watchTest_due hdue hx, planClaim_take ht hoff hl]

theorem watchTest_refused {c : Core} {x : Carrier} (hdue : WatchDue c) (hx : c.dir.home = some x)
    (ht : tunerOn c x = none) (hoff : ∀ v, (tuner c v).state ≠ .off) : watchTest c = startHold c := by
  rw [watchTest_due hdue hx, planClaim_watch_refused ht hoff hdue.2]

theorem watchEnds_unheld {c : Core} (h : heldTuner c .watch = none) : watchEnds c = stopHold c := by
  rw [watchEnds, release_none h]

theorem watchEnds_among {c : Core} {t : Fin 4} (h : heldTuner c .watch = some t)
    (ho : (tuner c t).holders ≠ Holders.none.put .watch true) : watchEnds c = stopHold (setHolder t .watch false c) := by
  rw [watchEnds, release_among h (by rw [← Bool.not_eq_true, Holders.only_watch_iff]; exact ho)]

theorem watchEnds_alone_calm {c : Core} {t : Fin 4} (h : heldTuner c .watch = some t)
    (ho : (tuner c t).holders = Holders.none.put .watch true) (hn : noneExtended c) : Calm (turnOff t c) (watchEnds c) := by
  rw [watchEnds, release_only h (Holders.only_watch_iff.mpr ho)]
  refine stopHold_calm (goOff_calm hn ?_)
  rw [ho, Holders.hasOther_onlyWatch]
  simp

/-- The blocks when the hold of standby watch has run out. -/
def holdOver (c : Core) : Core := { c with clock := { c.clock with hold := c.clock.hold.expired } }

theorem holdExpired_stopped {c : Core} (h : c.clock.hold.running = false) : holdExpired c = c := if_neg (by simp [h])

theorem holdExpired_asked {c : Core} (hr : c.clock.hold.running = true) (hs : standbyCondition c = true)
    (hw : heldTuner c .watch = none) : holdExpired c = watchTest (holdOver c) := by
  have hasked : (standbyCondition (holdOver c) && (heldTuner (holdOver c) .watch).isNone) = true := by
    rw [Bool.and_eq_true, Option.isNone_iff_eq_none]
    exact ⟨hs, hw⟩
  unfold holdExpired
  rw [if_pos hr]
  exact if_pos hasked

theorem holdExpired_unasked {c : Core} (hr : c.clock.hold.running = true)
    (h : standbyCondition c = false ∨ (heldTuner c .watch).isSome = true) : holdExpired c = holdOver c := by
  have hunasked : ¬(standbyCondition (holdOver c) && (heldTuner (holdOver c) .watch).isNone) = true := by
    rw [Bool.and_eq_true, Option.isNone_iff_eq_none]
    rintro ⟨hs, hw⟩
    obtain h | h := h
    · exact Bool.false_ne_true (h.symm.trans hs)
    · rw [show heldTuner c .watch = none from hw] at h
      cases h
  unfold holdExpired
  rw [if_pos hr]
  exact if_neg hunasked

/-- Settles O23, by the plan of standby watch's claim. -/
theorem standbyWatchClaims : Obligations.StandbyWatchClaims := by
  unfold Obligations.StandbyWatchClaims
  refine ⟨fun c => ?tests, fun c => ?ends, fun s => ?expires⟩
  case tests =>
    intro free standby due after hold
    have hstandby : standbyCondition c = true ↔ standby := by rw [standbyCondition_iff, noOtherLocked_iff]
    have hdue : ∀ x, c.dir.home = some x → (WatchDue c ↔ due) := fun x hx => by
      rw [WatchDue, installation_iff hx, hstandby, noOtherLocked_iff]
    refine ⟨fun h => ?idle, fun x hd hx => ⟨fun t ht => ?joins, fun t ht hoff hl => ?takes, fun ht hoff => ?refused⟩,
      watchReclaim_unheld, fun t ht hx => watchReclaim_noHome ht hx, fun t x ht hx => ?reclaims⟩
    case idle =>
      cases hx : c.dir.home with
      | none => exact watchTest_noHome hx
      | some x =>
        refine watchTest_notDue fun hd => ?_
        obtain h | h := h
        · exact h ((hdue x hx).mp hd)
        · rw [hx] at h
          cases h
    case joins => exact watchTest_joins ((hdue x hx).mpr hd) hx ht
    case takes => exact (watchTest_takes ((hdue x hx).mpr hd) hx ht hoff hl).trans (tune_eq _ _ _ _)
    case refused =>
      have hafter : after = startHold c := watchTest_refused ((hdue x hx).mpr hd) hx ht hoff
      rw [hafter]
      exact ⟨fun h => startHold_standby (hstandby.mpr h), fun h => startHold_notStandby fun hs => h (hstandby.mp hs)⟩
    case reclaims =>
      refine ⟨watchReclaim_planned ht hx, fun hp => ?_⟩
      rw [watchReclaim_refused ht hx hp]
      exact ⟨fun h => startHold_standby (hstandby.mpr h), fun h => startHold_notStandby fun hs => h (hstandby.mp hs)⟩
  case ends =>
    intro after halted
    refine ⟨watchEnds_unheld, fun t ht => ⟨watchEnds_among ht, fun ho hn => ?_⟩⟩
    have hcalm : Calm (turnOff t c) after := watchEnds_alone_calm ht ho hn
    refine ⟨watchEnds_tuners (.refl _), rfl, ?line, ?tuner, fun v hv => ?others⟩
    case line => rw [hcalm.arb, turnOff_eq]; rfl
    case tuner => rw [hcalm.tuner t, turnOff_eq, tuner_setTuner]
    case others => rw [hcalm.tuner v, tuner_turnOff_ne c (Ne.symm hv)]
  case expires =>
    intro c0 c1 asked
    have hdue : asked → WatchDue (holdOver c0) := fun ⟨_, hs, hw⟩ => ⟨.inr hs, hw⟩
    refine ⟨fun h => ?stopped, fun hr h => ?unasked, fun x t ha hx ht hoff hl => ?takes, fun x ha hx ht hoff => ?refused⟩
    case stopped => rw [exec_standbyWatchHold, onCore_eq (holdExpired_stopped h)]
    case unasked => rw [exec_standbyWatchHold, onCore_eq (holdExpired_unasked hr h)]; rfl
    case takes =>
      have hclaimed : holdExpired c0 = tune t x (Holders.none.put .watch true) (holdOver c0) := by
        obtain ⟨hr, hs, hw⟩ := ha
        rw [holdExpired_asked hr hs hw]
        exact watchTest_takes (hdue ⟨hr, hs, hw⟩) hx ht hoff hl
      refine ⟨_, by rw [exec_standbyWatchHold, onCore_eq hclaimed], ?_⟩
      rw [tune_eq, tuner_setTuner]
      exact ⟨rfl, rfl, rfl, rfl, rfl, rfl, fun v hv => tuner_setTuner_ne _ _ (Ne.symm hv), rfl⟩
    case refused =>
      obtain ⟨hr, hs, hw⟩ := ha
      have hheld : holdExpired c0 = heldOff c0 := by
        rw [holdExpired_asked hr hs hw, watchTest_refused (hdue ⟨hr, hs, hw⟩) hx ht hoff]
        exact startHold_standby hs
      rw [exec_standbyWatchHold, onCore_eq hheld]
      rfl

end Sys2Proof.Machine
end

section
/-! Cells: their intake, and the clearing of media cells (R30, R77 to R79). -/

namespace Sys2Proof.Machine

open Sys2Proof

/-! ## Intake (R30) -/

theorem exec_cellArrival (t : Fin 4) (header : BitVec 32) (payload : List Byte) (reading : TableBody) (s : State) :
    exec (.cellArrival t header payload reading) s = .next (onCore (cellArrival t header payload reading) s) := rfl

theorem cellArrival_dropped {t : Fin 4} {header : BitVec 32} {payload : List Byte} {reading : TableBody} {c : Core}
    (h : (tuner c t).state ≠ .locked ∨ (cellHeader header).lane = 0 ∨ (cellHeader header).parity = .reserved) :
    cellArrival t header payload reading c = c := by
  refine if_neg ?_
  simp only [ne_eq, Bool.and_eq_true, decide_eq_true_eq, not_and, not_not]
  tauto

theorem cellArrival_taken {t : Fin 4} {header : BitVec 32} {payload : List Byte} {reading : TableBody} {c : Core}
    (ht : (tuner c t).state = .locked) (hl : (cellHeader header).lane ≠ 0) (hp : (cellHeader header).parity ≠ .reserved) :
    cellArrival t header payload reading c =
      clearCell t (cellHeader header) payload (collectCell t (cellHeader header) payload reading c) :=
  if_pos (by simp [ht, hl, hp])

theorem collectCell_noSlot {t : Fin 4} {h : CellHeader} {payload : List Byte} {reading : TableBody} {c : Core}
    (hs : slotOn c t h.lane = none) : collectCell t h payload reading c = c := by
  rw [collectCell, hs]

/-! ## The outputs that present a lane -/

/-- The session of `o` presents the lane from tuner `t`. -/
def Presents (c : Core) (t : Fin 4) (lane : Nat) (o : Output) : Prop :=
  (session c o).state = .presenting ∧ (session c o).tuner = some t ∧ ∃ e, (session c o).service = some e ∧ lane ∈ e.lanes

theorem mem_allOutputs (o : Output) : o ∈ allOutputs := by cases o <;> decide

theorem mem_presenting {c : Core} {t : Fin 4} {lane : Nat} {o : Output} : o ∈ presenting c t lane ↔ Presents c t lane o := by
  simp [presenting, mem_allOutputs, Presents, and_assoc, Option.any_eq_true]

theorem nodup_presenting (c : Core) (t : Fin 4) (lane : Nat) : (presenting c t lane).Nodup :=
  List.Nodup.filter _ (by decide)

/-! ## Routing to the outputs -/

/-- The cells carried to an output. -/
def cellsOf (c : Core) (o : Output) : List OutCell := c.rooms.cells.get (Output.idx o)

theorem cellsOf_carry (o : Output) (x : OutCell) (c : Core) : cellsOf (carry o x c) o = cellsOf c o ++ [x] := putAt_same _ _ _

theorem cellsOf_carry_ne {o p : Output} (x : OutCell) (c : Core) (h : o ≠ p) : cellsOf (carry o x c) p = cellsOf c p :=
  putAt_other _ _ fun e => h (Output.idx_inj e)

theorem cellsOf_routeTo_ne {h : CellHeader} {f : Output → Option (List Byte)} {o p : Output} (c : Core) (hne : o ≠ p) :
    cellsOf (routeTo h f c o) p = cellsOf c p := by
  unfold routeTo
  split
  · exact cellsOf_carry_ne _ _ hne
  · rfl

theorem cellsOf_routeTo_some {h : CellHeader} {f : Output → Option (List Byte)} {o : Output} {p : List Byte} (c : Core)
    (hf : f o = some p) : cellsOf (routeTo h f c o) o = cellsOf c o ++ [outCell h p] := by
  rw [routeTo, hf]
  exact cellsOf_carry _ _ _

theorem routeTo_none {h : CellHeader} {f : Output → Option (List Byte)} {o : Output} (c : Core) (hf : f o = none) :
    routeTo h f c o = c := by
  rw [routeTo, hf]

theorem routeTo_frame (h : CellHeader) (f : Output → Option (List Byte)) (c : Core) (o : Output) :
    ∃ v, routeTo h f c o = { c with rooms := { c.rooms with cells := v } } := by
  unfold routeTo
  split
  · exact ⟨_, rfl⟩
  · exact ⟨c.rooms.cells, rfl⟩

/-- A cell routed to some outputs reaches no other. -/
theorem cellsOf_route_outside {h : CellHeader} {f : Output → Option (List Byte)} {o : Output} (l : List Output) (c : Core)
    (ho : o ∉ l) : cellsOf (l.foldl (routeTo h f) c) o = cellsOf c o := by
  induction l generalizing c with
  | nil => rfl
  | cons p l ih =>
    obtain ⟨hp, hl⟩ := not_or.mp (mt List.mem_cons.mpr ho)
    rw [List.foldl_cons, ih _ hl, cellsOf_routeTo_ne c (Ne.symm hp)]

/-- Each output of the list gets what is cleared for it, once. -/
theorem cellsOf_route_some {h : CellHeader} {f : Output → Option (List Byte)} {o : Output} {p : List Byte} (l : List Output)
    (c : Core) (hn : l.Nodup) (ho : o ∈ l) (hf : f o = some p) :
    cellsOf (l.foldl (routeTo h f) c) o = cellsOf c o ++ [outCell h p] := by
  induction l generalizing c with
  | nil => cases ho
  | cons q l ih =>
    obtain ⟨hq, hl⟩ := List.nodup_cons.mp hn
    rw [List.foldl_cons]
    by_cases hqo : q = o
    · subst hqo
      rw [cellsOf_route_outside l _ hq, cellsOf_routeTo_some c hf]
    · rw [ih _ hl ((List.mem_cons.mp ho).resolve_left fun e => hqo e.symm), cellsOf_routeTo_ne c hqo]

theorem cellsOf_route_none {h : CellHeader} {f : Output → Option (List Byte)} {o : Output} (l : List Output) (c : Core)
    (hf : f o = none) : cellsOf (l.foldl (routeTo h f) c) o = cellsOf c o := by
  induction l generalizing c with
  | nil => rfl
  | cons q l ih =>
    rw [List.foldl_cons, ih]
    by_cases hqo : q = o
    · subst hqo
      rw [routeTo_none c hf]
    · exact cellsOf_routeTo_ne c hqo

theorem route_frame (h : CellHeader) (f : Output → Option (List Byte)) (l : List Output) (c : Core) :
    ∃ v, l.foldl (routeTo h f) c = { c with rooms := { c.rooms with cells := v } } := by
  induction l generalizing c with
  | nil => exact ⟨c.rooms.cells, rfl⟩
  | cons o l ih =>
    obtain ⟨v, hv⟩ := routeTo_frame h f c o
    obtain ⟨w, hw⟩ := ih (routeTo h f c o)
    exact ⟨w, by rw [List.foldl_cons, hw, hv]⟩

/-! ## The key slots that handle a cell (R78, R79) -/

/-- A slot that handles an enciphered cell. -/
def KeySlot.tookCell (x : KeySlot) (p : KeyParity) : KeySlot :=
  if (x.key p).isSome then { x with parity := some p } else x.keyAbsent p

theorem slotTakesCell_eq (p : KeyParity) (c : Core) (k : Fin 4) : slotTakesCell p c k = setKeySlot k ((keySlot c k).tookCell p) c := rfl

/-- The slot lacks the key of the parity while it clears cells: it is the one that goes to MISSING. -/
def KeySlot.misses (x : KeySlot) (p : KeyParity) : Prop := x.key p = none ∧ (x.state = .ready ∨ x.state = .stale)

theorem KeySlot.tookCell_misses {x : KeySlot} {p : KeyParity} (h : x.misses p) :
    x.tookCell p = { x with parity := some p, state := .missing } := by
  obtain ⟨hk, hs⟩ := h
  have hclears : x.clears = true := by simpa [KeySlot.clears] using hs
  simp [KeySlot.tookCell, hk, KeySlot.keyAbsent, hclears]

theorem KeySlot.tookCell_keeps {x : KeySlot} {p : KeyParity} (h : ¬x.misses p) : x.tookCell p = { x with parity := some p } := by
  unfold KeySlot.tookCell
  split
  · rfl
  · next hk =>
    have hclears : ¬x.clears = true := fun hc => h ⟨by simpa using hk, by simpa [KeySlot.clears] using hc⟩
    rw [KeySlot.keyAbsent, if_neg hclears]

theorem keySlot_takeCell_outside {p : KeyParity} {k : Fin 4} (l : List (Fin 4)) (c : Core) (hk : k ∉ l) :
    keySlot (l.foldl (slotTakesCell p) c) k = keySlot c k := by
  induction l generalizing c with
  | nil => rfl
  | cons j l ih =>
    obtain ⟨hj, hl⟩ := not_or.mp (mt List.mem_cons.mpr hk)
    rw [List.foldl_cons, ih _ hl, slotTakesCell_eq, keySlot_setKeySlot_ne _ _ (Ne.symm hj)]

theorem keySlot_takeCell {p : KeyParity} {k : Fin 4} (l : List (Fin 4)) (c : Core) (hn : l.Nodup) (hk : k ∈ l) :
    keySlot (l.foldl (slotTakesCell p) c) k = (keySlot c k).tookCell p := by
  induction l generalizing c with
  | nil => cases hk
  | cons j l ih =>
    obtain ⟨hj, hl⟩ := List.nodup_cons.mp hn
    rw [List.foldl_cons]
    by_cases hjk : j = k
    · subst hjk
      rw [keySlot_takeCell_outside l _ hj, slotTakesCell_eq, keySlot_setKeySlot]
    · rw [ih _ hl ((List.mem_cons.mp hk).resolve_left fun e => hjk e.symm), slotTakesCell_eq,
        keySlot_setKeySlot_ne _ _ hjk]

theorem takeCell_frame (p : KeyParity) (l : List (Fin 4)) (c : Core) :
    ∃ v, l.foldl (slotTakesCell p) c = { c with keys := v } := by
  induction l generalizing c with
  | nil => exact ⟨c.keys, rfl⟩
  | cons k l ih =>
    obtain ⟨v, hv⟩ := ih (slotTakesCell p c k)
    exact ⟨v, by rw [List.foldl_cons, hv]; rfl⟩

/-! ## A cell at the Key Table (R77) -/

/-- The slots that handle an enciphered cell. -/
def handlers (c : Core) (t : Fin 4) (lane : Nat) : List (Fin 4) :=
  allTuners.filter fun k => (presenting c t lane).any fun o => cellSlot c o == some k

theorem mem_handlers {c : Core} {t : Fin 4} {lane : Nat} {k : Fin 4} :
    k ∈ handlers c t lane ↔ ∃ o, Presents c t lane o ∧ cellSlot c o = some k := by
  have hall : k ∈ allTuners := by fin_cases k <;> decide
  simp [handlers, hall, mem_presenting]

theorem nodup_handlers (c : Core) (t : Fin 4) (lane : Nat) : (handlers c t lane).Nodup := List.Nodup.filter _ (by decide)

/-- The blocks when an enciphered cell has been handled, before the sessions are re-evaluated. -/
def enciphered (t : Fin 4) (h : CellHeader) (p : KeyParity) (payload : List Byte) (c : Core) : Core :=
  (presenting c t h.lane).foldl (routeTo h (cleared c p payload)) ((handlers c t h.lane).foldl (slotTakesCell p) c)

theorem clearCell_clear {t : Fin 4} {h : CellHeader} {payload : List Byte} {c : Core} (hp : parityKey h.parity = none) :
    clearCell t h payload c = (presenting c t h.lane).foldl (routeTo h fun _ => some payload) c := by
  unfold clearCell
  dsimp only
  rw [hp]

theorem clearCell_enciphered {t : Fin 4} {h : CellHeader} {payload : List Byte} {c : Core} {p : KeyParity}
    (hp : parityKey h.parity = some p) :
    clearCell t h payload c =
      if keyStates (enciphered t h p payload c) = keyStates c then enciphered t h p payload c
      else reevaluate (enciphered t h p payload c) := by
  unfold clearCell
  dsimp only
  rw [hp]
  rfl

theorem keyStates_eq_iff {c c' : Core} : keyStates c' = keyStates c ↔ ∀ k, (keySlot c' k).state = (keySlot c k).state := by
  have hall : ∀ k : Fin 4, k ∈ allTuners := by decide
  simp [keyStates, hall]

theorem enciphered_frame (t : Fin 4) (h : CellHeader) (p : KeyParity) (payload : List Byte) (c : Core) :
    ∃ v w, enciphered t h p payload c = { c with rooms := { c.rooms with cells := v }, keys := w } := by
  obtain ⟨w, hw⟩ := takeCell_frame p (handlers c t h.lane) c
  obtain ⟨v, hv⟩ := route_frame h (cleared c p payload) (presenting c t h.lane) ((handlers c t h.lane).foldl (slotTakesCell p) c)
  refine ⟨v, w, ?_⟩
  rw [enciphered, hv, hw]

theorem keySlot_enciphered (t : Fin 4) (h : CellHeader) (p : KeyParity) (payload : List Byte) (c : Core) (k : Fin 4) :
    keySlot (enciphered t h p payload c) k = keySlot ((handlers c t h.lane).foldl (slotTakesCell p) c) k := by
  obtain ⟨v, hv⟩ := route_frame h (cleared c p payload) (presenting c t h.lane) ((handlers c t h.lane).foldl (slotTakesCell p) c)
  rw [enciphered, hv]
  rfl

theorem keySlot_enciphered_handler {t : Fin 4} {h : CellHeader} {p : KeyParity} {payload : List Byte} {c : Core} {k : Fin 4}
    (hk : ∃ o, Presents c t h.lane o ∧ cellSlot c o = some k) :
    keySlot (enciphered t h p payload c) k = (keySlot c k).tookCell p := by
  rw [keySlot_enciphered, keySlot_takeCell _ _ (nodup_handlers _ _ _) (mem_handlers.mpr hk)]

theorem keySlot_enciphered_other {t : Fin 4} {h : CellHeader} {p : KeyParity} {payload : List Byte} {c : Core} {k : Fin 4}
    (hk : ¬∃ o, Presents c t h.lane o ∧ cellSlot c o = some k) :
    keySlot (enciphered t h p payload c) k = keySlot c k := by
  rw [keySlot_enciphered, keySlot_takeCell_outside _ _ (mt mem_handlers.mp hk)]

theorem cellsOf_takeCell (p : KeyParity) (l : List (Fin 4)) (c : Core) (o : Output) :
    cellsOf (l.foldl (slotTakesCell p) c) o = cellsOf c o := by
  obtain ⟨w, hw⟩ := takeCell_frame p l c
  rw [hw]
  rfl

theorem cleared_some {c : Core} {p : KeyParity} {payload : List Byte} {o : Output} {k : Fin 4} {key : Key}
    (hk : cellSlot c o = some k) (hkey : (keySlot c k).key p = some key) :
    cleared c p payload o = some (Config.decipherPayload key payload) := by
  rw [cleared, hk, Option.bind_some, hkey, Option.map_some]

theorem cleared_none {c : Core} {p : KeyParity} {payload : List Byte} {o : Output}
    (h : cellSlot c o = none ∨ ∃ k, cellSlot c o = some k ∧ (keySlot c k).key p = none) : cleared c p payload o = none := by
  obtain h | ⟨k, hk, hkey⟩ := h
  · rw [cleared, h, Option.bind_none]
  · rw [cleared, hk, Option.bind_some, hkey, Option.map_none]

/-- The key states change exactly when a slot that handles the cell goes to MISSING. -/
theorem keyStates_enciphered_eq {t : Fin 4} {h : CellHeader} {p : KeyParity} {payload : List Byte} {c : Core}
    (hno : ∀ k, (∃ o, Presents c t h.lane o ∧ cellSlot c o = some k) → ¬(keySlot c k).misses p) :
    keyStates (enciphered t h p payload c) = keyStates c := by
  rw [keyStates_eq_iff]
  intro k
  by_cases hk : ∃ o, Presents c t h.lane o ∧ cellSlot c o = some k
  · rw [keySlot_enciphered_handler hk, KeySlot.tookCell_keeps (hno k hk)]
  · rw [keySlot_enciphered_other hk]

theorem keyStates_enciphered_ne {t : Fin 4} {h : CellHeader} {p : KeyParity} {payload : List Byte} {c : Core} {k : Fin 4}
    (hk : ∃ o, Presents c t h.lane o ∧ cellSlot c o = some k) (hm : (keySlot c k).misses p) :
    keyStates (enciphered t h p payload c) ≠ keyStates c := by
  intro he
  have hstate := keyStates_eq_iff.mp he k
  rw [keySlot_enciphered_handler hk, KeySlot.tookCell_misses hm] at hstate
  obtain hs | hs := hm.2
  · cases hstate.trans hs
  · cases hstate.trans hs

theorem parityKey_reserved {p : Parity} {k : KeyParity} (h : parityKey p = some k) : p ≠ .reserved := by
  rintro rfl
  cases h

/-- Settles O24: a cell taken with no slot on its lane is routed output by output, and handled slot by slot. -/
theorem cellsAreRouted : Obligations.CellsAreRouted := by
  unfold Obligations.CellsAreRouted
  refine ⟨fun t header payload reading s h => ?dropped, fun t header payload reading s => ?taken⟩
  case dropped => rw [exec_cellArrival, onCore_eq (cellArrival_dropped h)]
  case taken =>
    intro c0 h goes at' cell ht hl hs
    have harrival : h.parity ≠ .reserved →
        exec (.cellArrival t header payload reading) s = .next { s with core := clearCell t h payload c0 } := fun hp => by
      rw [exec_cellArrival, onCore_eq (cellArrival_taken ht hl hp), collectCell_noSlot hs]
    refine ⟨fun hp => ?clear, fun p hp => ?enciphered⟩
    case clear =>
      have hkey : parityKey h.parity = none := by rw [hp]; rfl
      obtain ⟨v, hv⟩ := route_frame h (fun _ => some payload) (presenting c0 t h.lane) c0
      refine ⟨_, by rw [harrival (by rw [hp]; decide), clearCell_clear hkey], fun o ho => ?_, fun o ho => ?_, by rw [hv]⟩
      · exact cellsOf_route_some _ _ (nodup_presenting _ _ _) (mem_presenting.mpr ho) rfl
      · exact cellsOf_route_outside _ _ (mt mem_presenting.mp ho)
    case enciphered =>
      intro handles lacks cleared'
      obtain ⟨v, w, hframe⟩ := enciphered_frame t h p payload c0
      have harrival := (harrival (parityKey_reserved hp)).trans (by rw [clearCell_enciphered hp])
      refine ⟨enciphered t h p payload c0, by rw [hframe], fun hno => ?_, fun k hk hlk hck => ?_,
        fun o k key ho hk hkey => ?_, fun o ho => ?_,
        fun k hk => ⟨fun hno => ?_, fun hlk hck => ?_⟩, fun k hk => keySlot_enciphered_other hk⟩
      · rw [harrival, if_pos (keyStates_enciphered_eq fun k hk hm => hno k hk hm.1 hm.2)]
      · rw [harrival, if_neg (keyStates_enciphered_ne hk ⟨hlk, hck⟩)]
      · have hrouted := cellsOf_route_some (h := h) (presenting c0 t h.lane) ((handlers c0 t h.lane).foldl (slotTakesCell p) c0)
          (nodup_presenting c0 t h.lane) (mem_presenting.mpr ho) (cleared_some (payload := payload) hk hkey)
        exact hrouted.trans (by rw [cellsOf_takeCell]; rfl)
      · refine Eq.trans ?_ (cellsOf_takeCell p (handlers c0 t h.lane) c0 o)
        obtain ho | ho := ho
        · exact cellsOf_route_outside _ _ (mt mem_presenting.mp ho)
        · exact cellsOf_route_none _ _ (cleared_none ho)
      · rw [keySlot_enciphered_handler hk, KeySlot.tookCell_keeps fun hm => hno.elim (fun h => h hm.1) (fun h => h hm.2)]
      · rw [keySlot_enciphered_handler hk, KeySlot.tookCell_misses ⟨hlk, hck⟩]

end Sys2Proof.Machine
end

section
/-! Segments: their assembly in a slot, and their hand-over to the consumers (R32 to R34, R93). -/

namespace Sys2Proof.Machine

open Sys2Proof

/-! ## A slot in place -/

theorem setSlot_setSlot (i : Fin 16) (x y : Slot) (c : Core) : setSlot i x (setSlot i y c) = setSlot i x c := by
  simp [setSlot, putAt]

theorem setSlot_self (i : Fin 16) (c : Core) : setSlot i (slot c i) c = c := by
  have hput : putAt c.slots i (c.slots.get i) = c.slots := Vector.set_getElem_self i.isLt
  rw [setSlot, slot, hput]

theorem slot_of_slots {c c' : Core} (h : c'.slots = c.slots) (i : Fin 16) : slot c' i = slot c i := by
  rw [slot, slot, h]

/-! ## Assembly (R32, R33) -/

/-- The segment's check holds and its kind is the one the slot's consumer takes. -/
def Slot.Sound (x : Slot) (bs : List Byte) : Prop :=
  number (bs.drop (bs.length - 2)) = (crc (bs.take (bs.length - 2))).toNat ∧
    ∃ f, x.filter = some f ∧ (segmentHeader bs).kind = f.consumer.tableKind

theorem Slot.sound_iff {x : Slot} {bs : List Byte} :
    (checkHolds bs && (match x.filter with
      | some f => (segmentHeader bs).kind == f.consumer.tableKind
      | none => false)) = true ↔ x.Sound bs := by
  unfold Slot.Sound checkHolds
  cases x.filter with
  | none => simp
  | some f => simp

/-- The first of a slot's buffers that is in a state: B when `second`. -/
def Slot.FirstIn (x : Slot) (st : BufferState) (second : Bool) : Prop :=
  (x.buffer second).state = st ∧ (second = true → x.a.state ≠ st)

theorem Slot.freeBuffer_of_firstIn {x : Slot} {second : Bool} (h : x.FirstIn .free second) : x.freeBuffer = some second := by
  obtain ⟨hb, ha⟩ := h
  cases second with
  | false => exact if_pos hb
  | true => exact (if_neg (ha rfl)).trans (if_pos hb)

theorem Slot.freeBuffer_none {x : Slot} (ha : x.a.state ≠ .free) (hb : x.b.state ≠ .free) : x.freeBuffer = none :=
  (if_neg ha).trans (if_neg hb)

theorem Slot.filling_of_firstIn {x : Slot} {second : Bool} (h : x.FirstIn .filling second) : x.filling = some second := by
  obtain ⟨hb, ha⟩ := h
  cases second with
  | false => exact if_pos hb
  | true => exact (if_neg (ha rfl)).trans (if_pos hb)

theorem Slot.advance_more {x : Slot} {second : Bool} {bs : List Byte} {needed : Nat} {count : BitVec 4} {reading : TableBody}
    (h : needed ≠ 0) : x.advance second bs needed count reading =
      { x.setBuffer second { x.buffer second with state := .filling, bytes := bs } with asm := .collecting needed (count + 1) } :=
  if_neg h

theorem Slot.setBuffer_setBuffer (x : Slot) (second : Bool) (u v : Buffer) :
    (x.setBuffer second u).setBuffer second v = x.setBuffer second v := by
  cases second with
  | false => rfl
  | true => rfl

theorem Slot.buffer_setBuffer (x : Slot) (second : Bool) (v : Buffer) : (x.setBuffer second v).buffer second = v := by
  cases second with
  | false => rfl
  | true => rfl

theorem Slot.setBuffer_filter (x : Slot) (second : Bool) (v : Buffer) : (x.setBuffer second v).filter = x.filter := by
  cases second with
  | false => rfl
  | true => rfl

theorem Slot.complete_sound {x : Slot} {second : Bool} {reading : TableBody} (h : x.Sound (x.buffer second).bytes) :
    x.complete second reading =
      { x.setBuffer second ⟨if x.hasHanded = true then .waiting else .handed, (x.buffer second).bytes,
          max x.a.stamp x.b.stamp + 1, some reading⟩ with asm := .idle } := if_pos (Slot.sound_iff.mpr h)

theorem Slot.complete_unsound {x : Slot} {second : Bool} {reading : TableBody} (h : ¬x.Sound (x.buffer second).bytes) :
    x.complete second reading = { x.setBuffer second .free with asm := .idle } := if_neg (mt Slot.sound_iff.mp h)

/-- The slot with a buffer being filled with the bytes. -/
def Slot.filled (x : Slot) (second : Bool) (bs : List Byte) : Slot :=
  x.setBuffer second { x.buffer second with state := .filling, bytes := bs }

theorem Slot.advance_last {x : Slot} {second : Bool} {bs : List Byte} {count : BitVec 4} {reading : TableBody} :
    x.advance second bs 0 count reading = (x.filled second bs).complete second reading := by
  unfold Slot.advance
  dsimp only
  rw [if_pos rfl, Slot.filled]

theorem Slot.filled_sound {x : Slot} {second : Bool} {bs : List Byte} :
    (x.filled second bs).Sound ((x.filled second bs).buffer second).bytes ↔ x.Sound bs := by
  rw [Slot.Sound, Slot.filled, Slot.setBuffer_filter, Slot.buffer_setBuffer]
  rfl

/-- The last bytes of a sound segment make its buffer FULL: handed at once, or waiting behind the one handed. -/
theorem Slot.advance_sound {x : Slot} {second : Bool} {bs : List Byte} {count : BitVec 4} {reading : TableBody}
    (hs : x.Sound bs) (hb : (x.buffer second).state ≠ .handed) :
    x.advance second bs 0 count reading =
      { x.setBuffer second ⟨if x.hasHanded = true then .waiting else .handed, bs, max x.a.stamp x.b.stamp + 1, some reading⟩ with
        asm := .idle } := by
  rw [Slot.advance_last, Slot.complete_sound (Slot.filled_sound.mpr hs)]
  cases second with
  | false =>
    have hb : x.a.state ≠ .handed := hb
    simp [Slot.filled, Slot.setBuffer, Slot.hasHanded, Slot.buffer, hb]
  | true =>
    have hb : x.b.state ≠ .handed := hb
    simp [Slot.filled, Slot.setBuffer, Slot.hasHanded, Slot.buffer, hb]

theorem Slot.advance_unsound {x : Slot} {second : Bool} {bs : List Byte} {count : BitVec 4} {reading : TableBody}
    (hs : ¬x.Sound bs) : x.advance second bs 0 count reading = { x.setBuffer second .free with asm := .idle } := by
  rw [Slot.advance_last, Slot.complete_unsound (mt Slot.filled_sound.mp hs), Slot.filled, Slot.setBuffer_setBuffer]

/-- The slot with the segment it was assembling discarded. -/
def Slot.emptied (x : Slot) : Slot :=
  { x with
    a := if x.a.state = .filling then .free else x.a
    b := if x.b.state = .filling then .free else x.b }

theorem Slot.discard_eq (x : Slot) (next : Assembly) : x.discard next = { x.emptied with asm := next } := rfl

theorem Slot.takeCell_enciphered {x : Slot} {h : CellHeader} {payload : List Byte} {reading : TableBody} (hp : h.parity ≠ .clear) :
    x.takeCell h payload reading = { x.emptied with asm := .skipping } := if_pos (by simpa using hp)

theorem Slot.takeCell_clear {x : Slot} {h : CellHeader} {payload : List Byte} {reading : TableBody} (hp : h.parity = .clear) :
    x.takeCell h payload reading =
      match x.asm with
      | .idle | .skipping => if h.unitStart then x.begin h payload reading else x
      | .collecting needed next =>
        if h.unitStart then (x.discard .idle).begin h payload reading
        else if h.count = next then
          match x.filling with
          | some second =>
            x.advance second ((x.buffer second).bytes ++ payload.take needed) (needed - min needed 156) h.count reading
          | none => x.discard .skipping
        else x.discard .skipping := by
  unfold Slot.takeCell
  rw [if_neg (by simp [hp])] <;> rfl

theorem Slot.takeCell_waits {x : Slot} {h : CellHeader} {payload : List Byte} {reading : TableBody} (hp : h.parity = .clear)
    (hu : h.unitStart = false) (hx : x.asm = .idle ∨ x.asm = .skipping) : x.takeCell h payload reading = x := by
  obtain hx | hx := hx
  · rw [Slot.takeCell_clear hp, hx]
    exact if_neg (by simp [hu])
  · rw [Slot.takeCell_clear hp, hx]
    exact if_neg (by simp [hu])

/-- A unit-start cell begins a segment in the slot `z`: the slot as it was, or with the segment in assembly discarded. -/
theorem Slot.takeCell_begins {x z : Slot} {h : CellHeader} {payload : List Byte} {reading : TableBody} (hp : h.parity = .clear)
    (hu : h.unitStart = true)
    (hz : ((x.asm = .idle ∨ x.asm = .skipping) ∧ z = x) ∨ ((∃ n k, x.asm = .collecting n k) ∧ z = x.emptied)) :
    ∃ asm, x.takeCell h payload reading = ({ z with asm := asm } : Slot).begin h payload reading := by
  rw [Slot.takeCell_clear hp]
  obtain ⟨hx | hx, rfl⟩ | ⟨⟨n, k, hx⟩, rfl⟩ := hz
  · exact ⟨z.asm, by simp only [hx, hu, if_true]; rw [← hx]⟩
  · exact ⟨z.asm, by simp only [hx, hu, if_true]; rw [← hx]⟩
  · exact ⟨.idle, by simp only [hx, hu, if_true]; rfl⟩

/-- The length of the segment whose first bytes are a payload. -/
def segmentTotal (payload : List Byte) : Nat := (segmentHeader payload).length + 8

theorem Slot.begin_skips {z : Slot} {asm : Assembly} {h : CellHeader} {payload : List Byte} {reading : TableBody}
    (hno : 1024 < segmentTotal payload ∨ (z.a.state ≠ .free ∧ z.b.state ≠ .free)) :
    ({ z with asm := asm } : Slot).begin h payload reading = { z with asm := .skipping } := by
  unfold Slot.begin
  dsimp only
  by_cases hlong : 1024 < segmentTotal payload
  · exact if_pos hlong
  · obtain ⟨ha, hb⟩ := hno.resolve_left hlong
    refine (if_neg hlong).trans ?_
    rw [Slot.freeBuffer_none (x := { z with asm := asm }) ha hb]

theorem Slot.begin_fits {z : Slot} {asm : Assembly} {h : CellHeader} {payload : List Byte} {reading : TableBody} {second : Bool}
    (hz : z.FirstIn .free second) (hlen : segmentTotal payload ≤ 1024) :
    ({ z with asm := asm } : Slot).begin h payload reading =
      ({ z with asm := asm } : Slot).advance second (payload.take (segmentTotal payload))
        (segmentTotal payload - min (segmentTotal payload) 156) h.count reading := by
  unfold Slot.begin
  dsimp only
  refine (if_neg (Nat.not_lt.mpr hlen)).trans ?_
  rw [Slot.freeBuffer_of_firstIn (x := { z with asm := asm }) (second := second) (by cases second <;> exact hz)]
  rfl

/-- The part of the slot that assembly writes does not depend on where the assembly stood. -/
theorem Slot.advance_asm {z : Slot} {asm : Assembly} {second : Bool} {bs : List Byte} {needed : Nat} {count : BitVec 4}
    {reading : TableBody} :
    ({ z with asm := asm } : Slot).advance second bs needed count reading = z.advance second bs needed count reading := by
  unfold Slot.advance Slot.complete
  cases second with
  | false => rfl
  | true => rfl

theorem Slot.takeCell_broken {x : Slot} {h : CellHeader} {payload : List Byte} {reading : TableBody} {needed : Nat} {next : BitVec 4}
    (hp : h.parity = .clear) (hu : h.unitStart = false) (hx : x.asm = .collecting needed next) (hc : h.count ≠ next) :
    x.takeCell h payload reading = { x.emptied with asm := .skipping } := by
  rw [Slot.takeCell_clear hp, hx]
  simp only [hu, Bool.false_eq_true, if_false]
  rw [if_neg hc, Slot.discard_eq]

theorem Slot.takeCell_continues {x : Slot} {h : CellHeader} {payload : List Byte} {reading : TableBody} {needed : Nat}
    {next : BitVec 4} {second : Bool} (hp : h.parity = .clear) (hu : h.unitStart = false) (hx : x.asm = .collecting needed next)
    (hc : h.count = next) (hb : x.FirstIn .filling second) :
    x.takeCell h payload reading =
      x.advance second ((x.buffer second).bytes ++ payload.take needed) (needed - min needed 156) h.count reading := by
  rw [Slot.takeCell_clear hp, hx]
  simp only [hu, Bool.false_eq_true, if_false]
  rw [if_pos hc, Slot.filling_of_firstIn hb]

/-- A buffer that ends in one cell is completed; the statement of the three ends a slot can reach. -/
theorem Slot.advance_completes {z after : Slot} {bs : List Byte} {count : BitVec 4} {reading : TableBody} {second : Bool}
    (hz : (z.buffer second).state ≠ .handed) (hafter : after = z.advance second bs 0 count reading) :
    (z.Sound bs → (z.a.state = .handed ∨ z.b.state = .handed) →
      after = { z.setBuffer second ⟨.waiting, bs, max z.a.stamp z.b.stamp + 1, some reading⟩ with asm := .idle }) ∧
    (z.Sound bs → ¬(z.a.state = .handed ∨ z.b.state = .handed) →
      after = { z.setBuffer second ⟨.handed, bs, max z.a.stamp z.b.stamp + 1, some reading⟩ with asm := .idle }) ∧
    (¬z.Sound bs → after = { z.setBuffer second .free with asm := .idle }) := by
  have hhanded : z.hasHanded = true ↔ (z.a.state = .handed ∨ z.b.state = .handed) := by simp [Slot.hasHanded]
  refine ⟨fun hs hh => ?_, fun hs hh => ?_, fun hs => ?_⟩
  · rw [hafter, Slot.advance_sound hs hz, if_pos (hhanded.mpr hh)]
  · rw [hafter, Slot.advance_sound hs hz, if_neg (mt hhanded.mp hh)]
  · rw [hafter, Slot.advance_unsound hs]

/-! ## Hand-over (R34) -/

theorem Slot.hasHanded_iff {x : Slot} : x.hasHanded = true ↔ (x.a.state = .handed ∨ x.b.state = .handed) := by simp [Slot.hasHanded]

/-- A slot with nothing waiting has nothing to hand over. -/
theorem Slot.handNext_none {x : Slot} (ha : x.a.state ≠ .waiting) (hb : x.b.state ≠ .waiting) : x.handNext = x := by
  simp [Slot.handNext, ha, hb]

theorem Slot.handNext_handed {x : Slot} (h : x.hasHanded = true) : x.handNext = x := if_pos h

/-- Hand-over ends when the slot has nothing waiting. -/
theorem handOver_ends {n : Nat} {i : Fin 16} {c c' : Core} (h : takeHanded i c = (c', false))
    (ha : (slot c' i).a.state ≠ .waiting) (hb : (slot c' i).b.state ≠ .waiting) : handOver (n + 1) i c = c' := by
  rw [handOver, h]
  dsimp only
  rw [Slot.handNext_none ha hb]
  exact if_neg (by simp)

theorem handOver_kept {n : Nat} {i : Fin 16} {c : Core} (h : takeHanded i c = (c, true)) : handOver (n + 1) i c = c := by
  rw [handOver, h]

theorem handIfNew_new {i : Fin 16} {x : Slot} {c : Core} (hb : (slot c i).hasHanded = false) (hx : x.hasHanded = true) :
    handIfNew i x c = handOver 3 i (setSlot i x c) := if_pos (by simp [hb, hx])

theorem handIfNew_none {i : Fin 16} {x : Slot} {c : Core} (h : (slot c i).hasHanded = true ∨ x.hasHanded = false) :
    handIfNew i x c = setSlot i x c := by
  refine if_neg ?_
  obtain h | h := h
  · simp [h]
  · simp [h]

theorem releaseBuffer_a {i : Fin 16} {c : Core} (ha : (slot c i).a.state = .handed) (hb : (slot c i).b.state ≠ .handed) :
    releaseBuffer i c = setSlot i { slot c i with a := .free } c := by
  simp [releaseBuffer, Slot.release, ha, hb]

theorem Slot.handed_a {x : Slot} (ha : x.a.state = .handed) : x.handed = some x.a := if_pos ha

/-- A consumer that releases at once takes the segment read. -/
theorem takeHanded_consumed {i : Fin 16} {c : Core} {f : Filter} {r : TableBody} (hf : (slot c i).filter = some f)
    (hk : f.consumer ≠ .grants) (ha : (slot c i).a.state = .handed) (hb : (slot c i).b.state ≠ .handed)
    (hr : (slot c i).a.reading = some r) :
    takeHanded i c =
      (consume f (segmentHeader (slot c i).a.bytes) r (setSlot i { slot c i with a := .free } c), false) := by
  rw [takeHanded, hf, Slot.handed_a ha]
  dsimp only
  rw [hr, releaseBuffer_a ha hb]
  cases hc : f.consumer with
  | grants => exact absurd hc hk
  | directory => rfl
  | time => rfl
  | laneMap => rfl
  | presentNext => rfl
  | schedule => rfl
  | keys => rfl

theorem takeHanded_grants {i : Fin 16} {c : Core} {t : Fin 4} {lane : Nat} {g : GrantBulletin}
    (hf : (slot c i).filter = some ⟨t, lane, .grants⟩) (ha : (slot c i).a.state = .handed)
    (hr : (slot c i).a.reading = some (.grants g)) :
    takeHanded i c =
      match judgeBulletin g c with
      | .kept => (c, true)
      | .released => (releaseBuffer i c, false)
      | .applied k => (applyBulletin k g (releaseBuffer i c), false) := by
  rw [takeHanded, hf, Slot.handed_a ha]
  dsimp only
  rw [hr] <;> rfl

/-! ## What the consumers leave of the slots -/

theorem reevaluate_slots (c : Core) : (reevaluate c).slots = c.slots := (reevaluate_sessions (.refl c)).slots

theorem takeKeys_slots (k : Fin 4) (b : KeyBulletin) (c : Core) : (takeKeys k b c).slots = c.slots := by
  have htold : ∀ x, (setKeyTold k x c).slots = c.slots := fun x => by
    unfold setKeyTold
    dsimp only
    split
    · exact reevaluate_slots _
    · rfl
  unfold takeKeys
  dsimp only
  split
  · rfl
  · split
    · rfl
    · split
      · split
        · rfl
        · exact htold _
      · split
        · rfl
        · exact htold _

theorem commitGroup_slots (credit : Bool) (c : Core) : (commitGroup credit c).slots = c.slots := by
  unfold commitGroup
  dsimp only
  split
  · next h => exact (offer_only h).slots
  · next h => exact (offer_only h).slots
  · next h => exact (offer_only h).slots

theorem commitLogAck_slots (c : Core) : (commitLogAck c).slots = c.slots := by
  unfold commitLogAck
  split
  · next h => exact (offer_only h).slots
  · next h => exact (offer_only h).slots
  · next h => exact (offer_only h).slots

theorem dueTest_slots (c : Core) : (dueTest c).slots = c.slots := by
  unfold dueTest
  split
  · split
    · rw [sendReport_eq]
    · split
      · rfl
      · rfl
  · rfl

theorem stopIfReported_slots (c : Core) : (stopIfReported c).slots = c.slots := by
  unfold stopIfReported
  split
  · rfl
  · rfl

theorem purchaseAck_slots (s : Seq) (c : Core) : (purchaseAck s c).slots = c.slots := by
  unfold purchaseAck
  dsimp only
  rw [dueTest_slots, stopIfReported_slots, commitLogAck_slots]
  split
  · rfl
  · rfl

theorem addEvent_slots (lcn event expiry : Nat) (c : Core) : (addEvent lcn event expiry c).slots = c.slots := by
  unfold addEvent
  dsimp only
  split
  · rfl
  · split
    · rfl
    · split
      · rfl
      · rfl

theorem applyOp_slots (c : Core) (op : GrantOp) : (applyOp c op).slots = c.slots := by
  cases op with
  | addPackage id first last => rfl
  | dropPackage id => rfl
  | addEvent lcn event expiry => exact addEvent_slots _ _ _ c
  | creditLimit n => rfl
  | creditTopUp n => rfl
  | purchaseAck s => exact purchaseAck_slots s c
  | cut => rfl
  | restore => rfl
  | unknown => rfl

theorem foldl_applyOp_slots (ops : List GrantOp) (c : Core) : (ops.foldl applyOp c).slots = c.slots := by
  induction ops generalizing c with
  | nil => rfl
  | cons op ops ih => rw [List.foldl_cons, ih, applyOp_slots]

theorem applyBulletin_slots (k : Fin 5) (b : GrantBulletin) (c : Core) : (applyBulletin k b c).slots = c.slots := by
  have hposted : ∀ credit, (commitGroup credit (setLast k b.number (b.ops.foldl applyOp c))).slots = c.slots := fun credit => by
    rw [commitGroup_slots]
    exact foldl_applyOp_slots _ _
  unfold applyBulletin
  dsimp only
  split
  · rw [reevaluate_slots]
    exact hposted _
  · exact hposted _

/-! ## The kept bulletin (R93) -/

theorem exec_keptBulletinRetest (s : State) : exec .keptBulletinRetest s = .next (onCore retestKept s) := rfl
theorem exec_bufferHandOver (i : Fin 16) (s : State) : exec (.bufferHandOver i) s = .next (onCore (bufferHandOver i) s) := rfl

theorem retestOne_inert {c : Core} {i : Fin 16} (h : (slot c i).feeds .grants = false ∨ (slot c i).hasHanded = false) :
    retestOne c i = c := by
  refine if_neg ?_
  obtain h | h := h
  · simp [h]
  · simp [h]

theorem foldl_retestOne_inert {c : Core} (l : List (Fin 16))
    (h : ∀ i ∈ l, (slot c i).feeds .grants = false ∨ (slot c i).hasHanded = false) : l.foldl retestOne c = c := by
  induction l with
  | nil => rfl
  | cons i l ih =>
    rw [List.foldl_cons, retestOne_inert (h i List.mem_cons_self)]
    exact ih fun j hj => h j (List.mem_cons_of_mem _ hj)

/-- With one grant filter, the retest is that of its slot. -/
theorem retestKept_single {c : Core} {i : Fin 16} (hothers : ∀ j, j ≠ i → (slot c j).feeds .grants = false)
    (hkept : ∀ j, j ≠ i → slot (retestOne c i) j = slot c j) : retestKept c = retestOne c i := by
  have hfold : ∀ l : List (Fin 16), l.Nodup → i ∈ l → l.foldl retestOne c = retestOne c i := by
    intro l hn hmem
    induction l with
    | nil => cases hmem
    | cons j l ih =>
      obtain ⟨hj, hl⟩ := List.nodup_cons.mp hn
      rw [List.foldl_cons]
      by_cases hji : j = i
      · subst hji
        refine foldl_retestOne_inert l fun m hm => .inl ?_
        have hmj : m ≠ j := fun e => hj (e ▸ hm)
        rw [hkept m hmj]
        exact hothers m hmj
      · rw [retestOne_inert (.inl (hothers j hji))]
        exact ih hl ((List.mem_cons.mp hmem).resolve_left fun e => hji e.symm)
  exact hfold allSlots (by decide) (by fin_cases i <;> decide)

/-- A kept bulletin in buffer A of an otherwise empty slot. -/
def KeptIn (c : Core) (i : Fin 16) (t : Fin 4) (lane : Nat) (b : Buffer) (g : GrantBulletin) : Prop :=
  slot c i = { filter := some ⟨t, lane, .grants⟩, a := b, b := .free, asm := .idle } ∧ b.state = .handed ∧
    b.reading = some (.grants g)

theorem retestOne_keptIn {c : Core} {i : Fin 16} {t : Fin 4} {lane : Nat} {b : Buffer} {g : GrantBulletin}
    (h : KeptIn c i t lane b g) : retestOne c i = handOver 3 i c := by
  obtain ⟨hs, hb, -⟩ := h
  refine if_pos ?_
  rw [Bool.and_eq_true]
  exact ⟨by rw [hs]; rfl, Slot.hasHanded_iff.mpr (.inl (by rw [hs]; exact hb))⟩

theorem KeptIn.takeHanded {c : Core} {i : Fin 16} {t : Fin 4} {lane : Nat} {b : Buffer} {g : GrantBulletin}
    (h : KeptIn c i t lane b g) :
    takeHanded i c =
      match judgeBulletin g c with
      | .kept => (c, true)
      | .released => (setSlot i { slot c i with a := .free } c, false)
      | .applied k => (applyBulletin k g (setSlot i { slot c i with a := .free } c), false) := by
  obtain ⟨hs, hb, hr⟩ := h
  have ha : (slot c i).a.state = .handed := by rw [hs]; exact hb
  rw [takeHanded_grants (t := t) (lane := lane) (g := g) (by rw [hs]) ha (by rw [hs]; exact hr),
    releaseBuffer_a ha (by rw [hs]; nofun)]

/-- The retest of a kept bulletin, by the fate the tests now give it. -/
theorem KeptIn.retest {c c' : Core} {i : Fin 16} {t : Fin 4} {lane : Nat} {b : Buffer} {g : GrantBulletin}
    (h : KeptIn c i t lane b g) (htaken : Machine.takeHanded i c = (c', false))
    (hslots : c'.slots = (setSlot i { slot c i with a := .free } c).slots)
    (hothers : ∀ j, j ≠ i → (slot c j).feeds .grants = false) : retestKept c = c' := by
  have hown : slot c' i = { slot c i with a := .free } := (slot_of_slots hslots i).trans (slot_setSlot i _ c)
  obtain ⟨hs, -, -⟩ := id h
  have hone : retestOne c i = c' := by
    rw [retestOne_keptIn h]
    exact handOver_ends htaken (by rw [hown]; nofun) (by rw [hown, hs]; nofun)
  have hkept : ∀ j, j ≠ i → slot (retestOne c i) j = slot c j := fun j hj => by
    rw [hone]
    exact (slot_of_slots hslots j).trans (slot_setSlot_ne _ c (Ne.symm hj))
  rw [retestKept_single hothers hkept, hone]

/-! ## A cell for an open slot (R30) -/

theorem collectCell_slot {t : Fin 4} {h : CellHeader} {payload : List Byte} {reading : TableBody} {c : Core} {i : Fin 16}
    (hs : slotOn c t h.lane = some i) :
    collectCell t h payload reading c = handIfNew i ((slot c i).takeCell h payload reading) c := by
  rw [collectCell, hs]

theorem clearCell_unpresented {t : Fin 4} {h : CellHeader} {payload : List Byte} {c : Core} (hno : ∀ o, ¬Presents c t h.lane o) :
    clearCell t h payload c = c := by
  have hnone : presenting c t h.lane = [] := List.eq_nil_iff_forall_not_mem.mpr fun o ho => hno o (mem_presenting.mp ho)
  cases hp : parityKey h.parity with
  | none => rw [clearCell_clear hp, hnone, List.foldl_nil]
  | some p =>
    have hhandlers : handlers c t h.lane = [] :=
      List.eq_nil_iff_forall_not_mem.mpr fun k hk => by
        obtain ⟨o, ho, -⟩ := mem_handlers.mp hk
        exact hno o ho
    have hsame : enciphered t h p payload c = c := by rw [enciphered, hnone, hhandlers, List.foldl_nil, List.foldl_nil]
    rw [clearCell_enciphered hp, hsame, if_pos rfl]

/-- Settles O25: the assembly by the cell, the hand-over by the consumer, the retest by the fate of the bulletin. -/
theorem segmentsAreHandedOver : Obligations.SegmentsAreHandedOver := by
  unfold Obligations.SegmentsAreHandedOver
  refine ⟨fun x z h payload reading old put => ?assembly, fun t header payload reading i s => ?cell,
    fun i c t lane k => ?consumed, fun i s => ?handed, fun s => ?kept⟩
  case assembly =>
    intro after total emptied y begins inBuffer completes
    have hfirst : ∀ (z : Slot) (st : BufferState), inBuffer z st →
        ∃ second, z.FirstIn st second ∧ old = z.buffer second ∧ put = z.setBuffer second := by
      rintro z st (⟨ha, hold, hput⟩ | ⟨ha, hb, hold, hput⟩)
      · exact ⟨false, ⟨ha, fun e => nomatch e⟩, hold, hput⟩
      · exact ⟨true, ⟨hb, fun _ => ha⟩, hold, hput⟩
    have hbegins : begins → ∃ asm, after = ({ z with asm := asm } : Slot).begin h payload reading := fun hb => by
      obtain ⟨hp, hu, hz⟩ := hb
      exact Slot.takeCell_begins hp hu hz
    have hcompletes : ∀ (z : Slot) (bs : List Byte) (second : Bool), (z.buffer second).state ≠ .handed →
        put = z.setBuffer second → after = z.advance second bs 0 h.count reading → completes z bs := by
      intro z bs second hne hput hafter
      have := Slot.advance_completes hne hafter
      rw [← hput] at this
      exact this
    refine ⟨Slot.takeCell_enciphered, Slot.takeCell_waits, fun hb hno => ?skips, fun hb hin hlo hhi => ?collects,
      fun hb hin hlo => ?whole, fun needed next hp hu hx => ⟨Slot.takeCell_broken hp hu hx, fun hc hin hlo => ?goesOn,
        fun hc hin hlo => ?ends⟩⟩
    case skips =>
      obtain ⟨asm, hafter⟩ := hbegins hb
      exact hafter.trans (Slot.begin_skips hno)
    case collects =>
      obtain ⟨asm, hafter⟩ := hbegins hb
      obtain ⟨second, hs, hold, hput⟩ := hfirst z .free hin
      have hneeded : total - min total 156 = total - 156 := by omega
      have hmore : total - 156 ≠ 0 := by omega
      rw [hafter, Slot.begin_fits hs hhi, Slot.advance_asm, hold, hput]
      show z.advance second (payload.take total) (total - min total 156) h.count reading = _
      rw [hneeded, Slot.advance_more hmore]
    case whole =>
      obtain ⟨asm, hafter⟩ := hbegins hb
      obtain ⟨second, hs, -, hput⟩ := hfirst z .free hin
      have hdone : total - min total 156 = 0 := by omega
      refine hcompletes z _ second (by rw [hs.1]; decide) hput ?_
      rw [hafter, Slot.begin_fits hs (by show total ≤ 1024; omega), Slot.advance_asm]
      show z.advance second (payload.take total) (total - min total 156) h.count reading = _
      rw [hdone]
    case goesOn =>
      obtain ⟨second, hs, hold, hput⟩ := hfirst x .filling hin
      have hneeded : needed - min needed 156 = needed - 156 := by omega
      have hafter : after = _ := Slot.takeCell_continues hp hu hx hc hs
      rw [hafter, hneeded, Slot.advance_more (by omega), hold, hput, show (x.buffer second).state = .filling from hs.1]
    case ends =>
      obtain ⟨second, hs, hold, hput⟩ := hfirst x .filling hin
      have hdone : needed - min needed 156 = 0 := by omega
      refine hcompletes x _ second (by rw [hs.1]; decide) hput ?_
      have hafter : after = _ := Slot.takeCell_continues hp hu hx hc hs
      rw [hafter, hdone, hold]
  case cell =>
    intro h x after handed ht hl hp hs
    have harrival : exec (.cellArrival t header payload reading) s =
        .next { s with core := clearCell t h payload (handIfNew i after s.core) } := by
      rw [exec_cellArrival, onCore_eq (cellArrival_taken ht hl hp), collectCell_slot hs]
    refine ⟨fun hno hmiss => ?_, fun hbefore hafter => ?_⟩
    · have hunpresented : ∀ o, ¬Presents (setSlot i after s.core) t h.lane o := by
        rintro o ⟨-, htuner, e, hservice, hlane⟩
        exact hmiss o e htuner hservice hlane
      have hstored : handIfNew i after s.core = setSlot i after s.core :=
        handIfNew_none (hno.imp Slot.hasHanded_iff.mpr fun hn => Bool.not_eq_true _ ▸ mt Slot.hasHanded_iff.mp hn)
      rw [harrival, hstored, clearCell_unpresented hunpresented]
    · have hnone : x.hasHanded = false := Bool.not_eq_true _ ▸ mt Slot.hasHanded_iff.mp hbefore
      rw [harrival, handIfNew_new hnone (Slot.hasHanded_iff.mpr hafter)]
  case consumed =>
    intro x h c1 hf ha hb
    refine ⟨fun g cs es hk hr => ?_, fun n z hk hr => ?_, fun es hk hr => ?_, fun es hk hr => ?_, fun rs hk hr => ?_⟩
    · subst hk
      exact takeHanded_consumed hf nofun ha hb hr
    · subst hk
      exact takeHanded_consumed hf nofun ha hb hr
    · subst hk
      exact takeHanded_consumed hf nofun ha hb hr
    · subst hk
      exact takeHanded_consumed hf nofun ha hb hr
    · subst hk
      exact takeHanded_consumed hf nofun ha hb hr
  case handed =>
    intro x
    refine ⟨fun t lane b g k hf ha hb hr hfree hk => ?keys, fun hno => ?nothing⟩
    case keys =>
      subst ha
      have hnext : x.handNext = { x with a := { x.a with state := .handed } } := by
        simp [Slot.handNext, Slot.hasHanded, hb, hfree, Buffer.free]
      have hbefore : x.hasHanded = false := by simp [Slot.hasHanded, hb, hfree, Buffer.free]
      have hslot : slot (setSlot i x.handNext s.core) i = { x with a := { x.a with state := .handed } } := by
        rw [slot_setSlot, hnext]
      have htaken : takeHanded i (setSlot i x.handNext s.core) =
          (takeKeys k g (setSlot i { x with a := .free } s.core), false) := by
        rw [takeHanded_consumed (f := ⟨t, lane, .keys⟩) (r := .keys g) (by rw [hslot]; exact hf) nofun (by rw [hslot])
          (by rw [hslot]; simp [hfree, Buffer.free]) (by rw [hslot]; exact hr), hslot, setSlot_setSlot]
        have hat : keySlotAt (setSlot i { x with a := .free } s.core) t lane = some k := hk
        unfold consume
        dsimp only
        rw [hat]
      have hslots := (slot_of_slots (takeKeys_slots k g (setSlot i { x with a := .free } s.core)) i).trans (slot_setSlot i _ _)
      have hhanded : bufferHandOver i s.core = takeKeys k g (setSlot i { x with a := .free } s.core) := by
        refine (handIfNew_new hbefore (by rw [show (slot s.core i).handNext = _ from hnext]; simp [Slot.hasHanded])).trans ?_
        exact handOver_ends htaken (by rw [hslots]; nofun) (by rw [hslots]; simp [hfree, Buffer.free])
      rw [exec_bufferHandOver, onCore_eq hhanded]
    case nothing =>
      have hsame : x.handNext = x := hno.elim (fun h => Slot.handNext_handed (Slot.hasHanded_iff.mpr h))
        fun h => Slot.handNext_none h.1 h.2
      have hquiet : (slot s.core i).hasHanded = true ∨ x.handNext.hasHanded = false := by
        rw [hsame]
        cases x.hasHanded with
        | true => exact .inl rfl
        | false => exact .inr rfl
      have hhanded : bufferHandOver i s.core = s.core := by
        refine (handIfNew_none hquiet).trans ?_
        rw [show (slot s.core i).handNext = slot s.core i from hsame]
        exact setSlot_self i s.core
      rw [exec_bufferHandOver, onCore_eq hhanded]
  case kept =>
    refine ⟨fun hno => ?none, fun i t lane b g hs hb hr hothers => ?one⟩
    case none =>
      have hnone : retestKept s.core = s.core := foldl_retestOne_inert allSlots fun i _ => hno i
      rw [exec_keptBulletinRetest, onCore_eq hnone]
    case one =>
      have hin : KeptIn s.core i t lane b g := ⟨hs, hb, hr⟩
      refine ⟨fun hj => ?_, fun hj => ?_, fun k hj => ?_⟩
      · have htaken := hin.takeHanded
        rw [hj] at htaken
        have hone : retestOne s.core i = s.core := (retestOne_keptIn hin).trans (handOver_kept htaken)
        have hkept : retestKept s.core = s.core := (retestKept_single hothers fun j _ => by rw [hone]).trans hone
        rw [exec_keptBulletinRetest, onCore_eq hkept]
      · have htaken := hin.takeHanded
        rw [hj] at htaken
        rw [exec_keptBulletinRetest, onCore_eq (hin.retest htaken rfl hothers)]
      · have htaken := hin.takeHanded
        rw [hj] at htaken
        rw [exec_keptBulletinRetest, onCore_eq (hin.retest htaken (applyBulletin_slots _ _ _) hothers)]

end Sys2Proof.Machine
end

section
/-! Claims on tuners and the selection of a channel (R22 to R26, R42, R43, R45, R55, R132). -/

namespace Sys2Proof.Machine

open Sys2Proof

/-! ## What giving up a key slot changes (R70) -/

theorem closeKeyFilter_frame (k : Fin 4) (c : Core) : ∃ v w, closeKeyFilter k c = { c with keys := v, slots := w } := by
  unfold closeKeyFilter
  dsimp only
  split
  · exact ⟨_, _, by rw [closeWhere_frame]; rfl⟩
  · exact ⟨c.keys, c.slots, rfl⟩

theorem dropRef_frame (k : Fin 4) (c : Core) : ∃ v w, dropRef k c = { c with keys := v, slots := w } := by
  obtain ⟨v, w, hclosed⟩ := closeKeyFilter_frame k c
  unfold dropRef
  dsimp only
  split
  · exact ⟨_, _, by rw [hclosed]; rfl⟩
  · exact ⟨_, c.slots, rfl⟩

theorem session_dropRef (k : Fin 4) (c : Core) (o : Output) : session (dropRef k c) o = session c o := by
  obtain ⟨v, w, h⟩ := dropRef_frame k c
  rw [h]
  rfl

theorem unbindKey_none {o : Output} {c : Core} (h : (session c o).slot = none) : unbindKey o c = c := by
  rw [unbindKey, h]

theorem unbindKey_some {o : Output} {c : Core} {k : Fin 4} (h : (session c o).slot = some k) :
    unbindKey o c = setSession o { session c o with slot := none } (dropRef k c) := by
  rw [unbindKey, h]
  dsimp only
  rw [setSessionSlot, session_dropRef]

theorem unbindKey_frame (o : Output) (c : Core) :
    ∃ u v w, unbindKey o c = { c with keys := v, slots := w, rooms := { c.rooms with sessions := u } } := by
  cases h : (session c o).slot with
  | none => exact ⟨c.rooms.sessions, c.keys, c.slots, by rw [unbindKey_none h]⟩
  | some k =>
    obtain ⟨v, w, hd⟩ := dropRef_frame k c
    exact ⟨_, v, w, by rw [unbindKey_some h, hd]; rfl⟩

/-- A session that gives up its key slot changes in that alone. -/
theorem session_unbindKey (o : Output) (c : Core) : session (unbindKey o c) o = { session c o with slot := none } := by
  cases h : (session c o).slot with
  | none =>
    rw [unbindKey_none h]
    rw [← h]
  | some k => rw [unbindKey_some h, session_setSession]

theorem unbindKey_arb (o : Output) (c : Core) : (unbindKey o c).arb = c.arb := by
  obtain ⟨u, v, w, h⟩ := unbindKey_frame o c
  rw [h]

theorem heldTuner_of_arb {c c' : Core} (h : c'.arb = c.arb) (x : Claimant) : heldTuner c' x = heldTuner c x := by
  unfold heldTuner tuner
  rw [h]

/-! ## The plan of a claim (R22 to R25) -/

theorem planClaim_on {c : Core} {x : Claimant} {car : Carrier} {m : ClaimMode} {t : Fin 4} (h : tunerOn c car = some t) :
    planClaim c x car m = if (tuner c t).holders.has x = true then .keep t else .join t := by
  rw [planClaim, h]

theorem firstTuner_off_none {c : Core} (h : ∀ v, (tuner c v).state ≠ .off) : firstTuner c (·.state == .off) = none :=
  firstTuner_none fun v => by simp [h v]

theorem Holders.only_iff {h : Holders} {x : Claimant} : h.only x = true ↔ h = Holders.none.put x true := by simp [Holders.only]

theorem planClaim_retune {c : Core} {x : Claimant} {car : Carrier} {m : ClaimMode} {t : Fin 4} (h : tunerOn c car = none)
    (hoff : ∀ v, (tuner c v).state ≠ .off) (ht : (tuner c t).holders = Holders.none.put x true)
    (hl : ∀ v, v < t → (tuner c v).holders ≠ Holders.none.put x true) : planClaim c x car m = .retune t := by
  have hfirst : firstTuner c (fun u => u.holders.only x) = some t :=
    firstTuner_some (Holders.only_iff.mpr ht) fun v hv => Bool.not_eq_true _ ▸ mt Holders.only_iff.mp (hl v hv)
  rw [planClaim, h, firstTuner_off_none hoff, hfirst]

theorem planClaim_others {c : Core} {x : Claimant} {car : Carrier} {m : ClaimMode} (h : tunerOn c car = none)
    (hoff : ∀ v, (tuner c v).state ≠ .off) (honly : ∀ v, (tuner c v).holders ≠ Holders.none.put x true) :
    planClaim c x car m =
      match (takeable x m).findSome? fun p => firstTuner c fun u => p u.holders with
      | some t => .preempt t
      | none => .refused := by
  have hnone : firstTuner c (fun u => u.holders.only x) = none :=
    firstTuner_none fun v => Bool.not_eq_true _ ▸ mt Holders.only_iff.mp (honly v)
  rw [planClaim, h, firstTuner_off_none hoff, hnone] <;> rfl

theorem planClaim_preempt {c : Core} {x : Claimant} {car : Carrier} {m : ClaimMode} {t : Fin 4} {before after : List (Holders → Bool)}
    {p : Holders → Bool} (h : tunerOn c car = none) (hoff : ∀ v, (tuner c v).state ≠ .off)
    (honly : ∀ v, (tuner c v).holders ≠ Holders.none.put x true) (hl : takeable x m = before ++ p :: after)
    (hbefore : ∀ q ∈ before, ∀ v, q (tuner c v).holders = false) (hp : p (tuner c t).holders = true)
    (hlow : ∀ v, v < t → p (tuner c v).holders = false) : planClaim c x car m = .preempt t := by
  have hskip : before.findSome? (fun p => firstTuner c fun u => p u.holders) = none :=
    List.findSome?_eq_none_iff.mpr fun q hq => firstTuner_none (hbefore q hq)
  have hfirst : firstTuner c (fun u => p u.holders) = some t := firstTuner_some hp hlow
  rw [planClaim_others h hoff honly, hl, List.findSome?_append, hskip, List.findSome?_cons, hfirst]
  rfl

theorem planClaim_refused {c : Core} {x : Claimant} {car : Carrier} {m : ClaimMode} (h : tunerOn c car = none)
    (hoff : ∀ v, (tuner c v).state ≠ .off) (honly : ∀ v, (tuner c v).holders ≠ Holders.none.put x true)
    (hno : ∀ p ∈ takeable x m, ∀ v, p (tuner c v).holders = false) : planClaim c x car m = .refused := by
  have hskip : (takeable x m).findSome? (fun p => firstTuner c fun u => p u.holders) = none :=
    List.findSome?_eq_none_iff.mpr fun q hq => firstTuner_none (hno q hq)
  rw [planClaim_others h hoff honly, hskip]

theorem Holders.background_eq (h : Holders) : h.background = decide ((h.sweep = true ∨ h.watch = true) ∧
    h.roomA = false ∧ h.roomB = false ∧ h.record1 = false ∧ h.record2 = false) := by
  simp [Holders.background, Bool.decide_and, Bool.decide_or, Bool.and_assoc]

/-- The rooms' tuners that a booking which takes them may take, in order. -/
def roomTuners : List (Holders → Bool) :=
  [fun h => h.only (.out .roomB), fun h => h.only (.out .roomA),
   fun h => h == (Holders.none.put (.out .roomA) true).put (.out .roomB) true]

theorem takeable_record {x : Claimant} (h : x = .out .record1 ∨ x = .out .record2) :
    takeable x (.booking true) = Holders.background :: roomTuners := by
  obtain rfl | rfl := h
  · rfl
  · rfl

theorem takeable_recordHost {x : Claimant} {m : ClaimMode} (h : x = .out .record1 ∨ x = .out .record2) (hm : m ≠ .booking true) :
    takeable x m = [Holders.background] := by
  obtain rfl | rfl := h
  · cases m with
    | host => rfl
    | booking b =>
      cases b with
      | false => rfl
      | true => exact absurd rfl hm
  · cases m with
    | host => rfl
    | booking b =>
      cases b with
      | false => rfl
      | true => exact absurd rfl hm

theorem takeable_room {x : Claimant} {m : ClaimMode} (h : x = .out .roomA ∨ x = .out .roomB) : takeable x m = [Holders.background] := by
  obtain rfl | rfl := h
  · rfl
  · rfl

theorem takeable_background {x : Claimant} {m : ClaimMode} (h : x = .sweep ∨ x = .watch) : takeable x m = [] := by
  obtain rfl | rfl := h
  · rfl
  · rfl

/-! ## Carrying out a claim (R23 to R26) -/

theorem handLeft_eq (t : Fin 4) (u : Tuner) (d : Core) :
    handLeft stopSession t u d =
      let d := setLaneMap t .empty (settleControl (closeTunerSlots t d))
      let d := if u.state = .locked ∨ u.state = .lost then carrierUnlocked stopSession u.carrier d else d
      if u.state = .locked ∧ u.holders.hasOther = true then watchTest d else d := by
  unfold handLeft
  simp only [Bool.or_eq_true, Bool.and_eq_true, decide_eq_true_eq]

theorem leaveOld_none {x : Claimant} {t : Fin 4} {d : Core} : leaveOld x none t d = d := rfl

theorem leaveOld_same {x : Claimant} {t : Fin 4} {d : Core} : leaveOld x (some t) t d = d := if_pos rfl

theorem leaveOld_alone {x : Claimant} {t v : Fin 4} {d : Core} (hv : v ≠ t) (h : (tuner d v).holders = Holders.none.put x true) :
    leaveOld x (some v) t d = handLeft stopSession v (tuner d v) (turnOff v d) :=
  (if_neg hv).trans (if_pos (Holders.only_iff.mpr h))

theorem leaveOld_among {x : Claimant} {t v : Fin 4} {d : Core} (hv : v ≠ t) (h : (tuner d v).holders ≠ Holders.none.put x true) :
    leaveOld x (some v) t d = setHolder v x false d := (if_neg hv).trans (if_neg (mt Holders.only_iff.mp h))

theorem carryOut_join (x : Claimant) (car : Carrier) (t : Fin 4) (c : Core) :
    carryOut x car (.join t) c =
      let d := leaveOld x (heldTuner c x) t (setHolder t x true c)
      if x ≠ .watch ∧ (tuner d t).state = .locked ∧ (tuner d t).holders.watch = true then watchEnds d else d := by
  unfold carryOut
  simp only [Bool.and_eq_true, decide_eq_true_eq, and_assoc]

/-! ## A holder that loses its tuner to a claim (R55) -/

theorem postSession_eq (o : Output) (c : Core) :
    postSession o c = post (.sessionState o (session c o).state (session c o).reasons (session c o).lcn (session c o).event) c := rfl

/-- The session of `o` that a holder's loss holds with reasons. -/
def Session.heldFor (x : Session) (r : Reasons) : Session :=
  { x with
    state := .held, reasons := r, tuner := none, service := none, slot := none, event := none, ret := none, change := .absent
    laneWait := { x.laneWait with running := false }, keyWait := { x.keyWait with running := false } }

/-- A session held for good, before its tuner is released (R45, R55, R60). -/
theorem holdTerminal_eq (o : Output) (r : Reasons) (outcome : ChangeOutcome) (rs : Option Reasons) (c : Core) :
    holdTerminal o r outcome rs c = release (.out o)
      (if (session c o).change = .absent then
        post (.sessionState o .held r (session c o).lcn none) (setSession o ((session c o).heldFor r) (unbindKey o c))
      else endChange o (session c o) outcome rs (setSession o ((session c o).heldFor r) (unbindKey o c))) := by
  unfold holdTerminal
  dsimp only
  rw [session_unbindKey]
  by_cases hc : (session c o).change = .absent
  · rw [if_pos hc, if_neg (by simp [ChangeTag.inFlight, hc]), postSession_eq, session_setSession]
    rfl
  · rw [if_neg hc, if_pos (by simp [ChangeTag.inFlight, hc])]
    rfl

theorem endChange_arb (o : Output) (x : Session) (outcome : ChangeOutcome) (rs : Option Reasons) (c : Core) :
    (endChange o x outcome rs c).arb = c.arb := (endChange_sessions (.refl c)).arb

/-- With no tuner to release, the report is the last of it. -/
theorem holdTerminal_unheld {o : Output} {r : Reasons} {outcome : ChangeOutcome} {rs : Option Reasons} {c : Core}
    (h : heldTuner c (.out o) = none) :
    holdTerminal o r outcome rs c =
      if (session c o).change = .absent then
        post (.sessionState o .held r (session c o).lcn none) (setSession o ((session c o).heldFor r) (unbindKey o c))
      else endChange o (session c o) outcome rs (setSession o ((session c o).heldFor r) (unbindKey o c)) := by
  rw [holdTerminal_eq]
  refine release_none ((heldTuner_of_arb ?_ (.out o)).trans h)
  split
  · exact unbindKey_arb o c
  · exact (endChange_arb _ _ _ _ _).trans (unbindKey_arb o c)

/-! ## SELECT CHANNEL (R42) -/

theorem exec_selectChannel (tag : Byte) (a : Option SelectReq) (s : State) : exec (.selectChannel tag a) s = execSelectChannel tag a s :=
  rfl

theorem outputOf_none {n : Nat} (h : 3 < n) : outputOf n = none := by
  match n, h with
  | _ + 4, _ => rfl

theorem lcnInRange_false {n : Nat} (h : ¬(1 ≤ n ∧ n ≤ 9999)) : lcnInRange n = false := by
  rw [← Bool.not_eq_true, lcnInRange_iff]
  exact h

theorem selectChannel_misfit {tag : Byte} {a : SelectReq} (c : Core) (h : ¬(a.output ≤ 3 ∧ 1 ≤ a.lcn ∧ a.lcn ≤ 9999)) :
    selectChannel tag a c = (.bare .badRequest, c) := by
  unfold selectChannel
  by_cases ho : a.output ≤ 3
  · obtain ⟨o, ho'⟩ := outputOf_isSome ho
    rw [ho']
    exact if_pos (by simp [lcnInRange_false fun hl => h ⟨ho, hl⟩])
  · rw [outputOf_none (by omega)]

theorem selectChannel_formed {tag : Byte} {a : SelectReq} {c : Core} {o : Output} (ho : outputOf a.output = some o)
    (hl : 1 ≤ a.lcn ∧ a.lcn ≤ 9999) :
    selectChannel tag a c =
      match findChannel c a.lcn with
      | none => (.bare .noSuch, c)
      | some e =>
        if (Output.room o).isSome && c.clock.power = .standby then (.bare .standby, c)
        else if (Output.room o).isNone && (session c o).origin.isBooking then (.bare .booked, c)
        else (.bare .accepted, select o a.lcn e (.tag tag) .host .host (endGrant o c)) := by
  rw [selectChannel, ho]
  exact if_neg (by simp [lcnInRange_iff.mpr hl])

theorem replies_selectChannel {tag : Byte} {a : SelectReq} {s : State} {code : Code} {c : Core}
    (hh : Handled (.selectChannel tag (some a)) s) (hf : selectChannel tag a s.core = (.bare code, c)) :
    Replies (.selectChannel tag (some a)) tag code .none c s :=
  replies_of_answeredWith (exec_selectChannel tag (some a) s) hh hf

theorem outputOf_room {n : Nat} {o : Output} (ho : outputOf n = some o) (h : n ≤ 1) : (Output.room o).isSome = true := by
  match n, h with
  | 0, _ => cases ho; rfl
  | 1, _ => cases ho; rfl

theorem outputOf_record {n : Nat} {o : Output} (h : (n, o) ∈ [(2, Output.record1), (3, .record2)]) :
    outputOf n = some o ∧ Output.room o = none := by
  simp only [List.mem_cons, Prod.mk.injEq, List.not_mem_nil, or_false] at h
  obtain ⟨rfl, rfl⟩ | ⟨rfl, rfl⟩ := h
  · exact ⟨rfl, rfl⟩
  · exact ⟨rfl, rfl⟩

/-- Settles O26: the checks of SELECT CHANNEL, in their order. -/
theorem selectionIsRefused : Obligations.SelectionIsRefused := by
  unfold Obligations.SelectionIsRefused
  intro tag a s hh c answers formed
  refine ⟨fun h => replies_selectChannel hh (selectChannel_misfit c h), fun h hf => ?noSuch, fun h hf ho hp => ?standby,
    fun o id h hf ho hid => ?booked⟩
  case noSuch =>
    obtain ⟨o, ho⟩ := outputOf_isSome h.1
    exact replies_selectChannel hh (by rw [selectChannel_formed ho h.2, show findChannel s.core a.lcn = none from hf])
  case standby =>
    obtain ⟨o, hout⟩ := outputOf_isSome h.1
    obtain ⟨e, he⟩ := Option.isSome_iff_exists.mp hf
    refine replies_selectChannel hh ?_
    rw [selectChannel_formed hout h.2, show findChannel s.core a.lcn = some e from he]
    exact if_pos (by simp [outputOf_room hout ho, show s.core.clock.power = .standby from hp])
  case booked =>
    obtain ⟨hout, hroom⟩ := outputOf_record ho
    obtain ⟨e, he⟩ := Option.isSome_iff_exists.mp hf
    refine replies_selectChannel hh ?_
    rw [selectChannel_formed hout h.2, show findChannel s.core a.lcn = some e from he]
    exact (if_neg (by simp [hroom])).trans
      (if_pos (by simp [hroom, show (session s.core o).origin = .booking id from hid, Origin.isBooking]))

/-! ## A selection with no change in flight (R43, R132) -/

theorem endGrant_frame (o : Output) (c : Core) : ∃ v, endGrant o c = { c with rooms := { c.rooms with contexts := v } } := by
  unfold endGrant
  split
  · exact ⟨c.rooms.contexts, rfl⟩
  · exact ⟨_, rfl⟩

theorem context_endGrant (o : Output) (c : Core) (r : Room) :
    context (endGrant o c) r = if Room.output r = o then { context c r with grant := none } else context c r := by
  cases o with
  | roomA =>
    cases r with
    | a => exact context_setContext .a _ c
    | b => exact context_setContext_ne _ c (by decide)
  | roomB =>
    cases r with
    | a => exact context_setContext_ne _ c (by decide)
    | b => exact context_setContext .b _ c
  | record1 =>
    cases r with
    | a => rfl
    | b => rfl
  | record2 =>
    cases r with
    | a => rfl
    | b => rfl

/-- A selection that supersedes no change claims its channel's carrier at once. -/
theorem select_fresh {o : Output} {lcn : Nat} {e : ChannelEntry} {tag : ChangeTag} {origin : Origin} {m : ClaimMode} {c : Core}
    {x : Carrier} (hchange : (session c o).change = .absent) (hx : resolve c e.carrierNo = some x) :
    select o lcn e tag origin m c = claimFor o lcn x tag origin m (changeRefused o lcn tag origin false) c := by
  have hflight : (session c o).change.inFlight = false := by rw [hchange]; rfl
  have hsame : supersede o c = c := if_neg (by rw [hflight]; decide)
  rw [select, hflight, hsame, beginChange, hx]

theorem claimFor_refused {o : Output} {lcn : Nat} {x : Carrier} {tag : ChangeTag} {origin : Origin} {m : ClaimMode}
    {refusedBy : Core → Core} {c : Core} (hp : planClaim c (.out o) x m = .refused) :
    claimFor o lcn x tag origin m refusedBy c = refusedBy c := by
  unfold claimFor
  rw [hp]
  rfl

theorem claimFor_take {o : Output} {lcn : Nat} {x : Carrier} {tag : ChangeTag} {origin : Origin} {m : ClaimMode}
    {refusedBy : Core → Core} {c : Core} {t : Fin 4} (hp : planClaim c (.out o) x m = .take t)
    (hheld : heldTuner c (.out o) = none) :
    claimFor o lcn x tag origin m refusedBy c =
      tune t x (Holders.none.put (.out o) true)
        (setSession o ((session c o).started lcn x t .acquiring tag origin) c) := by
  have hcarried : ∀ y, carryOut (.out o) x (.take t) (setSession o y c) =
      tune t x (Holders.none.put (.out o) true) (setSession o y c) := fun y => by
    have hnone : heldTuner (setSession o y c) (.out o) = none := hheld
    unfold carryOut
    dsimp only
    rw [hnone, leaveOld_none]
  unfold claimFor
  rw [hp]
  dsimp only [Plan.answer]
  rw [hcarried]
  exact if_neg (by decide)

/-- What a first selection on an output asks of the blocks: a channel on a carrier no tuner is on, and no tuner held. -/
structure FreshSelection (c : Core) (o : Output) (lcn : Nat) (e : ChannelEntry) (x : Carrier) : Prop where
  channel : findChannel c lcn = some e
  carrier : resolve c e.carrierNo = some x
  active : c.clock.power = .active
  host : (session c o).origin = .host
  change : (session c o).change = .absent
  untuned : tunerOn c x = none
  unheld : heldTuner c (.out o) = none

theorem FreshSelection.selectChannel {tag : Byte} {n lcn : Nat} {o : Output} {e : ChannelEntry} {x : Carrier} {c : Core}
    (h : FreshSelection c o lcn e x) (ho : outputOf n = some o) (h1 : 1 ≤ lcn) (h2 : lcn ≤ 9999) :
    selectChannel tag ⟨n, lcn⟩ c =
      (.bare .accepted, claimFor o lcn x (.tag tag) .host .host (changeRefused o lcn (.tag tag) .host false) (endGrant o c)) := by
  obtain ⟨v, hv⟩ := endGrant_frame o c
  have hselect : select o lcn e (.tag tag) .host .host (endGrant o c) =
      claimFor o lcn x (.tag tag) .host .host (changeRefused o lcn (.tag tag) .host false) (endGrant o c) :=
    select_fresh (by rw [hv]; exact h.change) (by rw [hv]; exact h.carrier)
  rw [selectChannel_formed ho ⟨h1, h2⟩, h.channel]
  dsimp only
  rw [if_neg (by simp [h.active]), if_neg (by simp [h.host, Origin.isBooking]), hselect]

theorem not_only_of_unheld {c : Core} {x : Claimant} (h : heldTuner c x = none) (v : Fin 4) :
    (tuner c v).holders ≠ Holders.none.put x true := fun he => by
  have honly := Holders.only_false_of_has (heldTuner_eq_none_iff.mp h v)
  rw [Holders.only_iff.mpr he] at honly
  cases honly

theorem takeable_host {o : Output} : takeable (.out o) .host = [Holders.background] := by
  cases o with
  | roomA => rfl
  | roomB => rfl
  | record1 => rfl
  | record2 => rfl

theorem planClaim_background_refused {c : Core} {o : Output} {x : Carrier} (ht : tunerOn c x = none)
    (hheld : heldTuner c (.out o) = none)
    (hno : ∀ t, (tuner c t).state ≠ .off ∧ (tuner c t).holders.background = false) :
    planClaim c (.out o) x .host = .refused := by
  refine planClaim_refused ht (fun v => (hno v).1) (not_only_of_unheld hheld) fun p hp v => ?_
  rw [takeable_host, List.mem_singleton] at hp
  rw [hp]
  exact (hno v).2

/-- Settles O27: a claim by its plan, the plan by its cases, the selection as a claim with no tuner held. -/
theorem selectionStartsChange : Obligations.SelectionStartsChange := by
  unfold Obligations.SelectionStartsChange
  refine ⟨fun x car m c => ?plans, fun x car t c => ?carries, fun o c => ?told, fun tag n lcn o e x s => ?selects⟩
  case plans =>
    intro held plan background rooms records classes
    have hbackground : background = Holders.background := funext fun h => (Holders.background_eq h).symm
    have hrooms : rooms = roomTuners := by
      simp only [rooms, roomTuners, Holders.only, beq_eq_decide]
    have hclasses : ∀ l, classes l → takeable x m = l := by
      rintro l (⟨⟨hx, rfl⟩, rfl⟩ | ⟨⟨hx, hm⟩ | hx, rfl⟩ | ⟨hx, rfl⟩)
      · rw [takeable_record hx, hbackground, hrooms]
      · rw [takeable_recordHost hx hm, hbackground]
      · rw [takeable_room hx, hbackground]
      · rw [takeable_background hx]
    refine ⟨fun t ht => planClaim_on ht, fun ht => ⟨fun t hoff hl => planClaim_take ht hoff hl, fun hoff =>
      ⟨fun t => planClaim_retune ht hoff, fun l hl honly => ⟨fun before p after t hsplit => ?_, fun hno => ?_⟩⟩⟩⟩
    · exact planClaim_preempt ht hoff honly ((hclasses l hl).trans hsplit)
    · exact planClaim_refused ht hoff honly (by rw [hclasses l hl]; exact hno)
  case carries =>
    intro u old quit tuned joined leave removed
    have hquit : ∀ t u d, quit t u d = handLeft stopSession t u d := fun t u d => (handLeft_eq t u d).symm
    have htuned : tuned = tune t car (Holders.none.put x true) c := (tune_eq t car _ c).symm
    have hleave : ∀ d, leave d = leaveOld x old t d := by
      intro d
      simp only [leave]
      cases old with
      | none => rfl
      | some v =>
        dsimp only
        split
        · next hv => rw [hv, leaveOld_same]
        · next hv =>
          split
          · next h => rw [leaveOld_alone hv h, hquit, turnOff_eq]
          · next h => rw [leaveOld_among hv h, setHolder]
    refine ⟨rfl, rfl, ?_, ?_, ?_, ?_⟩
    · rw [hleave]
      exact carryOut_join x car t c
    · rw [hleave, htuned]
      rfl
    · rw [hquit, htuned]
      rfl
    · rw [hleave, hquit, htuned]
      rfl
  case told =>
    intro x taken gone
    refine ⟨rfl, rfl, fun hheld => ?_⟩
    refine (holdTerminal_unheld hheld).trans ?_
    split
    · rfl
    · rw [endChange_eq]
      rfl
  case selects =>
    intro i c0 hh ho h1 h2 hf hx hactive hhost hchange ht hheld
    have hfresh : FreshSelection c0 o lcn e x := ⟨hf, hx, hactive, hhost, hchange, ht, hheld⟩
    have hreplies := hfresh.selectChannel (tag := tag) (outputOf_of_mem ho) h1 h2
    obtain ⟨v, hgrant⟩ := endGrant_frame o c0
    have ht' : tunerOn (endGrant o c0) x = none := by rw [hgrant]; exact ht
    have hheld' : heldTuner (endGrant o c0) (.out o) = none := by rw [hgrant]; exact hheld
    have hsession : ∀ p, session (endGrant o c0) p = session c0 p := fun p => by rw [hgrant]; rfl
    have htuners : ∀ v, tuner (endGrant o c0) v = tuner c0 v := fun v => by rw [hgrant]; rfl
    refine ⟨fun t hoff hl => ?takes, fun hno => ?refused⟩
    case takes =>
      have hplan : planClaim (endGrant o c0) (.out o) x .host = .take t := by
        refine planClaim_take ht' ?_ fun v hv => ?_
        · rw [htuners]; exact hoff
        · rw [htuners]; exact hl v hv
      refine ⟨_, replies_selectChannel hh (hreplies.trans (by rw [claimFor_take hplan hheld'])), ?_⟩
      rw [tune_eq, hsession]
      refine ⟨?_, ?_, ?_, fun v hv => ?_, fun p hp => ?_, fun r => context_endGrant o c0 r, ?_⟩
      · exact session_setSession o _ _
      · rw [tuner_setTuner, hgrant]
        rfl
      · rw [hgrant]
        rfl
      · rw [tuner_setTuner_ne _ _ (Ne.symm hv), hgrant]
        rfl
      · exact (session_setSession_ne _ _ (Ne.symm hp)).trans (hsession p)
      · rw [hgrant]
        rfl
    case refused =>
      have hplan : planClaim (endGrant o c0) (.out o) x .host = .refused :=
        planClaim_background_refused ht' hheld' fun v => by rw [htuners]; exact hno v
      refine ⟨_, replies_selectChannel hh (hreplies.trans (by rw [claimFor_refused hplan])), ?_, fun r => ?_⟩
      · rw [hgrant]
        rfl
      · exact context_endGrant o c0 r

end Sys2Proof.Machine
end

section
/-! STOP OUTPUT (R51, R52). -/

namespace Sys2Proof.Machine

open Sys2Proof

/-- A recording that runs, of id 1. -/
def runningBooking : Booking :=
  { id := 1, kind := .recording, lcn := 1, link := none, start := 0, finish := 60, lead := 0, output := .any, inUse := none,
    takesRoom := false, extended := false, state := .active }

/-- A part past its scan, with a room's session of origin BOOKING that holds no tuner and has no change in flight. -/
def bookedRoom : State :=
  { State.reset with core := { State.reset.core with
      store := { State.reset.core.store with state := .idle }
      clock := { State.reset.core.clock with bookings := [runningBooking] }
      rooms := { State.reset.core.rooms with
        sessions := State.reset.core.rooms.sessions.set 0 { Session.idle with origin := .booking 1 } } } }

theorem stopSession_bookedRoom :
    (stopSession .roomA bookedRoom.core).clock.bookings = [{ runningBooking with state := .missed }] := by decide

theorem exec_stopOutput (tag : Byte) (a : Option Nat) (s : State) : exec (.stopOutput tag a) s = execStopOutput tag a s := rfl

theorem handled_bookedRoom : Handled (.stopOutput 1 (some 0)) bookedRoom := ⟨by decide, by decide⟩

/-- Refutes O28: a room's session whose origin is a booking hands its stop to that booking, which is then MISSED, so that STOP OUTPUT leaves
more than the IDLE session. -/
theorem not_outputIsStopped : ¬ Obligations.OutputIsStopped := by
  unfold Obligations.OutputIsStopped
  intro h
  obtain ⟨-, -, hstop⟩ := h 1 0 bookedRoom handled_bookedRoom
  obtain ⟨c, hreplies, -, -, hc⟩ := hstop .roomA (by decide) (.inl (by decide)) (by unfold noneExtended; decide)
  have hmodel : Replies (.stopOutput 1 (some 0)) 1 .ok .none (stopSession .roomA bookedRoom.core) bookedRoom :=
    replies_of_answeredWith (exec_stopOutput 1 (some 0) bookedRoom) handled_bookedRoom rfl
  have hnext : replied (.reply 1 .ok .none) c bookedRoom = replied (.reply 1 .ok .none) (stopSession .roomA bookedRoom.core) bookedRoom :=
    Host.Outcome.next.inj (hreplies.symm.trans hmodel)
  have hsame : c = stopSession .roomA bookedRoom.core := congrArg State.core hnext
  have hbookings : c.clock.bookings = [runningBooking] := by
    rw [hc (by decide) (by decide)]
    rfl
  rw [hsame, stopSession_bookedRoom] at hbookings
  exact absurd hbookings (by decide)

end Sys2Proof.Machine
end

section
/-! Lane maps, and the ends of a session's waits (R40, R41, R45, R47). -/

namespace Sys2Proof.Machine

open Sys2Proof

/-! ## What binding a key slot changes (R67 to R70) -/

/-- Only the key slots, the filter slots and the sessions have changed. -/
def KeysMoved (c c' : Core) : Prop := ∃ u v w, c' = { c with keys := v, slots := w, rooms := { c.rooms with sessions := u } }

theorem KeysMoved.refl (c : Core) : KeysMoved c c := ⟨c.rooms.sessions, c.keys, c.slots, rfl⟩

theorem KeysMoved.trans {a b c : Core} (h : KeysMoved a b) (k : KeysMoved b c) : KeysMoved a c := by
  obtain ⟨u, v, w, rfl⟩ := h
  obtain ⟨u', v', w', rfl⟩ := k
  exact ⟨u', v', w', rfl⟩

theorem KeysMoved.setSession {c0 c : Core} (h : KeysMoved c0 c) (o : Output) (x : Session) : KeysMoved c0 (setSession o x c) :=
  h.trans ⟨_, c.keys, c.slots, rfl⟩

theorem KeysMoved.setKeySlot {c0 c : Core} (h : KeysMoved c0 c) (k : Fin 4) (x : KeySlot) : KeysMoved c0 (setKeySlot k x c) :=
  h.trans ⟨c.rooms.sessions, _, c.slots, rfl⟩

theorem KeysMoved.openFilter {c0 c : Core} (h : KeysMoved c0 c) (f : Filter) : KeysMoved c0 (openFilter f c) := by
  obtain ⟨v, hv⟩ := openFilter_frame f c
  exact h.trans ⟨c.rooms.sessions, c.keys, v, hv⟩

theorem KeysMoved.closeKeyFilter {c0 c : Core} (h : KeysMoved c0 c) (k : Fin 4) : KeysMoved c0 (closeKeyFilter k c) := by
  obtain ⟨v, w, hv⟩ := closeKeyFilter_frame k c
  exact h.trans ⟨c.rooms.sessions, v, w, hv⟩

theorem KeysMoved.dropRef {c0 c : Core} (h : KeysMoved c0 c) (k : Fin 4) : KeysMoved c0 (dropRef k c) := by
  obtain ⟨v, w, hv⟩ := dropRef_frame k c
  exact h.trans ⟨c.rooms.sessions, v, w, hv⟩

theorem KeysMoved.unbindKey {c0 c : Core} (h : KeysMoved c0 c) (o : Output) : KeysMoved c0 (unbindKey o c) :=
  h.trans (unbindKey_frame o c)

theorem KeysMoved.dropOld {c0 c : Core} (h : KeysMoved c0 c) (old : Option (Fin 4)) : KeysMoved c0 (dropOld old c) := by
  cases old with
  | none => exact h
  | some k => exact h.dropRef k

theorem KeysMoved.ensureKeyFilter {c0 c : Core} (h : KeysMoved c0 c) (k t : Fin 4) : KeysMoved c0 (ensureKeyFilter k t c) := by
  unfold Machine.ensureKeyFilter
  dsimp only
  split
  · split
    · exact h
    · exact (h.openFilter _).setKeySlot _ _
  · exact h

theorem KeysMoved.bindKey {c0 c : Core} (h : KeysMoved c0 c) (o : Output) (x : Carrier) (lane : Nat) (t : Fin 4) :
    KeysMoved c0 (bindKey o x lane t c) := by
  unfold Machine.bindKey
  dsimp only
  split
  · split
    · exact h.ensureKeyFilter _ _
    · exact (((h.setKeySlot _ _).setSession _ _).ensureKeyFilter _ _).dropOld _
  · split
    · split
      · exact ((h.closeKeyFilter _).setKeySlot _ _).ensureKeyFilter _ _
      · split
        · exact (((h.setKeySlot _ _).setSession _ _).ensureKeyFilter _ _).dropRef _
        · exact h
    · split
      · exact ((h.setKeySlot _ _).setSession _ _).ensureKeyFilter _ _
      · exact h

theorem KeysMoved.bindService {c0 c : Core} (h : KeysMoved c0 c) (o : Output) (e : LaneEntry) : KeysMoved c0 (bindService o e c) := by
  unfold Machine.bindService
  dsimp only
  split
  · exact h.unbindKey o
  · split
    · exact h.bindKey _ _ _ _
    · exact h

theorem KeysMoved.laneMaps {c c' : Core} (h : KeysMoved c c') : c'.rooms.laneMaps = c.rooms.laneMaps := by
  obtain ⟨u, v, w, rfl⟩ := h
  rfl

/-! ## What leaves the lane maps alone -/

theorem laneMap_of_laneMaps {c c' : Core} (h : c'.rooms.laneMaps = c.rooms.laneMaps) (t : Fin 4) : laneMap c' t = laneMap c t := by
  rw [laneMap, laneMap, h]

theorem arrive_laneMaps (o : Output) (old x : Session) (entering : Bool) (c : Core) :
    (arrive o old x entering c).rooms.laneMaps = c.rooms.laneMaps := by
  rw [session_arrive]
  rfl

theorem reevalOne_laneMaps (c : Core) (o : Output) : (reevalOne c o).rooms.laneMaps = c.rooms.laneMaps := by
  unfold reevalOne
  dsimp only
  split
  · split
    · split
      · exact arrive_laneMaps _ _ _ _ _
      · split
        · exact arrive_laneMaps _ _ _ _ _
        · rfl
    · split
      · rfl
      · exact arrive_laneMaps _ _ _ _ _
    · split
      · exact arrive_laneMaps _ _ _ _ _
      · split
        · rfl
        · exact arrive_laneMaps _ _ _ _ _
    · rfl
    · rfl
  · rfl

/-- A fold of steps that leave the lane maps leaves them. -/
theorem foldl_laneMaps {α : Type} {f : Core → α → Core} (hf : ∀ c a, (f c a).rooms.laneMaps = c.rooms.laneMaps) (l : List α) (c : Core) :
    (l.foldl f c).rooms.laneMaps = c.rooms.laneMaps := by
  induction l generalizing c with
  | nil => rfl
  | cons a l ih => rw [List.foldl_cons, ih, hf]

theorem reevaluate_laneMaps (c : Core) : (reevaluate c).rooms.laneMaps = c.rooms.laneMaps := foldl_laneMaps reevalOne_laneMaps _ c

/-- The blocks when a session has taken a lane-map entry and bound or unbound its key slot (R46). -/
def checkingBound (o : Output) (e : LaneEntry) (c : Core) : Core :=
  bindService o e (setSession o { session c o with
    state := .checking, service := some e, laneWait := (session c o).laneWait.stop, reasons := .none, ret := none } c)

/-- The blocks when a session has entered CHECKING, before its verdict. -/
def checkingEntered (o : Output) (e : LaneEntry) (c : Core) : Core :=
  setSession o { session (checkingBound o e c) o with
    event := ((session (checkingBound o e c) o).lcn.bind (presentEvent (checkingBound o e c))).map (·.event) } (checkingBound o e c)

/-- The entry into CHECKING goes on by the verdict set computed then. -/
def checkingJudged (o : Output) (c : Core) : Core :=
  if !(verdictSet c o).isEmpty then arrive o (session c o) ((session c o).toHeld (heldSet c o)) true c
  else if keyReady c (session c o) then arrive o (session c o) (session c o).toPresenting false c
  else if (session c o).change.inFlight then setSession o { session c o with keyWait := Timer.start 2500 } c
  else postSession o (setSession o { session c o with keyWait := Timer.start 2500 } c)

theorem enterChecking_eq (o : Output) (e : LaneEntry) (c : Core) : enterChecking o e c = checkingJudged o (checkingEntered o e c) := rfl

theorem checkingEntered_moved (o : Output) (e : LaneEntry) (c : Core) : KeysMoved c (checkingEntered o e c) :=
  (((KeysMoved.refl c).setSession o _).bindService o e).setSession o _

theorem checkingJudged_laneMaps (o : Output) (c : Core) : (checkingJudged o c).rooms.laneMaps = c.rooms.laneMaps := by
  unfold checkingJudged
  split
  · exact arrive_laneMaps _ _ _ _ _
  · split
    · exact arrive_laneMaps _ _ _ _ _
    · split
      · rfl
      · rfl

theorem enterChecking_laneMaps (o : Output) (e : LaneEntry) (c : Core) : (enterChecking o e c).rooms.laneMaps = c.rooms.laneMaps := by
  rw [enterChecking_eq, checkingJudged_laneMaps, (checkingEntered_moved o e c).laneMaps]

theorem laneEntryChanged_laneMaps (t : Fin 4) (e : LaneEntry) (c : Core) (o : Output) :
    (laneEntryChanged t e c o).rooms.laneMaps = c.rooms.laneMaps := by
  unfold laneEntryChanged
  dsimp only
  split
  · rfl
  · split
    · exact enterChecking_laneMaps _ _ _
    · split
      · split
        · rw [reevaluate_laneMaps]
          exact (((KeysMoved.refl c).setSession o _).bindService o e).laneMaps
        · rfl
      · rfl

theorem laneEntryRemoved_laneMaps (t : Fin 4) (n : Nat) (c : Core) (o : Output) :
    (laneEntryRemoved t n c o).rooms.laneMaps = c.rooms.laneMaps := by
  unfold laneEntryRemoved
  dsimp only
  split
  · split
    · rfl
    · rfl
  · rfl

/-! ## One entry of a lane map (R40, R41) -/

/-- An entry the map takes. -/
def EntryTaken (e : LaneEntry) : Prop :=
  e.service ≠ 0 ∧ e.lanes ≠ [] ∧ (∀ n ∈ e.lanes, n ≠ 0 ∧ ¬((1 ≤ n ∧ n ≤ 5) ∨ n = 16)) ∧
    ¬((1 ≤ e.keyLane ∧ e.keyLane ≤ 5) ∨ e.keyLane = 16)

theorem fixedLane_iff {n : Nat} : fixedLane n = true ↔ n = 0 ∨ (1 ≤ n ∧ n ≤ 5) ∨ n = 16 := by
  simp only [fixedLane, Bool.or_eq_true, decide_eq_true_eq, beq_iff_eq]
  omega

theorem entryDropped_iff {e : LaneEntry} : LaneEntry.dropped e = true ↔ ¬EntryTaken e := by
  have hkey : (1 ≤ e.keyLane ∧ (e.keyLane = 0 ∨ (1 ≤ e.keyLane ∧ e.keyLane ≤ 5) ∨ e.keyLane = 16)) ↔
      ((1 ≤ e.keyLane ∧ e.keyLane ≤ 5) ∨ e.keyLane = 16) := by omega
  have hlanes : (∃ n ∈ e.lanes, n = 0 ∨ (1 ≤ n ∧ n ≤ 5) ∨ n = 16) ↔
      ¬∀ n ∈ e.lanes, n ≠ 0 ∧ ¬((1 ≤ n ∧ n ≤ 5) ∨ n = 16) := by
    push Not
    simp only [Classical.or_iff_not_imp_left]
  simp only [LaneEntry.dropped, EntryTaken, Bool.or_eq_true, Bool.and_eq_true, beq_iff_eq, List.isEmpty_iff, List.any_eq_true,
    fixedLane_iff, decide_eq_true_eq, hkey, hlanes]
  tauto

/-- What is done when an entry has been put in its map: the sessions are told of an entry that has changed. -/
def laneEntryTold (t : Fin 4) (e : LaneEntry) (p : LaneMap × LaneChange) (c : Core) : Core :=
  if p.2 = .same then setLaneMap t p.1 c else allOutputs.foldl (laneEntryChanged t e) (setLaneMap t p.1 c)

theorem takeLaneEntry_dropped {t : Fin 4} {version : Nat} {c : Core} {e : LaneEntry} (h : ¬EntryTaken e) : takeLaneEntry t version c e = c :=
  if_pos (entryDropped_iff.mpr h)

theorem takeLaneEntry_taken {t : Fin 4} {version : Nat} {c : Core} {e : LaneEntry} (h : EntryTaken e) :
    takeLaneEntry t version c e =
      laneEntryTold t { e with version := version } ((laneMap c t).put { e with version := version }) c :=
  if_neg (mt entryDropped_iff.mp (not_not.mpr h))

theorem laneMap_laneEntryTold (t : Fin 4) (e : LaneEntry) (p : LaneMap × LaneChange) (c : Core) :
    laneMap (laneEntryTold t e p c) t = p.1 := by
  unfold laneEntryTold
  split
  · exact laneMap_setLaneMap t _ c
  · exact (laneMap_of_laneMaps (foldl_laneMaps (laneEntryChanged_laneMaps t e) _ _) t).trans (laneMap_setLaneMap t _ c)

theorem LaneMap.put_held {m : LaneMap} {e : LaneEntry} (h : ∃ x ∈ m.entries, x.service = e.service) :
    (m.put e).1 = { m with entries := m.entries.map fun x => if x.service = e.service then e else x } := by
  obtain ⟨x, hx, hs⟩ := h
  have hfind : (m.entries.find? (·.service == e.service)).isSome = true := List.find?_isSome.mpr ⟨x, hx, by simpa using hs⟩
  obtain ⟨y, hy⟩ := Option.isSome_iff_exists.mp hfind
  rw [LaneMap.put, hy]
  simp only [beq_iff_eq]

theorem LaneMap.put_new {m : LaneMap} {e : LaneEntry} (h : ∀ x ∈ m.entries, x.service ≠ e.service) :
    m.put e =
      if m.entries.length < 64 then ({ m with entries := insertBy (fun a b => a.service < b.service) e m.entries }, .added)
      else (m, .same) := by
  have hfind : m.entries.find? (·.service == e.service) = none := List.find?_eq_none.mpr fun x hx => by simpa using h x hx
  rw [LaneMap.put, hfind]

theorem setLaneMap_self (t : Fin 4) (c : Core) : setLaneMap t (laneMap c t) c = c := by
  have hput : putAt c.rooms.laneMaps t (c.rooms.laneMaps.get t) = c.rooms.laneMaps := Vector.set_getElem_self t.isLt
  rw [setLaneMap, laneMap, hput]

/-! ## A segment of a lane map (R40) -/

/-- An entry changes the entries of its map alone. -/
theorem takeLaneEntry_map (t : Fin 4) (version : Nat) (c : Core) (e : LaneEntry) :
    ∃ l, laneMap (takeLaneEntry t version c e) t = { laneMap c t with entries := l } := by
  by_cases h : EntryTaken e
  · rw [takeLaneEntry_taken h, laneMap_laneEntryTold]
    by_cases hx : ∃ x ∈ (laneMap c t).entries, x.service = e.service
    · exact ⟨_, LaneMap.put_held hx⟩
    · push Not at hx
      rw [LaneMap.put_new (e := { e with version := version }) hx]
      split
      · exact ⟨_, rfl⟩
      · exact ⟨_, rfl⟩
  · exact ⟨_, by rw [takeLaneEntry_dropped h]⟩

theorem foldl_takeLaneEntry_map (t : Fin 4) (version : Nat) (es : List LaneEntry) (c : Core) :
    ∃ l, laneMap (es.foldl (takeLaneEntry t version) c) t = { laneMap c t with entries := l } := by
  induction es generalizing c with
  | nil => exact ⟨_, rfl⟩
  | cons e es ih =>
    obtain ⟨l, hl⟩ := takeLaneEntry_map t version c e
    obtain ⟨l', hl'⟩ := ih (takeLaneEntry t version c e)
    exact ⟨l', by rw [List.foldl_cons, hl', hl]⟩

theorem seenAll_iff {seen : List Nat} {last : Nat} : seenAll seen last = true ↔ ∀ n, n ≤ last → n ∈ seen := by
  simp [seenAll]

theorem joinSeen_eq (n : Nat) (seen : List Nat) : joinSeen n seen = if n ∈ seen then seen else n :: seen := by
  simp [joinSeen]

/-- The map a segment of a version joins: begun anew when another version was being read. -/
def LaneMap.begun (m : LaneMap) (version : Nat) : LaneMap :=
  if m.working = some version then m else { m with working := some version, seen := [] }

theorem takeLaneMap_ignored {t : Fin 4} {h : SegmentHeader} {es : List LaneEntry} {c : Core}
    (hno : (laneMap c t).complete = some h.version ∨ 8 ≤ h.last ∨ h.last < h.number) : takeLaneMap t h es c = c := by
  unfold takeLaneMap
  dsimp only
  by_cases hc : (laneMap c t).complete = some h.version
  · exact if_pos hc
  · exact (if_neg hc).trans (if_pos (by simpa using hno.resolve_left hc))

/-- The blocks when the entries of a segment have been read. -/
def laneMapRead (t : Fin 4) (h : SegmentHeader) (es : List LaneEntry) (c : Core) : Core :=
  es.foldl (takeLaneEntry t h.version) (setLaneMap t ((laneMap c t).begun h.version) c)

theorem laneMapRead_seen (t : Fin 4) (h : SegmentHeader) (es : List LaneEntry) (c : Core) :
    (laneMap (laneMapRead t h es c) t).seen = ((laneMap c t).begun h.version).seen := by
  obtain ⟨l, hl⟩ := foldl_takeLaneEntry_map t h.version es (setLaneMap t ((laneMap c t).begun h.version) c)
  rw [laneMapRead, hl, laneMap_setLaneMap]

theorem takeLaneMap_taken {t : Fin 4} {h : SegmentHeader} {es : List LaneEntry} {c : Core} {seen : List Nat} {joined : Core}
    (hc : (laneMap c t).complete ≠ some h.version) (h8 : h.last < 8) (hn : h.number ≤ h.last)
    (hseen : joinSeen h.number ((laneMap c t).begun h.version).seen = seen)
    (hjoined : setLaneMap t { laneMap (laneMapRead t h es c) t with seen := seen } (laneMapRead t h es c) = joined) :
    takeLaneMap t h es c = if seenAll seen h.last then completeLaneMap t h.version joined else joined := by
  subst hjoined
  subst hseen
  rw [← laneMapRead_seen t h es c]
  unfold takeLaneMap
  dsimp only
  exact (if_neg hc).trans (if_neg (by simp; omega))

theorem laneMap_completeLaneMap (t : Fin 4) (version : Nat) (c : Core) :
    laneMap (completeLaneMap t version c) t =
      { laneMap c t with
        entries := (laneMap c t).entries.filter (·.version == version), complete := some version, working := none } := by
  have hgone := fun (l : List Nat) (c : Core) => foldl_laneMaps
    (f := fun c n => allOutputs.foldl (laneEntryRemoved t n) c) (fun c n => foldl_laneMaps (laneEntryRemoved_laneMaps t n) _ c) l c
  exact (laneMap_of_laneMaps (hgone _ _) t).trans (laneMap_setLaneMap t _ c)

/-! ## The sessions on a lane map (R41) -/

/-- The session has a service, on tuner `t`, of the number. -/
def Session.OnLane (x : Session) (t : Fin 4) (n : Nat) : Prop :=
  x.tuner = some t ∧ (x.state = .checking ∨ x.state = .presenting ∨ (x.state = .held ∧ x.reasons.terminal = false)) ∧
    ∃ f, x.service = some f ∧ f.service = n

theorem Session.hasService_iff {x : Session} :
    x.hasService = true ↔ x.state = .checking ∨ x.state = .presenting ∨ (x.state = .held ∧ x.reasons.terminal = false) := by
  cases h : x.state with
  | checking => simp [Session.hasService, h]
  | presenting => simp [Session.hasService, h]
  | held => simp [Session.hasService, h]
  | idle => simp [Session.hasService, h]
  | tuning => simp [Session.hasService, h]
  | opening => simp [Session.hasService, h]
  | dark => simp [Session.hasService, h]

theorem Session.onService_iff {x : Session} {n : Nat} : x.onService n = true ↔ ∃ f, x.service = some f ∧ f.service = n := by
  cases h : x.service with
  | none => simp [Session.onService, h]
  | some f => simp [Session.onService, h]

theorem laneEntryRemoved_on {t : Fin 4} {n : Nat} {c : Core} {o : Output} (h : (session c o).OnLane t n) :
    laneEntryRemoved t n c o =
      if (session c o).change = .absent then
        post (.sessionState o .opening .none (session c o).lcn none) (setSession o (session c o).toOpening c)
      else setSession o (session c o).toOpening c := by
  obtain ⟨ht, hs, hf⟩ := h
  have hcond : (decide ((session c o).tuner = some t) && (session c o).hasService && (session c o).onService n) = true := by
    simp [ht, Session.hasService_iff.mpr hs, Session.onService_iff.mpr hf]
  refine (if_pos hcond).trans ?_
  by_cases hc : (session c o).change = .absent
  · rw [if_pos hc, if_neg (by simp [ChangeTag.inFlight, hc]), postSession_eq, session_setSession]
    rfl
  · rw [if_neg hc, if_pos (by simp [ChangeTag.inFlight, hc])]

theorem laneEntryRemoved_off {t : Fin 4} {n : Nat} {c : Core} {o : Output} (h : ¬(session c o).OnLane t n) :
    laneEntryRemoved t n c o = c := by
  refine if_neg fun hcond => h ?_
  simp only [Bool.and_eq_true, decide_eq_true_eq] at hcond
  obtain ⟨⟨ht, hs⟩, hf⟩ := hcond
  exact ⟨ht, Session.hasService_iff.mp hs, Session.onService_iff.mp hf⟩

theorem laneEntryChanged_on {t : Fin 4} {e f : LaneEntry} {c : Core} {o : Output} (h : (session c o).OnLane t e.service)
    (hf : (session c o).service = some f) :
    laneEntryChanged t e c o =
      if f.keyLane = e.keyLane then setSession o { session c o with service := some e } c
      else reevaluate (bindService o e (setSession o { session c o with service := some e } c)) := by
  obtain ⟨ht, hs, hserv⟩ := h
  have hopen : ¬(session c o).state = .opening := by
    rintro hopen
    rw [hopen] at hs
    obtain h | h | ⟨h, -⟩ := hs
    · cases h
    · cases h
    · cases h
  have hcond : ((session c o).hasService && (session c o).onService e.service) = true := by
    simp [Session.hasService_iff.mpr hs, Session.onService_iff.mpr hserv]
  unfold laneEntryChanged
  dsimp only
  rw [if_neg (not_not.mpr ht), if_neg (by simp [hopen]), if_pos hcond, hf]
  by_cases hk : f.keyLane = e.keyLane
  · simp [hk]
  · simp [hk]

theorem laneEntryChanged_opening {t : Fin 4} {e : LaneEntry} {c : Core} {o : Output} (ht : (session c o).tuner = some t)
    (hs : (session c o).state = .opening)
    (hserv : ∃ l y, (session c o).lcn = some l ∧ findChannel c l = some y ∧ y.service = e.service) :
    laneEntryChanged t e c o = enterChecking o e c := by
  obtain ⟨l, y, hl, hy, he⟩ := hserv
  have hcond : (decide ((session c o).state = .opening) && decide (serviceOf c (session c o) = some e.service)) = true := by
    simp [hs, serviceOf, hl, hy, he]
  exact (if_neg (not_not.mpr ht)).trans (if_pos hcond)

/-! ## The waits (R45, R47) -/

theorem exec_laneMapWait (o : Output) (s : State) : exec (.laneMapWait o) s = .next (onCore (laneWaitExpired o) s) := rfl
theorem exec_keyWait (o : Output) (s : State) : exec (.keyWait o) s = .next (onCore (keyWaitExpired o) s) := rfl

theorem laneWaitExpired_opening {o : Output} {c : Core} (hr : (session c o).laneWait.running = true)
    (hs : (session c o).state = .opening) :
    laneWaitExpired o c = loseService o (setSession o { session c o with laneWait := (session c o).laneWait.expired } c) :=
  (if_pos hr).trans (if_pos hs)

theorem keyWaitExpired_checking {o : Output} {c : Core} (hr : (session c o).keyWait.running = true)
    (hs : (session c o).state = .checking) :
    keyWaitExpired o c =
      arrive o (session c o) (({ session c o with keyWait := (session c o).keyWait.expired } : Session).toHeld onlyNoKey) true c :=
  (if_pos hr).trans (if_pos hs)

/-- A session held for good stays as it is through the release of its tuner. -/
theorem holdTerminal_still {o : Output} {r : Reasons} {outcome : ChangeOutcome} {rs : Option Reasons} {c : Core}
    (hn : noneExtended c) (hr : r.terminal = true) : Still o ((session c o).heldFor r) (holdTerminal o r outcome rs c) := by
  have hheld : Still o ((session c o).heldFor r) (setSession o ((session c o).heldFor r) (unbindKey o c)) :=
    ⟨session_setSession o _ _, by simp [Session.evaluated, Session.heldFor, hr], (setSession_calm (unbindKey_calm (.refl hn))).none⟩
  rw [holdTerminal_eq]
  refine release_still ?_
  split
  · exact post_still hheld
  · exact endChange_still hheld

/-- Settles O29: a lane map by the entry and by the segment, a session by its state, a wait by the state it ends. -/
theorem sessionWaitsEnd : Obligations.SessionWaitsEnd := by
  unfold Obligations.SessionWaitsEnd
  refine ⟨fun t version e c => ?entry, fun t h entries c => ?segment, fun t e c o => ?sessions, fun o s => ?waits⟩
  case entry =>
    intro m after e' bad taken
    refine ⟨takeLaneEntry_dropped, fun ht hx => ?_, fun ht hx => ⟨fun hl => ?_, fun hl => ?_⟩⟩
    · have hafter : after = (m.put e').1 := by
        rw [← laneMap_laneEntryTold t e' (m.put e') c]
        exact congrArg (laneMap · t) (takeLaneEntry_taken ht)
      exact hafter.trans (LaneMap.put_held hx)
    · have hafter : after = (m.put e').1 := by
        rw [← laneMap_laneEntryTold t e' (m.put e') c]
        exact congrArg (laneMap · t) (takeLaneEntry_taken ht)
      rw [hafter, LaneMap.put_new (e := e') hx, if_pos hl]
    · rw [takeLaneEntry_taken ht]
      show laneEntryTold t e' (m.put e') c = c
      rw [LaneMap.put_new (e := e') hx, if_neg (by omega)]
      exact setLaneMap_self t c
  case segment =>
    intro m begun read m' seen after all
    refine ⟨takeLaneMap_ignored, fun hc h8 hn => ?_⟩
    have htaken := takeLaneMap_taken (es := entries) hc h8 hn (joinSeen_eq h.number begun.seen) rfl
    have hall : seenAll seen h.last = true ↔ all := seenAll_iff
    refine ⟨fun hno => ?_, fun ha => ?_⟩
    · rw [htaken]
      exact if_neg (mt hall.mp hno)
    · have hafter : after = laneMap (completeLaneMap t h.version (setLaneMap t { m' with seen := seen } read)) t :=
        congrArg (laneMap · t) (htaken.trans (if_pos (hall.mpr ha)))
      rw [hafter, laneMap_completeLaneMap, laneMap_setLaneMap]
  case sessions =>
    intro x on opened
    refine ⟨laneEntryRemoved_on, laneEntryRemoved_off, fun f hon hf hk => ?_, fun f hon hf hk => ?_, laneEntryChanged_opening⟩
    · rw [laneEntryChanged_on hon hf, if_pos hk]
    · rw [laneEntryChanged_on hon hf, if_neg hk]
  case waits =>
    intro c0 x
    refine ⟨fun hr => ?_, fun hr hs hn => ?_, fun hr => ?_, fun hr hs => ?_⟩
    · have hsame : laneWaitExpired o s.core = s.core := if_neg (by rw [show (session s.core o).laneWait.running = false from hr]; decide)
      rw [exec_laneMapWait, onCore_eq hsame]
    · refine ⟨_, (exec_laneMapWait o s).trans (by rw [onCore_eq (laneWaitExpired_opening hr hs)]),
        loseService_tuners (c := setSession o _ c0) ⟨rfl, rfl, rfl, rfl, rfl, rfl, rfl⟩, ?_⟩
      have hstill := holdTerminal_still (o := o) (r := onlyNoService) (outcome := .noService) (rs := none)
        (c := setSession o { session c0 o with laneWait := (session c0 o).laneWait.expired } c0) hn rfl
      refine hstill.sess.trans ?_
      rw [session_setSession]
      rfl
    · have hsame : keyWaitExpired o s.core = s.core := if_neg (by rw [show (session s.core o).keyWait.running = false from hr]; decide)
      rw [exec_keyWait, onCore_eq hsame]
    · refine ⟨keyWaitExpired o c0, by rw [exec_keyWait, onCore_eq rfl], keyWaitExpired_sessions (.refl _), ?_⟩
      rw [keyWaitExpired_checking hr hs, session_of_rooms (session_arrive _ _ _ _ _) o, session_setSession]
      rfl

end Sys2Proof.Machine
end

section
/-! Verdicts at the sessions: the entry into CHECKING, the purchase offer, the change report and re-evaluation (R46, R56 to R62, R156). -/

namespace Sys2Proof.Machine

open Sys2Proof

/-! ## A session that binds a key slot (R67 to R70) -/

theorem setSession_setSession (o : Output) (x y : Session) (c : Core) : setSession o x (setSession o y c) = setSession o x c := by
  simp [setSession, putAt]

theorem session_closeKeyFilter (k : Fin 4) (c : Core) (o : Output) : session (closeKeyFilter k c) o = session c o := by
  obtain ⟨v, w, h⟩ := closeKeyFilter_frame k c
  rw [h]
  rfl

theorem session_dropOld (old : Option (Fin 4)) (c : Core) (o : Output) : session (dropOld old c) o = session c o := by
  cases old with
  | none => rfl
  | some k => exact session_dropRef k c o

theorem session_openFilter (f : Filter) (c : Core) (o : Output) : session (openFilter f c) o = session c o := by
  obtain ⟨v, h⟩ := openFilter_frame f c
  rw [h]
  rfl

theorem session_ensureKeyFilter (k t : Fin 4) (c : Core) (o : Output) : session (ensureKeyFilter k t c) o = session c o := by
  unfold ensureKeyFilter
  dsimp only
  split
  · split
    · rfl
    · exact session_openFilter _ c o
  · rfl

/-- A bind changes its session's key slot alone. -/
theorem session_bindKey (o : Output) (x : Carrier) (lane : Nat) (t : Fin 4) (c : Core) :
    ∃ k, session (bindKey o x lane t c) o = { session c o with slot := k } := by
  unfold bindKey
  dsimp only
  split
  · split
    · exact ⟨_, session_ensureKeyFilter _ _ c o⟩
    · exact ⟨_, by rw [session_dropOld, session_ensureKeyFilter, setSessionSlot, session_setSession]; rfl⟩
  · split
    · split
      · exact ⟨_, by rw [session_ensureKeyFilter]; exact session_closeKeyFilter _ c o⟩
      · split
        · exact ⟨_, by rw [session_dropRef, session_ensureKeyFilter, setSessionSlot, session_setSession]; rfl⟩
        · exact ⟨_, rfl⟩
    · split
      · exact ⟨_, by rw [session_ensureKeyFilter, setSessionSlot, session_setSession]; rfl⟩
      · exact ⟨_, rfl⟩

theorem session_bindService (o : Output) (e : LaneEntry) (c : Core) : ∃ k, session (bindService o e c) o = { session c o with slot := k } := by
  unfold bindService
  dsimp only
  split
  · exact ⟨none, session_unbindKey o c⟩
  · split
    · exact session_bindKey _ _ _ _ c
    · exact ⟨_, rfl⟩

/-! ## The verdict set (R39, R46) -/

/-- The session's service has a key lane, and its key slot is in the state. -/
def KeyIn (c : Core) (x : Session) (st : KeyState) : Prop :=
  ∃ e k, x.service = some e ∧ e.keyLane ≠ 0 ∧ x.slot = some k ∧ (keySlot c k).state = st

theorem keyMissing_waiting {c : Core} {x : Session} (h : KeyIn c x .waiting) (hx : x.state = .held) : keyMissing c x = true := by
  obtain ⟨e, k, he, hl, hk, hs⟩ := h
  simp [keyMissing, he, hl, hk, hs, hx]

/-- But for a WAITING slot the key is missing in one state as in another. -/
theorem keyMissing_congr {c : Core} {x y : Session} (h : ¬KeyIn c x .waiting) (hservice : y.service = x.service) (hslot : y.slot = x.slot) :
    keyMissing c y = keyMissing c x := by
  unfold keyMissing
  rw [hservice, hslot]
  cases he : x.service with
  | none => rfl
  | some e =>
    by_cases hl : e.keyLane = 0
    · simp [hl]
    · cases hk : x.slot with
      | none => rfl
      | some k =>
        have hw : (keySlot c k).state ≠ .waiting := fun hs => h ⟨e, k, he, hl, hk, hs⟩
        cases hs : (keySlot c k).state with
        | waiting => exact absurd hs hw
        | empty => simp only [hs]
        | ready => simp only [hs]
        | stale => simp only [hs]
        | missing => simp only [hs]
        | denied => simp only [hs]

theorem verdictSet_noKey {c : Core} {o : Output} (h : verdictSet c o ≠ .none) : (verdictSet c o).noKey = keyMissing c (session c o) := by
  unfold verdictSet at h ⊢
  dsimp only at h ⊢
  cases hl : (session c o).lcn with
  | none =>
    rw [hl] at h
    exact absurd rfl h
  | some lcn => simp only

theorem heldSet_waiting {c : Core} {o : Output} (h : KeyIn c (session c o) .waiting) :
    heldSet c o = { verdictSet c o with noKey := true } := by
  have hmissing := keyMissing_waiting (x := { session c o with state := .held }) h rfl
  rw [heldSet, hmissing]

theorem heldSet_notWaiting {c : Core} {o : Output} (hv : verdictSet c o ≠ .none) (h : ¬KeyIn c (session c o) .waiting) :
    heldSet c o = verdictSet c o := by
  have hsame := keyMissing_congr (y := { session c o with state := .held }) h rfl rfl
  rw [heldSet, hsame, ← verdictSet_noKey hv]

theorem keyReady_iff_keyIn {c : Core} {x : Session} :
    keyReady c x = true ↔ (∃ e, x.service = some e ∧ e.keyLane = 0) ∨ KeyIn c x .ready ∨ KeyIn c x .stale := by
  rw [keyReady_iff]
  constructor
  · rintro ⟨e, he, h⟩
    by_cases hl : e.keyLane = 0
    · exact .inl ⟨e, he, hl⟩
    · obtain h | ⟨k, hk, hs | hs⟩ := h
      · exact absurd h hl
      · exact .inr (.inl ⟨e, k, he, hl, hk, hs⟩)
      · exact .inr (.inr ⟨e, k, he, hl, hk, hs⟩)
  · rintro (⟨e, he, hl⟩ | ⟨e, k, he, -, hk, hs⟩ | ⟨e, k, he, -, hk, hs⟩)
    · exact ⟨e, he, .inl hl⟩
    · exact ⟨e, he, .inr ⟨k, hk, .inl hs⟩⟩
    · exact ⟨e, he, .inr ⟨k, hk, .inr hs⟩⟩

/-! ## The entry into CHECKING (R46) -/

theorem session_checkingBound (o : Output) (e : LaneEntry) (c : Core) :
    ∃ k, session (checkingBound o e c) o = { session c o with
      state := .checking, service := some e, laneWait := (session c o).laneWait.stop, reasons := .none, ret := none, slot := k } := by
  obtain ⟨k, hk⟩ := session_bindService o e (setSession o { session c o with
    state := .checking, service := some e, laneWait := (session c o).laneWait.stop, reasons := .none, ret := none } c)
  exact ⟨k, by rw [checkingBound, hk, session_setSession]⟩

theorem checkingJudged_held {o : Output} {c : Core} (hs : (session c o).state = .checking) (hv : verdictSet c o ≠ .none) :
    checkingJudged o c =
      if (heldSet c o).noGrant = true then
        purchaseOffer o (reportArrival o (session c o) .held (heldSet c o) .held (some (heldSet c o))
          (setSession o ((session c o).arrived .held (heldSet c o)) c))
      else reportArrival o (session c o) .held (heldSet c o) .held (some (heldSet c o))
        (setSession o ((session c o).arrived .held (heldSet c o)) c) := by
  have hne : (!(verdictSet c o).isEmpty) = true := by
    rw [Bool.not_eq_true', ← Bool.not_eq_true, Reasons.isEmpty_iff]
    exact hv
  rw [checkingJudged, if_pos hne]
  exact arrive_toHeld _ c (by rw [hs]; decide)

theorem checkingJudged_presents {o : Output} {c : Core} (hs : (session c o).state = .checking) (hv : verdictSet c o = .none)
    (hk : keyReady c (session c o) = true) :
    checkingJudged o c = reportArrival o (session c o) .presenting .none .presenting none
      (setSession o ((session c o).arrived .presenting .none) c) := by
  rw [checkingJudged, if_neg (by rw [hv]; decide), if_pos hk]
  exact arrive_toPresenting _ c (by rw [hs]; decide)

theorem checkingJudged_waits {o : Output} {c : Core} (hv : verdictSet c o = .none) (hk : ¬keyReady c (session c o) = true) :
    checkingJudged o c =
      if (session c o).change = .absent then
        post (.sessionState o (session c o).state (session c o).reasons (session c o).lcn (session c o).event)
          (setSession o { session c o with keyWait := Timer.start 2500 } c)
      else setSession o { session c o with keyWait := Timer.start 2500 } c := by
  rw [checkingJudged, if_neg (by rw [hv]; decide), if_neg hk]
  by_cases hc : (session c o).change = .absent
  · rw [if_neg (by simp [ChangeTag.inFlight, hc]), if_pos hc, postSession_eq, session_setSession]
  · rw [if_pos (inFlight_iff.mpr hc), if_neg hc]

/-! ## The purchase offer (R156) -/

/-- What a purchase offer says, and what makes it: a priced event of an EVENT channel that the part may still buy. -/
structure Offers (c : Core) (o : Output) (r : Room) (lcn ev price : Nat) (rec : EventRecord) : Prop where
  room : Output.room o = some r
  ofLcn : (session c o).lcn = some lcn
  ofEvent : (session c o).event = some ev
  channel : ∃ e, findChannel c lcn = some e ∧ e.kind = .eventPaid
  record : findRecord c lcn ev = some rec
  priced : rec.price = some price
  locked : ∃ f, c.access.issue = .locked f
  uncut : c.access.cut = false
  notInFlight : ∀ f, c.purchase.inFlight = some f → f.lcn = lcn → f.event ≠ ev
  notLogged : ∀ y ∈ c.purchase.log, y.lcn = lcn → y.event ≠ ev

theorem inFlightFor_false_iff {p : Purchase} {lcn ev : Nat} :
    inFlightFor p lcn ev = false ↔ ∀ f, p.inFlight = some f → f.lcn = lcn → f.event ≠ ev := by
  cases h : p.inFlight with
  | none => simp [inFlightFor, h]
  | some f => simp [inFlightFor, h]

theorem logHas_false_iff {p : Purchase} {lcn ev : Nat} : logHas p lcn ev = false ↔ ∀ y ∈ p.log, y.lcn = lcn → y.event ≠ ev := by
  simp [logHas]

theorem purchaseOffer_offers {o : Output} {c : Core} {r : Room} {lcn ev price : Nat} {rec : EventRecord}
    (h : Offers c o r lcn ev price rec) : purchaseOffer o c = post (.purchaseOffer r lcn ev price rec.finish) c := by
  obtain ⟨e, he, hkind⟩ := h.channel
  have hcond : (decide (e.kind = .eventPaid) && c.access.issue.isLocked && !c.access.cut && !inFlightFor c.purchase lcn ev
      && !logHas c.purchase lcn ev) = true := by
    simp [hkind, Issue.isLocked_iff.mpr h.locked, h.uncut, inFlightFor_false_iff.mpr h.notInFlight, logHas_false_iff.mpr h.notLogged]
  unfold purchaseOffer
  dsimp only
  rw [h.room, h.ofLcn, h.ofEvent]
  dsimp only
  rw [he, h.record]
  dsimp only
  rw [h.priced]
  exact if_pos hcond

theorem purchaseOffer_none {o : Output} {c : Core} (h : ∀ r lcn ev price rec, ¬Offers c o r lcn ev price rec) :
    purchaseOffer o c = c := by
  unfold purchaseOffer
  dsimp only
  split
  · next r lcn ev hr hl hev =>
    split
    · next e rec he hrec =>
      split
      · next price hprice =>
        refine if_neg fun hcond => h r lcn ev price rec ?_
        simp only [Bool.and_eq_true, decide_eq_true_eq, Bool.not_eq_true'] at hcond
        obtain ⟨⟨⟨⟨hkind, hlocked⟩, hcut⟩, hflight⟩, hlog⟩ := hcond
        exact ⟨hr, hl, hev, ⟨e, he, hkind⟩, hrec, hprice, Issue.isLocked_iff.mp hlocked, hcut, inFlightFor_false_iff.mp hflight,
          logHas_false_iff.mp hlog⟩
      · rfl
    · rfl
  · rfl

theorem room_iff_mem {o : Output} {r : Room} : (o, r) ∈ [(Output.roomA, Room.a), (.roomB, .b)] ↔ Output.room o = some r := by
  cases o with
  | roomA => cases r <;> decide
  | roomB => cases r <;> decide
  | record1 => cases r <;> decide
  | record2 => cases r <;> decide

/-! ## The change report (R60 to R62) -/

/-- A session the change report reaches: of the LCN, not IDLE, and not HELD for good. -/
def Session.Reached (x : Session) (lcn : Nat) : Prop :=
  x.lcn = some lcn ∧ x.state ≠ .idle ∧ ¬(x.state = .held ∧ x.reasons.terminal = true)

theorem Session.reported_iff {x : Session} : x.reported = true ↔ x.state ≠ .idle ∧ ¬(x.state = .held ∧ x.reasons.terminal = true) := by
  simp [Session.reported, imp_iff_not_or]

theorem reportSession_reached {cls : Nat → ChangeClass × Option Carrier × Option Carrier} {c : Core} {o : Output} {l : Nat}
    (h : (session c o).Reached l) :
    reportSession cls c o =
      match cls l with
      | (.vanished, _, _) => loseService o c
      | (.moved, some a, some b) => moveSession o a b c
      | (.renumbered, _, _) => renumberSession o c
      | _ => c := by
  obtain ⟨hl, hs⟩ := h
  rw [reportSession, hl]
  exact if_pos (Session.reported_iff.mpr hs)

theorem reportSession_missed {cls : Nat → ChangeClass × Option Carrier × Option Carrier} {c : Core} {o : Output}
    (h : (session c o).lcn = none ∨ (session c o).state = .idle ∨ ((session c o).state = .held ∧ (session c o).reasons.terminal = true)) :
    reportSession cls c o = c := by
  unfold reportSession
  dsimp only
  split
  · rfl
  · next l hl =>
    refine if_neg fun hr => ?_
    obtain ⟨hidle, hheld⟩ := Session.reported_iff.mp hr
    obtain h | h | h := h
    · rw [hl] at h
      cases h
    · exact hidle h
    · exact hheld h

theorem reportSession_vanished {cls : Nat → ChangeClass × Option Carrier × Option Carrier} {c : Core} {o : Output} {l : Nat}
    (h : (session c o).Reached l) (hc : (cls l).1 = .vanished) : reportSession cls c o = loseService o c := by
  obtain ⟨a, b, hcls⟩ : ∃ a b, cls l = (.vanished, a, b) := ⟨_, _, Prod.ext hc rfl⟩
  rw [reportSession_reached h, hcls]

theorem reportSession_renumbered {cls : Nat → ChangeClass × Option Carrier × Option Carrier} {c : Core} {o : Output} {l : Nat}
    (h : (session c o).Reached l) (hc : (cls l).1 = .renumbered) : reportSession cls c o = renumberSession o c := by
  obtain ⟨a, b, hcls⟩ : ∃ a b, cls l = (.renumbered, a, b) := ⟨_, _, Prod.ext hc rfl⟩
  rw [reportSession_reached h, hcls]

theorem reportSession_moved {cls : Nat → ChangeClass × Option Carrier × Option Carrier} {c : Core} {o : Output} {l : Nat}
    {a b : Carrier} (h : (session c o).Reached l) (hc : cls l = (.moved, some a, some b)) :
    reportSession cls c o = moveSession o a b c := by
  rw [reportSession_reached h, hc]

theorem reportSession_untouched {cls : Nat → ChangeClass × Option Carrier × Option Carrier} {c : Core} {o : Output} {l : Nat}
    (h : (session c o).Reached l) (hc : (cls l).1 = .altered ∨ (cls l).1 = .added ∨ (cls l).1 = .unchanged) :
    reportSession cls c o = c := by
  rw [reportSession_reached h]
  split
  · next hcls => simp [hcls] at hc
  · next hcls => simp [hcls] at hc
  · next hcls => simp [hcls] at hc
  · rfl

theorem renumberSession_tuning {o : Output} {c : Core} (h : (session c o).state = .tuning) : renumberSession o c = c := by
  simp only [renumberSession, h]

theorem renumberSession_dark {o : Output} {c : Core} (h : (session c o).state = .dark) :
    renumberSession o c = setSession o { session c o with ret := some .opening } c := by
  simp only [renumberSession, h]

theorem renumberSession_opening {o : Output} {c : Core} (h : (session c o).state = .opening) :
    renumberSession o c = tryChecking o (session c o) c := by
  simp only [renumberSession, h]

theorem renumberSession_reopens {o : Output} {c : Core}
    (h : (session c o).state = .checking ∨ (session c o).state = .presenting ∨ (session c o).state = .held) :
    renumberSession o c = tryChecking o (session c o) (setSession o (session c o).toOpening c) := by
  obtain h | h | h := h
  · simp only [renumberSession, h, reopen]
  · simp only [renumberSession, h, reopen]
  · simp only [renumberSession, h, reopen]

theorem tryChecking_opening_noEntry {o : Output} {c : Core} (hs : (session c o).state = .opening) (he : laneEntry c (session c o) = none) :
    tryChecking o (session c o) c = c := by
  unfold tryChecking
  dsimp only
  rw [if_pos hs, he]
  exact if_neg (by simp [hs])

/-! ## A channel that moves (R61) -/

/-- The tag a moved session's change goes on with. -/
def Session.movedTag (x : Session) : ChangeTag := if x.change = .absent then .untagged else x.change

theorem moveSession_eq {o : Output} {a b : Carrier} {c : Core} {lcn : Nat} (h : (session c o).lcn = some lcn) :
    moveSession o a b c =
      claimFor o lcn b (session c o).movedTag (session c o).origin .host
        (fun d => endChange o { session c o with change := (session c o).movedTag } .noTuner none (toIdle o d))
        (post (.channelMoved o lcn (some a) (some b)) c) := by
  have htag : (if (session c o).change.inFlight = true then (session c o).change else .untagged) = (session c o).movedTag := by
    unfold Session.movedTag
    by_cases hc : (session c o).change = .absent
    · rw [if_neg (by simp [ChangeTag.inFlight, hc]), if_pos hc]
    · rw [if_pos (inFlight_iff.mpr hc), if_neg hc]
  unfold moveSession
  dsimp only
  rw [h, htag]

theorem claimFor_answered {o : Output} {lcn : Nat} {x : Carrier} {tag : ChangeTag} {origin : Origin} {m : ClaimMode}
    {refusedBy : Core → Core} {c : Core} {t : Fin 4} {st : TunerState} (h : (planClaim c (.out o) x m).answer c = some (t, st)) :
    claimFor o lcn x tag origin m refusedBy c =
      if st = .locked then
        tryChecking o (session c o)
          (carryOut (.out o) x (planClaim c (.out o) x m) (setSession o ((session c o).started lcn x t st tag origin) c))
      else carryOut (.out o) x (planClaim c (.out o) x m) (setSession o ((session c o).started lcn x t st tag origin) c) := by
  rw [claimFor, h]

/-! ## Re-evaluation of one session (R56, R57) -/

theorem Session.evaluated_false {x : Session}
    (h : x.state = .idle ∨ x.state = .tuning ∨ x.state = .opening ∨ (x.state = .held ∧ x.reasons.terminal = true)) :
    x.evaluated = false := by
  obtain h | h | h | ⟨h, hr⟩ := h
  · simp [Session.evaluated, h]
  · simp [Session.evaluated, h]
  · simp [Session.evaluated, h]
  · simp [Session.evaluated, h, hr]

theorem reevalOne_unevaluated {c : Core} {o : Output} (h : (session c o).evaluated = false) : reevalOne c o = c :=
  if_neg (by rw [h]; decide)

theorem reevalOne_checking {c : Core} {o : Output} (h : (session c o).state = .checking) :
    reevalOne c o =
      if verdictSet c o ≠ .none then arrive o (session c o) ((session c o).toHeld (heldSet c o)) true c
      else if keyReady c (session c o) = true then arrive o (session c o) (session c o).toPresenting false c
      else c := by
  have he : (session c o).evaluated = true := by simp [Session.evaluated, h]
  unfold reevalOne
  dsimp only
  rw [if_pos he]
  simp only [h, Bool.not_eq_true', ← Bool.not_eq_true, Reasons.isEmpty_iff, ne_eq]

theorem reevalOne_presenting {c : Core} {o : Output} (h : (session c o).state = .presenting) :
    reevalOne c o =
      if verdictSet c o = .none then c else arrive o (session c o) ((session c o).toHeld (verdictSet c o)) true c := by
  have he : (session c o).evaluated = true := by simp [Session.evaluated, h]
  unfold reevalOne
  dsimp only
  rw [if_pos he]
  simp only [h, Reasons.isEmpty_iff]

theorem reevalOne_held {c : Core} {o : Output} (h : (session c o).state = .held) (hr : (session c o).reasons.terminal = false) :
    reevalOne c o =
      if verdictSet c o = .none then arrive o (session c o) (session c o).toPresenting false c
      else if verdictSet c o = (session c o).reasons then c
      else arrive o (session c o) ((session c o).toHeld (verdictSet c o)) false c := by
  have he : (session c o).evaluated = true := by simp [Session.evaluated, h, hr]
  unfold reevalOne
  dsimp only
  rw [if_pos he]
  simp only [h, Reasons.isEmpty_iff]

/-- The session a verdict leaves. -/
theorem session_arrive_same (o : Output) (old x : Session) (entering : Bool) (c : Core) :
    session (arrive o old x entering c) o = { x with change := .absent } :=
  (session_of_rooms (session_arrive o old x entering c) o).trans (session_setSession o _ c)

/-- Settles O30: each part by the cases its function makes. -/
theorem sessionsFollowVerdictsAndReports : Obligations.SessionsFollowVerdictsAndReports := by
  unfold Obligations.SessionsFollowVerdictsAndReports
  refine ⟨fun o e c => ?checking, fun o c => ?offer, fun cls o l c => ?report, fun o c => ?reevaluated⟩
  case checking =>
    intro x taken bound y event entered v after keyState clear told arrived
    obtain ⟨k, hy⟩ := session_checkingBound o e c
    have hy : y = _ := hy
    have hlcn : y.lcn = x.lcn := by rw [hy]
    have hentered : checkingEntered o e c = entered := by
      have hl : (session (checkingBound o e c) o).lcn = x.lcn := hlcn
      rw [checkingEntered, hl]
      rfl
    have hafter : after = checkingJudged o entered := (enterChecking_eq o e c).trans (by rw [hentered])
    have hsession : session entered o = { y with event := event } := session_setSession o _ _
    have hstate : (session entered o).state = .checking := by rw [hsession, hy]
    have hin : ∀ st, KeyIn entered (session entered o) st ↔ (keyState st ∧ e.keyLane ≠ 0) := by
      intro st
      rw [hsession]
      constructor
      · rintro ⟨f, k, hf, hl, hk, hs⟩
        rw [hy] at hf
        cases hf
        exact ⟨⟨k, hk, hs⟩, hl⟩
      · rintro ⟨⟨k, hk, hs⟩, hl⟩
        exact ⟨e, k, by rw [hy], hl, hk, hs⟩
    have hready : keyReady entered (session entered o) = true ↔ clear := by
      rw [keyReady_iff_keyIn, hin, hin]
      have hfree : (∃ f, (session entered o).service = some f ∧ f.keyLane = 0) ↔ e.keyLane = 0 := by
        rw [hsession, hy]
        exact ⟨fun ⟨f, hf, hl⟩ => by cases hf; exact hl, fun hl => ⟨e, rfl, hl⟩⟩
      rw [hfree]
      show _ ↔ (e.keyLane = 0 ∨ keyState .ready ∨ keyState .stale)
      by_cases hl : e.keyLane = 0
      · simp [hl]
      · simp [hl]
    have htold : ∀ st r outcome rs d, reportArrival o (session entered o) st r outcome rs d = told st r outcome rs d := by
      intro st r outcome rs d
      rw [hsession, hy]
      rfl
    have harrived : ∀ st r, setSession o ((session entered o).arrived st r) entered = arrived st r := by
      intro st r
      rw [hsession]
      exact setSession_setSession o _ _ bound
    refine ⟨fun hl => ?_, fun car t hl hcar ht => ?_, fun r hv hr => ?_, fun hv hclear => ?_, fun hv hclear => ?_⟩
    · exact if_pos hl
    · have hcar' : (session taken o).carrier = some car := by rw [session_setSession]; exact hcar
      have ht' : (session taken o).tuner = some t := by rw [session_setSession]; exact ht
      show bindService o e taken = _
      unfold bindService
      dsimp only
      rw [if_neg hl, hcar', ht']
    · have hheld : heldSet entered o = r := by
        obtain ⟨hw, hl, rfl⟩ | ⟨hw, rfl⟩ := hr
        · exact heldSet_waiting ((hin .waiting).mpr ⟨hw, hl⟩)
        · exact heldSet_notWaiting hv (mt (hin .waiting).mp hw)
      rw [hafter, checkingJudged_held hstate hv, hheld, htold, harrived]
    · rw [hafter, checkingJudged_presents hstate hv (hready.mpr hclear), htold, harrived]
    · rw [hafter, checkingJudged_waits hv (mt hready.mp hclear), hsession, hy]
      simp only [entered, setSession_setSession]
      rfl
  case offer =>
    intro x offers
    have hiff : ∀ r lcn ev price rec, offers r lcn ev price rec ↔ Offers c o r lcn ev price rec := by
      intro r lcn ev price rec
      simp only [offers, room_iff_mem]
      exact ⟨fun ⟨h1, h2, h3, h4, h5, h6, h7, h8, h9, h10⟩ => ⟨h1, h2, h3, h4, h5, h6, h7, h8, h9, h10⟩,
        fun ⟨h1, h2, h3, h4, h5, h6, h7, h8, h9, h10⟩ => ⟨h1, h2, h3, h4, h5, h6, h7, h8, h9, h10⟩⟩
    exact ⟨fun r lcn ev price rec h => purchaseOffer_offers ((hiff _ _ _ _ _).mp h),
      fun h => purchaseOffer_none fun r lcn ev price rec ho => h _ _ _ _ _ ((hiff _ _ _ _ _).mpr ho)⟩
  case report =>
    intro x after reached told waiting
    refine ⟨rfl, reportSession_missed, reportSession_untouched, fun hr hc => ?vanished, fun a b hr hc => ?moved, fun hr hc => ?renumbered⟩
    case vanished =>
      intro lost gone held
      have hgone : session gone o = { x with slot := none } := session_unbindKey o c
      have hheld : held = setSession o (x.heldFor onlyNoService) gone := by
        simp only [held]
        rw [hgone]
        rfl
      have hlcn : x.lcn = some l := hr.1
      refine (reportSession_vanished hr hc).trans ((holdTerminal_eq _ _ _ _ _).trans ?_)
      rw [hheld]
      refine congrArg _ ?_
      split
      · rfl
      · rw [endChange_eq, show (session c o).lcn = some l from hlcn] <;> rfl
    case moved =>
      intro posted tag plan begun stopped
      have hlcn : x.lcn = some l := hr.1
      have hafter : after = claimFor o l b tag x.origin .host
          (fun d => endChange o { x with change := tag } .noTuner none (toIdle o d)) posted :=
        (reportSession_moved hr hc).trans (moveSession_eq hlcn)
      have hanswer : ∀ t st, plan.answer posted = some (t, st) → after = if st = .locked then
          tryChecking o x (carryOut (.out o) b plan (setSession o (x.started l b t st tag x.origin) posted))
          else carryOut (.out o) b plan (setSession o (x.started l b t st tag x.origin) posted) :=
        fun t st h => hafter.trans (claimFor_answered h)
      refine ⟨fun hp => ?_, fun t hp => ?_, fun t hp => ⟨fun hs => ?_, fun hs => ?_, fun hs => ?_⟩⟩
      · rw [hafter, claimFor_refused hp, endChange_eq]
        show _ = told tag .noTuner (toIdle o posted)
        simp only [told, hlcn] <;> rfl
      · have hans : plan.answer posted = some (t, .acquiring) := by
          obtain hp | hp | hp := hp
          · rw [hp]; rfl
          · rw [hp]; rfl
          · rw [hp]; rfl
        rw [hanswer t .acquiring hans, if_neg (by decide)]
        rfl
      · have hans : plan.answer posted = some (t, .acquiring) := by
          obtain hp | hp := hp
          · rw [hp, ← hs]; rfl
          · rw [hp, ← hs]; rfl
        rw [hanswer t .acquiring hans, if_neg (by decide)]
        rfl
      · have hans : plan.answer posted = some (t, .lost) := by
          obtain hp | hp := hp
          · rw [hp, ← hs]; rfl
          · rw [hp, ← hs]; rfl
        rw [hanswer t .lost hans, if_neg (by decide)]
        rfl
      · have hans : plan.answer posted = some (t, .locked) := by
          obtain hp | hp := hp
          · rw [hp, ← hs]; rfl
          · rw [hp, ← hs]; rfl
        rw [hanswer t .locked hans, if_pos rfl]
        rfl
    case renumbered =>
      have hafter : after = renumberSession o c := reportSession_renumbered hr hc
      refine ⟨fun hs => ?_, fun hs => ?_, fun hs he => ?_, fun e hs he => ?_, fun hs => ⟨fun he => ?_, fun e he => ?_⟩⟩
      · exact hafter.trans (renumberSession_tuning hs)
      · exact hafter.trans (renumberSession_dark hs)
      · exact hafter.trans ((renumberSession_opening hs).trans (tryChecking_opening_noEntry hs he))
      · exact hafter.trans ((renumberSession_opening hs).trans (tryChecking_entry hs he))
      · have hnot : x.state ≠ .opening := by
          intro ho
          rw [ho] at hs
          obtain hs | hs | hs := hs
          · cases hs
          · cases hs
          · cases hs
        exact hafter.trans ((renumberSession_reopens hs).trans (tryChecking_toOpening_noEntry he hnot))
      · exact hafter.trans ((renumberSession_reopens hs).trans (tryChecking_toOpening_entry he))
  case reevaluated =>
    intro x v after keyState clear
    have hclear : keyReady c x = true ↔ clear := keyReady_iff_keyIn
    refine ⟨reevalOne_sessions (.refl c), rfl, fun hs hv => ?_, fun hs hv hk => ?_, fun hs hv hk => ?_, fun hs hv => ?_, fun hs hv => ?_,
      fun hs hr hv => ?_, fun hs hr hv => ?_, reevalOne_dark, fun hs => reevalOne_unevaluated (Session.evaluated_false hs)⟩
    · have hafter : after = { x.toHeld (heldSet c o) with change := .absent } := by
        have := reevalOne_checking hs
        rw [if_pos hv] at this
        exact (congrArg (session · o) this).trans (session_arrive_same _ _ _ _ _)
      rw [hafter]
      exact ⟨rfl, rfl, rfl, fun hw => heldSet_waiting hw, fun hw => heldSet_notWaiting hv hw⟩
    · have hafter : after = { x.toPresenting with change := .absent } := by
        have := reevalOne_checking hs
        rw [if_neg (not_not.mpr hv), if_pos (hclear.mpr hk)] at this
        exact (congrArg (session · o) this).trans (session_arrive_same _ _ _ _ _)
      rw [hafter]
      exact ⟨rfl, rfl, rfl, rfl⟩
    · rw [reevalOne_checking hs, if_neg (not_not.mpr hv), if_neg (mt hclear.mp hk)]
    · rw [reevalOne_presenting hs, if_pos hv]
    · have hafter : after = { x.toHeld v with change := .absent } := by
        have := reevalOne_presenting hs
        rw [if_neg hv] at this
        exact (congrArg (session · o) this).trans (session_arrive_same _ _ _ _ _)
      rw [hafter]
      exact ⟨rfl, rfl, rfl⟩
    · have hafter : after = { x.toPresenting with change := .absent } := by
        have := reevalOne_held hs hr
        rw [if_pos hv] at this
        exact (congrArg (session · o) this).trans (session_arrive_same _ _ _ _ _)
      rw [hafter]
      exact ⟨rfl, rfl⟩
    · have hmoved := reevalOne_held hs hr
      rw [if_neg hv] at hmoved
      by_cases hsame : v = x.reasons
      · rw [if_pos hsame] at hmoved
        have hafter : after = x := congrArg (session · o) hmoved
        rw [hafter]
        exact ⟨hs, hsame.symm⟩
      · rw [if_neg hsame] at hmoved
        have hafter : after = { x.toHeld v with change := .absent } :=
          (congrArg (session · o) hmoved).trans (session_arrive_same _ _ _ _ _)
        rw [hafter]
        exact ⟨rfl, rfl⟩

end Sys2Proof.Machine
end

section
/-! Key slots: their binding, the key bulletins, the key-life timer (R67 to R76, R80). -/

namespace Sys2Proof.Machine

open Sys2Proof

/-! ## The slot a bind takes (R67, R68) -/

theorem find_allTuners_some {p : Fin 4 → Bool} {t : Fin 4} (h : p t = true) (hl : ∀ v, v < t → p v = false) :
    allTuners.find? p = some t := by
  obtain ⟨before, after, hsplit⟩ : ∃ before after, allTuners = before ++ t :: after :=
    List.append_of_mem (by fin_cases t <;> decide)
  have hsorted : allTuners.Pairwise (· < ·) := by decide
  rw [hsplit, List.pairwise_append] at hsorted
  rw [hsplit, List.find?_append, List.find?_eq_none.mpr fun v hv => by
    simp [hl v (hsorted.2.2 v hv t List.mem_cons_self)], List.find?_cons_of_pos h]
  rfl

theorem find_allTuners_none {p : Fin 4 → Bool} (h : ∀ v, p v = false) : allTuners.find? p = none :=
  List.find?_eq_none.mpr fun v _ => by simp [h v]

/-- A slot in use for a (carrier, key lane) pair. -/
def Pairs (c : Core) (x : Carrier) (lane : Nat) (k : Fin 4) : Prop :=
  (keySlot c k).state ≠ .empty ∧ (keySlot c k).carrier = some x ∧ (keySlot c k).keyLane = some lane

theorem slotOfPair_some {c : Core} {x : Carrier} {lane : Nat} {k : Fin 4} (h : Pairs c x lane k)
    (hl : ∀ v, v < k → ¬Pairs c x lane v) : slotOfPair c x lane = some k := by
  have hiff : ∀ v, ((keySlot c v).state != .empty && (keySlot c v).carrier == some x && (keySlot c v).keyLane == some lane) = true ↔
      Pairs c x lane v := fun v => by simp [Pairs, and_assoc]
  exact find_allTuners_some ((hiff k).mpr h) fun v hv => Bool.not_eq_true _ ▸ mt (hiff v).mp (hl v hv)

theorem slotOfPair_none {c : Core} {x : Carrier} {lane : Nat} (h : ∀ k, ¬Pairs c x lane k) : slotOfPair c x lane = none :=
  find_allTuners_none fun v => by
    have := h v
    simp only [Pairs, not_and] at this
    rw [← Bool.not_eq_true]
    simpa using this

theorem emptyKeySlot_some {c : Core} {k : Fin 4} (h : (keySlot c k).state = .empty)
    (hl : ∀ v, v < k → (keySlot c v).state ≠ .empty) : emptyKeySlot c = some k :=
  find_allTuners_some (by simp [h]) fun v hv => by simp [hl v hv]

/-- The key filter of a slot is opened when the slot has none and its lane is free for one. -/
def withKeyFilter (t : Fin 4) (lane : Nat) (k : Fin 4) (c : Core) : Core :=
  if (keySlot c k).filter = none ∧ 5 < lane ∧ lane ≠ 16 ∧ slotOn c t lane = none then
    setKeySlot k { keySlot c k with filter := some t } (openFilter ⟨t, lane, .keys⟩ c)
  else c

theorem ensureKeyFilter_eq {k t : Fin 4} {c : Core} {lane : Nat} (h : (keySlot c k).keyLane = some lane) :
    ensureKeyFilter k t c = withKeyFilter t lane k c := by
  unfold ensureKeyFilter withKeyFilter
  dsimp only
  rw [h]
  cases hf : (keySlot c k).filter with
  | some u => simp
  | none =>
    dsimp only
    by_cases hlane : fixedLane lane = true ∨ (slotOn c t lane).isSome = true
    · rw [if_pos (by simpa using hlane), if_neg ?_]
      rintro ⟨-, h5, h16, hon⟩
      obtain hfix | hsome := hlane
      · rw [fixedLane_iff] at hfix
        omega
      · rw [hon] at hsome
        cases hsome
    · rw [if_neg (by simpa using hlane), if_pos ?_]
      obtain ⟨hfix, hnone⟩ := not_or.mp hlane
      rw [fixedLane_iff] at hfix
      exact ⟨rfl, by omega, by omega, by simpa using hnone⟩

/-- A slot bound to a session. -/
def boundTo (o : Output) (t : Fin 4) (lane : Nat) (k : Fin 4) (y : KeySlot) (c : Core) : Core :=
  withKeyFilter t lane k (setSession o { session c o with slot := some k } (setKeySlot k y c))

theorem ensureKeyFilter_bound {o : Output} {k t : Fin 4} {y : KeySlot} {c : Core} {lane : Nat} (h : y.keyLane = some lane) :
    ensureKeyFilter k t (setSessionSlot o (some k) (setKeySlot k y c)) = boundTo o t lane k y c := by
  have hlane : (keySlot (setSessionSlot o (some k) (setKeySlot k y c)) k).keyLane = some lane := by
    rw [← h]
    exact congrArg KeySlot.keyLane (keySlot_setKeySlot k y c)
  exact ensureKeyFilter_eq hlane

theorem bindKey_pair {o : Output} {x : Carrier} {lane : Nat} {t k : Fin 4} {c : Core} (h : slotOfPair c x lane = some k) :
    bindKey o x lane t c =
      if (session c o).slot = some k then ensureKeyFilter k t c
      else dropOld (session c o).slot
        (ensureKeyFilter k t (setSessionSlot o (some k) (setKeySlot k { keySlot c k with refs := (keySlot c k).refs + 1 } c))) := by
  rw [bindKey, h]

theorem bindKey_reuses {o : Output} {x : Carrier} {lane : Nat} {t q : Fin 4} {c : Core} (h : slotOfPair c x lane = none)
    (hold : (session c o).slot = some q) (hrefs : (keySlot c q).refs ≤ 1) :
    bindKey o x lane t c = ensureKeyFilter q t (setKeySlot q (.taken x lane) (closeKeyFilter q c)) := by
  rw [bindKey, h, hold]
  exact if_pos hrefs

theorem bindKey_empty {o : Output} {x : Carrier} {lane : Nat} {t e : Fin 4} {c : Core} (h : slotOfPair c x lane = none)
    (hold : (session c o).slot = none) (he : emptyKeySlot c = some e) :
    bindKey o x lane t c = ensureKeyFilter e t (setSessionSlot o (some e) (setKeySlot e (.taken x lane) c)) := by
  rw [bindKey, h, hold]
  dsimp only
  rw [he]

theorem bindKey_leaves {o : Output} {x : Carrier} {lane : Nat} {t e q : Fin 4} {c : Core} (h : slotOfPair c x lane = none)
    (hold : (session c o).slot = some q) (hrefs : 2 ≤ (keySlot c q).refs) (he : emptyKeySlot c = some e) :
    bindKey o x lane t c = dropRef q (ensureKeyFilter e t (setSessionSlot o (some e) (setKeySlot e (.taken x lane) c))) := by
  rw [bindKey, h, hold]
  dsimp only
  rw [if_neg (by omega), he]

/-! ## A slot given up, and a tuner's filters closed (R21, R69, R70) -/

theorem dropRef_last {k : Fin 4} {c : Core} (h : (keySlot c k).refs ≤ 1) : dropRef k c = setKeySlot k .empty (closeKeyFilter k c) :=
  if_pos h

theorem dropRef_more {k : Fin 4} {c : Core} (h : 2 ≤ (keySlot c k).refs) :
    dropRef k c = setKeySlot k { keySlot c k with refs := (keySlot c k).refs - 1 } c := if_neg (by omega)

theorem closeKeyFilter_none {k : Fin 4} {c : Core} (h : (keySlot c k).filter = none) : closeKeyFilter k c = c := by
  unfold closeKeyFilter
  dsimp only
  rw [h]

/-- The blocks when the key filter of a lane has been closed. -/
def keyFilterClosed (t : Fin 4) (lane : Nat) (c : Core) : Core := closeWhere (fun s => s.filters t lane && s.feeds .keys) c

theorem closeKeyFilter_some {k t : Fin 4} {lane : Nat} {c : Core} (hf : (keySlot c k).filter = some t)
    (hl : (keySlot c k).keyLane = some lane) :
    closeKeyFilter k c = setKeySlot k { keySlot c k with filter := none } (keyFilterClosed t lane c) := by
  unfold closeKeyFilter
  dsimp only
  rw [hf, hl]
  rfl

theorem Slot.keyFilter_iff {x : Slot} {t : Fin 4} {lane : Nat} :
    (x.filters t lane && x.feeds .keys) = true ↔ x.filter = some ⟨t, lane, .keys⟩ := by
  cases hf : x.filter with
  | none => simp [Slot.filters, hf]
  | some f =>
    obtain ⟨u, l, k⟩ := f
    simp [Slot.filters, Slot.feeds, hf, and_assoc]

theorem Slot.isOn_iff {x : Slot} {t : Fin 4} : x.isOn t = true ↔ ∃ f, x.filter = some f ∧ f.tuner = t := by
  cases hf : x.filter with
  | none => simp [Slot.isOn, hf]
  | some f => simp [Slot.isOn, hf]

theorem closeWhere_slots_only (p : Slot → Bool) (c : Core) : ∃ v, closeWhere p c = { c with slots := v } := ⟨_, closeWhere_frame p c⟩

theorem keySlot_closeWhere (p : Slot → Bool) (c : Core) (k : Fin 4) : keySlot (closeWhere p c) k = keySlot c k := by
  obtain ⟨v, hv⟩ := closeWhere_slots_only p c
  rw [hv]
  rfl

theorem keySlot_keyFilterClosed (t : Fin 4) (lane : Nat) (c : Core) (k : Fin 4) : keySlot (keyFilterClosed t lane c) k = keySlot c k :=
  keySlot_closeWhere _ c k

/-- A key slot whose filter stood on a tuner that leaves its carrier has none. -/
def unfiltered (t : Fin 4) (c : Core) (k : Fin 4) : Core :=
  if (keySlot c k).filter == some t then setKeySlot k { keySlot c k with filter := none } c else c

theorem closeTunerSlots_eq (t : Fin 4) (c : Core) : closeTunerSlots t c = allTuners.foldl (unfiltered t) (closeWhere (·.isOn t) c) := rfl

theorem keySlot_unfiltered (t : Fin 4) (c : Core) (k : Fin 4) :
    keySlot (unfiltered t c k) k = if (keySlot c k).filter = some t then { keySlot c k with filter := none } else keySlot c k := by
  unfold unfiltered
  by_cases h : (keySlot c k).filter = some t
  · rw [if_pos (by simp [h]), if_pos h, keySlot_setKeySlot]
  · rw [if_neg (by simp [h]), if_neg h]

theorem keySlot_unfiltered_ne {t j k : Fin 4} (c : Core) (h : j ≠ k) : keySlot (unfiltered t c j) k = keySlot c k := by
  unfold unfiltered
  split
  · exact keySlot_setKeySlot_ne _ c h
  · rfl

theorem unfiltered_frame (t : Fin 4) (c : Core) (k : Fin 4) : ∃ v, unfiltered t c k = { c with keys := v } := by
  unfold unfiltered
  split
  · exact ⟨_, rfl⟩
  · exact ⟨c.keys, rfl⟩

theorem foldl_unfiltered_frame (t : Fin 4) (l : List (Fin 4)) (c : Core) : ∃ v, l.foldl (unfiltered t) c = { c with keys := v } := by
  induction l generalizing c with
  | nil => exact ⟨c.keys, rfl⟩
  | cons k l ih =>
    obtain ⟨v, hv⟩ := unfiltered_frame t c k
    obtain ⟨w, hw⟩ := ih (unfiltered t c k)
    exact ⟨w, by rw [List.foldl_cons, hw, hv]⟩

theorem keySlot_foldl_unfiltered_outside {t k : Fin 4} (l : List (Fin 4)) (c : Core) (h : k ∉ l) :
    keySlot (l.foldl (unfiltered t) c) k = keySlot c k := by
  induction l generalizing c with
  | nil => rfl
  | cons j l ih =>
    obtain ⟨hj, hl⟩ := not_or.mp (mt List.mem_cons.mpr h)
    rw [List.foldl_cons, ih _ hl, keySlot_unfiltered_ne c (Ne.symm hj)]

theorem keySlot_foldl_unfiltered {t k : Fin 4} (l : List (Fin 4)) (c : Core) (hn : l.Nodup) (h : k ∈ l) :
    keySlot (l.foldl (unfiltered t) c) k =
      if (keySlot c k).filter = some t then { keySlot c k with filter := none } else keySlot c k := by
  induction l generalizing c with
  | nil => cases h
  | cons j l ih =>
    obtain ⟨hj, hl⟩ := List.nodup_cons.mp hn
    rw [List.foldl_cons]
    by_cases hjk : j = k
    · subst hjk
      rw [keySlot_foldl_unfiltered_outside l _ hj, keySlot_unfiltered]
    · rw [ih _ hl ((List.mem_cons.mp h).resolve_left fun e => hjk e.symm), keySlot_unfiltered_ne c hjk]

theorem closeTunerSlots_frame (t : Fin 4) (c : Core) : ∃ v, closeTunerSlots t c = { closeWhere (·.isOn t) c with keys := v } := by
  obtain ⟨v, hv⟩ := foldl_unfiltered_frame t allTuners (closeWhere (·.isOn t) c)
  exact ⟨v, by rw [closeTunerSlots_eq, hv]⟩

theorem keySlot_closeTunerSlots (t : Fin 4) (c : Core) (k : Fin 4) :
    keySlot (closeTunerSlots t c) k =
      if (keySlot c k).filter = some t then { keySlot c k with filter := none } else keySlot c k := by
  rw [closeTunerSlots_eq, keySlot_foldl_unfiltered allTuners _ (by decide) (by fin_cases k <;> decide), keySlot_closeWhere]

theorem slot_closeTunerSlots (t : Fin 4) (c : Core) (n : Fin 16) :
    slot (closeTunerSlots t c) n = if ∃ f, (slot c n).filter = some f ∧ f.tuner = t then .closed else slot c n := by
  obtain ⟨v, hv⟩ := closeTunerSlots_frame t c
  have hslot : slot (closeTunerSlots t c) n = slot (closeWhere (·.isOn t) c) n := slot_of_slots (by rw [hv]) n
  rw [hslot, slot_closeWhere]
  simp only [Slot.isOn_iff]

/-! ## Key bulletins (R71 to R76) -/

theorem keySlot_reevaluate (c : Core) (k : Fin 4) : keySlot (reevaluate c) k = keySlot c k := by
  rw [keySlot, keySlot, (reevaluate_sessions (.refl c)).keys]

theorem keySlot_setKeyTold (k : Fin 4) (x : KeySlot) (c : Core) : keySlot (setKeyTold k x c) k = x := by
  unfold setKeyTold
  dsimp only
  split
  · rw [keySlot_reevaluate, keySlot_setKeySlot]
  · exact keySlot_setKeySlot k x c

theorem setKeyTold_sessions (k : Fin 4) (x : KeySlot) (c : Core) : SessionsOnly (setKeySlot k x c) (setKeyTold k x c) := by
  unfold setKeyTold
  dsimp only
  split
  · exact reevaluate_sessions (.refl _)
  · exact .refl _

/-- But for the key slots, a key bulletin changes what a re-evaluation may change. -/
theorem setKeyTold_sessions_keys (k : Fin 4) (x : KeySlot) (c : Core) :
    SessionsOnly { c with keys := (setKeyTold k x c).keys } (setKeyTold k x c) := by
  have h := setKeyTold_sessions k x c
  exact ⟨h.dir, h.arb, h.slots, rfl, h.access, h.guide, h.limits, h.purchase, h.uplink, h.pages, h.time⟩

theorem takeKeys_malformed {k : Fin 4} {b : KeyBulletin} {lane : Nat} {c : Core} (hl : (keySlot c k).keyLane = some lane)
    (hb : KeyBulletin.formed b lane = false) : takeKeys k b c = c := by
  rw [takeKeys, hl]
  exact if_pos (by simp [hb])

theorem takeKeys_denied {k : Fin 4} {b : KeyBulletin} {lane : Nat} {c : Core} (hl : (keySlot c k).keyLane = some lane)
    (hb : KeyBulletin.formed b lane = true) (hc : criterionMet c k b.criterion = false) :
    takeKeys k b c = if (keySlot c k).state = .denied then c else setKeyTold k (keySlot c k).denied c := by
  rw [takeKeys, hl]
  exact (if_neg (by simp [hb])).trans (if_pos (by simp [hc]))

theorem takeKeys_met {k : Fin 4} {b : KeyBulletin} {lane : Nat} {c : Core} (hl : (keySlot c k).keyLane = some lane)
    (hb : KeyBulletin.formed b lane = true) (hc : criterionMet c k b.criterion = true) :
    takeKeys k b c =
      if (keySlot c k).period = some b.period then c else setKeyTold k ((keySlot c k).opening (systemKey c) b) c := by
  rw [takeKeys, hl]
  exact (if_neg (by simp [hb])).trans (if_neg (by simp [hc]))

theorem takeKeys_sessions {k : Fin 4} {b : KeyBulletin} {lane : Nat} {c : Core} (hl : (keySlot c k).keyLane = some lane) :
    SessionsOnly { c with keys := (takeKeys k b c).keys } (takeKeys k b c) := by
  cases hb : KeyBulletin.formed b lane with
  | false =>
    rw [takeKeys_malformed hl hb]
    exact .refl c
  | true =>
    cases hc : criterionMet c k b.criterion with
    | false =>
      rw [takeKeys_denied hl hb hc]
      split
      · exact .refl c
      · exact setKeyTold_sessions_keys _ _ c
    | true =>
      rw [takeKeys_met hl hb hc]
      split
      · exact .refl c
      · exact setKeyTold_sessions_keys _ _ c

/-- The key of a parity after an opening: the bulletin's, deciphered, else the one held. -/
def openedKey (plain : Key → Key) (given held : Option Key) : Option Key :=
  match given with
  | some e => some (plain e)
  | none => held

theorem openedKey_eq (plain : Key → Key) (given held : Option Key) : (given.map plain <|> held) = openedKey plain given held := by
  cases given with
  | none => rfl
  | some e => rfl

theorem KeySlot.opening_eq (x : KeySlot) (system : Key) (b : KeyBulletin) :
    x.opening system b = { x with
      even := openedKey (Config.decipherKey system) b.even x.even, odd := openedKey (Config.decipherKey system) b.odd x.odd,
      period := some b.period, life := Timer.start 30000
      state := match x.parity with
        | none => .ready
        | some .even => if (openedKey (Config.decipherKey system) b.even x.even).isSome then .ready else .missing
        | some .odd => if (openedKey (Config.decipherKey system) b.odd x.odd).isSome then .ready else .missing } := by
  rw [← openedKey_eq, ← openedKey_eq]
  cases hp : x.parity with
  | none => simp [KeySlot.opening, hp]
  | some p =>
    cases p with
    | even => simp [KeySlot.opening, hp, KeySlot.key]
    | odd => simp [KeySlot.opening, hp, KeySlot.key]

/-! ## The key-life timer (R80) -/

theorem exec_keyLife (k : Fin 4) (s : State) : exec (.keyLife k) s = .next (onCore (keyLifeExpired k) s) := rfl

/-- A slot whose key life is over, before the sessions are told. -/
def keyAged (k : Fin 4) (st : KeyState) (c : Core) : Core :=
  setKeySlot k { keySlot c k with life := (keySlot c k).life.expired, state := st }
    (post (.keyStale k (keySlot c k).carrier (keySlot c k).keyLane (keySlot c k).period) c)

theorem keyLifeExpired_stopped {k : Fin 4} {c : Core} (h : (keySlot c k).life.running = false) : keyLifeExpired k c = c :=
  if_neg (by simp [h])

theorem keyLifeExpired_ready {k : Fin 4} {c : Core} (h : (keySlot c k).life.running = true) (hs : (keySlot c k).state = .ready) :
    keyLifeExpired k c = reevaluate (keyAged k .stale c) := by
  unfold keyLifeExpired setKeyTold
  dsimp only
  rw [if_pos h, if_pos hs]
  refine if_pos ?_
  rw [show keySlot (post _ c) k = keySlot c k from rfl, hs]
  decide

theorem keyLifeExpired_other {k : Fin 4} {c : Core} (h : (keySlot c k).life.running = true) (hs : (keySlot c k).state ≠ .ready) :
    keyLifeExpired k c = keyAged k (keySlot c k).state c := by
  unfold keyLifeExpired setKeyTold
  dsimp only
  rw [if_pos h, if_neg hs]
  exact if_neg (by simp [show keySlot (post _ c) k = keySlot c k from rfl])

/-- Settles O31, by the cases of the bind, of the bulletin and of the timer. -/
theorem keysAreTakenAndGoStale : Obligations.KeysAreTakenAndGoStale := by
  unfold Obligations.KeysAreTakenAndGoStale
  refine ⟨fun o x lane t c => ?bind, fun k c => ?drop, fun o c => ⟨unbindKey_none, fun k => unbindKey_some⟩, fun t c => ?close,
    fun k b lane c => ?bulletin, fun k s => ?life⟩
  case bind =>
    intro old pair fresh filtered bound after
    refine ⟨fun k hk hlow => ?pair, fun hno => ⟨fun q hq hrefs => ?reuse, fun e he hlow => ⟨fun hold => ?empty, fun q hq hrefs => ?leave⟩⟩⟩
    case pair =>
      intro more
      have hfound : slotOfPair c x lane = some k := slotOfPair_some hk hlow
      have hbound : ensureKeyFilter k t (setSessionSlot o (some k) (setKeySlot k more c)) = bound k more :=
        ensureKeyFilter_bound hk.2.2
      refine ⟨fun hold => ?_, fun hold => ?_, fun q hq hne => ?_⟩
      · exact (bindKey_pair hfound).trans ((if_pos hold).trans (ensureKeyFilter_eq hk.2.2))
      · rw [← hbound]
        exact (bindKey_pair hfound).trans ((if_neg (by rw [show (session c o).slot = none from hold]; nofun)).trans
          (by rw [show (session c o).slot = none from hold]; rfl))
      · rw [← hbound]
        exact (bindKey_pair hfound).trans ((if_neg (by rw [show (session c o).slot = some q from hq]; exact fun e => hne (by cases e; rfl))).trans
          (by rw [show (session c o).slot = some q from hq]; rfl))
    case reuse =>
      have hlane : (keySlot (setKeySlot q fresh (closeKeyFilter q c)) q).keyLane = some lane := by rw [keySlot_setKeySlot]
      exact (bindKey_reuses (slotOfPair_none hno) hq hrefs).trans (ensureKeyFilter_eq hlane)
    case empty =>
      exact (bindKey_empty (slotOfPair_none hno) hold (emptyKeySlot_some he hlow)).trans (ensureKeyFilter_bound rfl)
    case leave =>
      exact (bindKey_leaves (slotOfPair_none hno) hq hrefs (emptyKeySlot_some he hlow)).trans
        (congrArg (dropRef q) (ensureKeyFilter_bound rfl))
  case drop =>
    intro x d
    refine ⟨dropRef_last, dropRef_more, closeKeyFilter_none, fun t lane hf hl => ?_⟩
    have hd : d = setKeySlot k { x with filter := none } (keyFilterClosed t lane c) := closeKeyFilter_some hf hl
    obtain ⟨v, w, hframe⟩ := closeKeyFilter_frame k c
    have hframe : d = { c with keys := v, slots := w } := hframe
    refine ⟨by rw [hframe], by rw [hd, keySlot_setKeySlot], fun v hv => ?_, fun n => ?_⟩
    · rw [hd, keySlot_setKeySlot_ne _ _ (Ne.symm hv), keySlot_keyFilterClosed]
    · have hslot : slot d n = slot (keyFilterClosed t lane c) n := 
        slot_of_slots ((congrArg Core.slots hd).trans (setKeySlot_slots _ _ _)) n
      rw [hslot, keyFilterClosed, slot_closeWhere]
      simp only [Slot.keyFilter_iff]
  case close =>
    intro d
    obtain ⟨v, hv⟩ := closeTunerSlots_frame t c
    obtain ⟨w, hw⟩ := closeWhere_slots_only (·.isOn t) c
    have hframe : d = { c with keys := v, slots := w } := by
      rw [hw] at hv
      exact hv
    refine ⟨?_, slot_closeTunerSlots t c, keySlot_closeTunerSlots t c⟩
    rw [hframe]
  case bulletin =>
    intro x after plain even odd hl
    refine ⟨takeKeys_malformed hl, fun hb hc hs => ?_, fun hb hc hp => ?_, fun hb hc hp => ?_, takeKeys_sessions hl⟩
    · have hafter : after = keySlot (setKeyTold k x.denied c) k :=
        congrArg (keySlot · k) ((takeKeys_denied hl hb hc).trans (if_neg hs))
      rw [hafter, keySlot_setKeyTold]
      rfl
    · exact (takeKeys_met hl hb hc).trans (if_pos hp)
    · have hafter : after = keySlot (setKeyTold k (x.opening (systemKey c) b) c) k :=
        congrArg (keySlot · k) ((takeKeys_met hl hb hc).trans (if_neg hp))
      rw [hafter, keySlot_setKeyTold, KeySlot.opening_eq]
      rfl
  case life =>
    intro x c1
    refine ⟨fun h => ?_, fun h hs => ?_, fun h hs => ?_⟩
    · rw [exec_keyLife, onCore_eq (keyLifeExpired_stopped h)]
    · rw [exec_keyLife, onCore_eq (keyLifeExpired_ready h hs)]
      rfl
    · rw [exec_keyLife, onCore_eq (keyLifeExpired_other h hs)]
      rfl

end Sys2Proof.Machine
end

section
/-! The issue record, and the access and limit verdicts (R84, R85, R97, R98, R130, R132). -/

namespace Sys2Proof.Machine

open Sys2Proof

/-! ## ISSUE and LOCK ISSUE (R84, R85) -/

theorem exec_issue (tag : Byte) (a : Option IssueReq) (s : State) :
    exec (.issue tag a) s = .next (answeredLater (.issue tag a) tag (issueStart a) s) := rfl

theorem exec_lockIssue (tag : Byte) (a : Option Unit) (s : State) :
    exec (.lockIssue tag a) s = .next (answeredLater (.lockIssue tag a) tag (lockStart a) s) := rfl

theorem exec_issueWriteDone (ok : Bool) (s : State) : exec (.issueWriteDone ok) s = .next (issueWriteDone ok s) := rfl
theorem exec_lockIssueWriteDone (ok : Bool) (s : State) : exec (.lockIssueWriteDone ok) s = .next (lockIssueWriteDone ok s) := rfl

/-- The fields of ISSUE that its checks let through. -/
def IssueFormed (a : IssueReq) : Prop :=
  1 ≤ a.address ∧ a.address ≤ 0xFFFFFFFF ∧ a.groups.length ≤ 4 ∧ (∀ g ∈ a.groups, 1 ≤ g ∧ g ≤ 65535) ∧ a.groups.Nodup ∧
    a.key.length = 16

theorem noRepeats_iff (l : List Nat) : noRepeats l = true ↔ l.Nodup := by
  induction l with
  | nil => simp [noRepeats]
  | cons x l ih => simp [noRepeats, ih]

theorem issueFields_of_formed {a : IssueReq} (h : IssueFormed a) :
    IssueReq.fields a = some ⟨a.address, a.groups, BitVec.ofNat 128 (number a.key)⟩ := by
  obtain ⟨h1, h2, h3, h4, h5, h6⟩ := h
  refine if_neg ?_
  have hgroups : a.groups.any (fun g => g == 0 || g > 65535) = false := by
    rw [List.any_eq_false]
    intro g hg
    have := h4 g hg
    simp
    omega
  have hrepeats : noRepeats a.groups = true := (noRepeats_iff _).mpr h5
  simp only [hgroups, hrepeats, h6]
  simp
  omega

theorem issueFields_of_not_formed {a : IssueReq} (h : ¬IssueFormed a) : IssueReq.fields a = none := by
  refine if_pos ?_
  by_contra hno
  refine h ?_
  simp only [Bool.or_eq_true, not_or, decide_eq_true_eq, Bool.not_eq_true', Bool.not_eq_false, List.any_eq_true, beq_iff_eq, not_exists,
    not_and, noRepeats_iff, ne_eq, not_not, not_lt, gt_iff_lt] at hno
  obtain ⟨⟨⟨⟨⟨h1, h2⟩, h3⟩, h4⟩, h5⟩, h6⟩ := hno
  exact ⟨by omega, by omega, h3, fun g hg => by have := h4 g hg; omega, h5, h6⟩

theorem issueStart_misfit {a : IssueReq} (c : Core) (h : ¬IssueFormed a) : issueStart (some a) c = .error .badRequest := by
  rw [issueStart, Option.bind_some, issueFields_of_not_formed h]

theorem issueStart_formed {a : IssueReq} (c : Core) (h : IssueFormed a) :
    issueStart (some a) c =
      if c.access.issue.isLocked then .error .issueLocked
      else .ok (.issue ⟨a.address, a.groups, BitVec.ofNat 128 (number a.key)⟩) := by
  rw [issueStart, Option.bind_some, issueFields_of_formed h]

/-- Settles O32: the request by what its start gives. -/
theorem issueRecordIsWritten : Obligations.IssueRecordIsWritten := by
  unfold Obligations.IssueRecordIsWritten
  intro tag s c writes
  have herror : ∀ {i : Instr} {start : Core → Except Code IssueWrite} {code : Code}, Handled i s →
      exec i s = .next (answeredLater i tag start s) → start c = .error code → Replies i tag code .none c s := by
    intro i start code hh hexec hs
    exact hexec.trans (by rw [answeredLater_error hh hs])
  have hok : ∀ {i : Instr} {start : Core → Except Code IssueWrite} {w : IssueWrite}, Handled i s →
      exec i s = .next (answeredLater i tag start s) → start c = .ok w → writes i w := by
    intro i start w hh hexec hs
    exact hexec.trans (by rw [answeredLater_ok hh hs])
  refine ⟨fun a hh => ⟨fun h => ?_, fun f h hf => ?_, fun h hf => ?_⟩, fun hh => ⟨fun h => ?_, fun f h => ?_, fun f h => ?_⟩⟩
  · exact herror hh (exec_issue _ _ _) (issueStart_misfit c h)
  · refine herror hh (exec_issue _ _ _) ?_
    rw [issueStart_formed c h, if_pos (Issue.isLocked_iff.mpr ⟨f, hf⟩)]
  · refine hok hh (exec_issue _ _ _) ?_
    rw [issueStart_formed c h, if_neg fun hl => (Issue.isLocked_iff.mp hl).elim hf]
  · exact herror hh (exec_lockIssue _ _ _) (by simp only [lockStart, h])
  · exact herror hh (exec_lockIssue _ _ _) (by simp only [lockStart, h])
  · exact hok hh (exec_lockIssue _ _ _) (by simp only [lockStart, h])

/-! ## The end of an issue-area write (R84, R85) -/

theorem issueWriteDone_issue {ok : Bool} {f : IssueFields} {s : State} (h : s.core.access.issueWrite = some (.issue f)) :
    issueWriteDone ok s =
      replied (.reply (headTag s) (if ok then .ok else .storeFault) .none)
        (reevaluate (setIssue (if ok then .written f else .blank) s.core)) s := by
  rw [issueWriteDone, h]
  rfl

theorem lockIssueWriteDone_verified {f : IssueFields} {s : State} (h : s.core.access.issueWrite = some .lockFlag)
    (hi : s.core.access.issue = .written f) :
    lockIssueWriteDone true s = replied (.reply (headTag s) .ok .none) (reevaluate { s.core with access := { s.core.access with
      issue := .locked f, issueWrite := none, last := Vector.replicate 5 none } }) s := by
  rw [lockIssueWriteDone, h, hi]
  rfl

theorem lockIssueWriteDone_failed {f : IssueFields} {s : State} (h : s.core.access.issueWrite = some .lockFlag)
    (hi : s.core.access.issue = .written f) :
    lockIssueWriteDone false s = replied (.reply (headTag s) .storeFault .none) (setIssue (.written f) s.core) s := by
  rw [lockIssueWriteDone, h, hi]
  rfl

theorem headTag_issue {s : State} {tag : Byte} {a : Option IssueReq} (h : s.front.intake.head? = some (.issue tag a)) : headTag s = tag := by
  rw [headTag, h]

theorem headTag_lockIssue {s : State} {tag : Byte} {a : Option Unit} (h : s.front.intake.head? = some (.lockIssue tag a)) :
    headTag s = tag := by
  rw [headTag, h]

theorem reevaluate_access (c : Core) : (reevaluate c).access = c.access := (reevaluate_sessions (.refl c)).access

/-- A re-evaluation after a change of the Grant Table changes the sessions alone. -/
theorem reevaluate_sessions_access (c : Core) (a : Access) :
    SessionsOnly { c with access := (reevaluate { c with access := a }).access } (reevaluate { c with access := a }) := by
  have h := reevaluate_sessions (.refl { c with access := a })
  exact ⟨h.dir, h.arb, h.slots, h.keys, rfl, h.guide, h.limits, h.purchase, h.uplink, h.pages, h.time⟩

/-- Settles O33, by the write that ends and how it ended. -/
theorem issueWriteEnds : Obligations.IssueWriteEnds := by
  unfold Obligations.IssueWriteEnds
  intro tag s c leaves
  have hleaves : ∀ {i : Instr} {code : Code} {x : Issue} {last : Vector (Option Seq) 5},
      exec i s = .next (replied (.reply tag code .none)
        (reevaluate { c with access := { c.access with issue := x, issueWrite := none, last := last } }) s) → leaves i code x last := by
    intro i code x last hexec
    exact ⟨_, hexec, reevaluate_access _, reevaluate_sessions_access c _⟩
  refine ⟨fun f a hw hhead => ⟨?_, ?_⟩, fun f a hw hi hhead => ⟨?_, ?_⟩, fun hw ok => ⟨?_, ?_⟩⟩
  · refine hleaves ?_
    rw [exec_issueWriteDone, issueWriteDone_issue hw, headTag_issue hhead]
    rfl
  · refine hleaves ?_
    rw [exec_issueWriteDone, issueWriteDone_issue hw, headTag_issue hhead]
    rfl
  · refine hleaves ?_
    rw [exec_lockIssueWriteDone, lockIssueWriteDone_verified hw hi, headTag_lockIssue hhead]
  · refine ⟨setIssue (.written f) c, ?_, rfl, .refl _⟩
    rw [exec_lockIssueWriteDone, lockIssueWriteDone_failed hw hi, headTag_lockIssue hhead]
  · rw [exec_issueWriteDone, issueWriteDone, show s.core.access.issueWrite = none from hw]
  · rw [exec_lockIssueWriteDone, lockIssueWriteDone, show s.core.access.issueWrite = none from hw]

/-! ## The limit verdict (R130, R132) -/

/-- A room's unlock grant covers a channel with its present event. -/
def Covered (x : RoomContext) (lcn : Nat) (event : Option Nat) : Prop :=
  ∃ g, x.grant = some g ∧ g.lcn = lcn ∧ (g.event = none ∨ g.event = event)

theorem grantCovers_iff {x : RoomContext} {lcn : Nat} {event : Option Nat} : grantCovers x lcn event = true ↔ Covered x lcn event := by
  unfold Covered
  cases hg : x.grant with
  | none => simp [grantCovers, hg]
  | some g => simp [grantCovers, hg, UnlockGrant.covers]

theorem ratingInForce_record {c : Core} {lcn id : Nat} {rec : EventRecord} (h : findRecord c lcn id = some rec) :
    ratingInForce c lcn (some id) = rec.rating := by
  rw [ratingInForce, Option.bind_some, h]

theorem ratingInForce_channel {c : Core} {lcn : Nat} {event : Option Nat} {e : ChannelEntry}
    (h : ∀ id, event = some id → findRecord c lcn id = none) (he : findChannel c lcn = some e) :
    ratingInForce c lcn event = e.baseRating := by
  have hnone : event.bind (findRecord c lcn) = none := by
    cases event with
    | none => rfl
    | some id => exact h id rfl
  rw [ratingInForce, hnone, he]
  rfl

theorem activeProfile_eq {c : Core} {r : Room} {p : Profile} (h : profileOf c (context c r).active = some p) : activeProfile c r = p := by
  rw [activeProfile, h]
  rfl

/-- The local minute of the day at a network time. -/
def minuteAt (k : Clock) (now : Nat) : Int := Int.fmod (now + k.zone.getD k.broadcast * 60) 86400 / 60

theorem minuteAt_nonneg (k : Clock) (now : Nat) : 0 ≤ minuteAt k now :=
  Int.ediv_nonneg (Int.fmod_nonneg_of_pos _ (by decide)) (by decide)

theorem localMinute_eq {k : Clock} {now : Nat} (h : k.time = some now) : localMinute k = some (minuteAt k now).toNat := by
  rw [localMinute, localTime, h]
  rfl

theorem localMinute_unset {k : Clock} (h : k.time = none) : localMinute k = none := by
  rw [localMinute, localTime, h]
  rfl

theorem Window.has_iff {w : Window} {m : Int} (hm : 0 ≤ m) : Window.has w m.toNat = true ↔ (w.start : Int) ≤ m ∧ m < (w.stop : Int) := by
  simp only [Window.has, Bool.and_eq_true, decide_eq_true_eq]
  omega

theorem outsideWindows_iff {c : Core} {p : Profile} :
    outsideWindows c p = true ↔ p.windows ≠ [] ∧ ∀ now, c.clock.time = some now →
      ∀ w ∈ p.windows, ¬((w.start : Int) ≤ minuteAt c.clock now ∧ minuteAt c.clock now < (w.stop : Int)) := by
  unfold outsideWindows
  cases ht : c.clock.time with
  | none => simp [localMinute_unset ht]
  | some now =>
    rw [localMinute_eq ht]
    simp only [Bool.and_eq_true, Bool.not_eq_true', List.isEmpty_eq_false_iff, List.any_eq_false, Window.has_iff (minuteAt_nonneg _ _),
      Option.some.injEq, forall_eq', ne_eq]

theorem allowanceSpent_iff {p : Profile} : allowanceSpent p = true ↔ p.used = p.allowance ∧ p.allowance < 1440 := by
  simp [allowanceSpent]

theorem limitVerdict_eq {c : Core} {r : Room} {lcn : Nat} {event : Option Nat} {p : Profile}
    (h : profileOf c (context c r).active = some p) :
    limitVerdict c r lcn event = { Reasons.none with
      rating := decide (p.ceiling < ratingInForce c lcn event) && !grantCovers (context c r) lcn event
      channelLocked := c.limits.lockList.contains lcn && !grantCovers (context c r) lcn event
      window := outsideWindows c p
      allowance := allowanceSpent p } := by
  rw [limitVerdict, activeProfile_eq h]

/-! ## The access verdict (R97, R98) -/

theorem accessGranted_unknown {c : Core} {lcn : Nat} {event : Option Nat} (h : findChannel c lcn = none) :
    accessGranted c lcn event = false := by
  unfold accessGranted
  rw [h]

theorem accessGranted_free {c : Core} {lcn : Nat} {event : Option Nat} {e : ChannelEntry} (h : findChannel c lcn = some e)
    (hk : e.kind = .free) : accessGranted c lcn event = true := by
  unfold accessGranted
  rw [h]
  dsimp only
  rw [hk]

theorem accessGranted_subscribed {c : Core} {lcn : Nat} {event : Option Nat} {e : ChannelEntry} (h : findChannel c lcn = some e)
    (hk : e.kind = .subscribed) :
    accessGranted c lcn event = (c.access.issue.isLocked && !c.access.cut && packageGranted c e.packages) := by
  unfold accessGranted
  rw [h]
  dsimp only
  rw [hk]

theorem accessGranted_eventPaid {c : Core} {lcn : Nat} {event : Option Nat} {e : ChannelEntry} (h : findChannel c lcn = some e)
    (hk : e.kind = .eventPaid) :
    accessGranted c lcn event = (c.access.issue.isLocked && !c.access.cut && event.any (eventGranted c lcn)) := by
  unfold accessGranted
  rw [h]
  dsimp only
  rw [hk]
  cases event with
  | none => rfl
  | some id => rfl

theorem paid_iff {c : Core} :
    (c.access.issue.isLocked && !c.access.cut) = true ↔ (∃ f, c.access.issue = .locked f) ∧ c.access.cut = false := by
  rw [Bool.and_eq_true, Issue.isLocked_iff, Bool.not_eq_true']

theorem packageGranted_iff {c : Core} {ids : List Nat} :
    packageGranted c ids = true ↔ ∃ g ∈ c.access.packages, ∃ day, c.clock.today = some day ∧ g.id ∈ ids ∧
      (g.first : Int) ≤ day ∧ day ≤ (g.last : Int) := by
  unfold packageGranted
  cases c.clock.today with
  | none => simp
  | some d => simp [PackageGrant.validOn]

theorem eventGranted_iff {c : Core} {lcn id : Nat} :
    eventGranted c lcn id = true ↔ ∃ g ∈ c.access.events, g.lcn = lcn ∧ g.event = id := by simp [eventGranted]

/-- Settles O34: the limit verdict reason by reason, the access verdict by the channel's kind. -/
theorem accessAndLimitVerdicts : Obligations.AccessAndLimitVerdicts := by
  unfold Obligations.AccessAndLimitVerdicts
  refine ⟨fun c r lcn event p hp => ?limits, fun c lcn event => ?access⟩
  case limits =>
    intro v covered offset
    have hv : v = _ := limitVerdict_eq (lcn := lcn) (event := event) hp
    have hcovered : grantCovers (context c r) lcn event = true ↔ covered := grantCovers_iff
    have hrating : v.rating = true ↔ p.ceiling < ratingInForce c lcn event ∧ ¬covered := by
      rw [hv, ← hcovered]
      simp
    refine ⟨fun n hn => ?_, ?_, ?_, ?_, ?_⟩
    · obtain ⟨id, rec, rfl, hrec, rfl⟩ | ⟨hno, e, he, rfl⟩ := hn
      · rw [hrating, ratingInForce_record hrec]
      · rw [hrating, ratingInForce_channel hno he]
    · rw [hv, ← hcovered]
      simp
    · rw [hv]
      exact outsideWindows_iff
    · rw [hv]
      exact allowanceSpent_iff
    · rw [hv]
      rfl
  case access =>
    intro granted paid
    refine ⟨fun h => ?_, fun e h hk => accessGranted_free h hk, fun e h hk => ?_, fun e h hk => ?_⟩
    · show ¬accessGranted c lcn event = true
      rw [accessGranted_unknown h]
      decide
    · show accessGranted c lcn event = true ↔ _
      rw [accessGranted_subscribed h hk, Bool.and_eq_true, paid_iff, packageGranted_iff]
    · show accessGranted c lcn event = true ↔ _
      rw [accessGranted_eventPaid h hk, Bool.and_eq_true, paid_iff, Option.any_eq_true]
      simp only [eventGranted_iff]
      rfl

end Sys2Proof.Machine
end

section
/-! Grant bulletins: their tests, their operations, the record group, and the ends of grants (R90 to R96, R99, R100). -/

namespace Sys2Proof.Machine

open Sys2Proof

/-! ## Offers to the commit queue (R177) -/

/-- An item that is not taken leaves the blocks. -/
theorem offer_unchanged {it : Item} {c : Core} {a : OfferAnswer} (h : (offer it c).1 = a) (ha : a ≠ .taken) : offer it c = (a, c) := by
  have hpair : offer it c = (a, (offer it c).2) := Prod.ext h rfl
  have hsame : (offer it c).2 = c := offer_refused hpair ha
  rw [hsame] at hpair
  exact hpair

/-! ## The record group (R95) -/

theorem creditWaits_iff {st : Store} :
    creditWaits st = true ↔ ∃ i ∈ st.queue, i.key = ⟨.bulletinNumbers, 0⟩ ∧ ∃ r ∈ i.records, r.1.kind = .credit := by
  simp [creditWaits]

/-- Whether the group that is posted holds a CREDIT record. -/
def groupCredit (asked : Bool) (c : Core) : Bool := asked || creditWaits c.store || (c.access.groupOwed && c.access.groupOwedCredit)

theorem groupItem_eq (c : Core) (credit : Bool) :
    groupItem c credit = ⟨⟨.bulletinNumbers, 0⟩,
      [(⟨.package, 0⟩, .packages c.access.packages), (⟨.eventGrant, 0⟩, .eventGrants c.access.events),
        (⟨.bulletinNumbers, 0⟩, .bulletinNumbers c.access.cut c.access.last)] ++
        (if credit then [(⟨.credit, 0⟩, .credit c.purchase.balance c.purchase.limit c.purchase.charged)] else []), credit⟩ := by
  cases credit with
  | true => rfl
  | false => rfl

/-- The group's owed marks. -/
def setGroupOwed (owed credit : Bool) (c : Core) : Core :=
  { c with access := { c.access with groupOwed := owed, groupOwedCredit := credit } }

theorem commitGroup_taken {asked : Bool} {c c' : Core} (h : offer (groupItem c (groupCredit asked c)) c = (.taken, c')) :
    commitGroup asked c = setGroupOwed false false c' := by
  unfold commitGroup
  dsimp only
  rw [show (asked || creditWaits c.store || (c.access.groupOwed && c.access.groupOwedCredit)) = groupCredit asked c from rfl, h]
  rfl

theorem commitGroup_full {asked : Bool} {c : Core} (h : (offer (groupItem c (groupCredit asked c)) c).1 = .queueFull) :
    commitGroup asked c = setGroupOwed true (groupCredit asked c) c := by
  unfold commitGroup
  dsimp only
  rw [show (asked || creditWaits c.store || (c.access.groupOwed && c.access.groupOwedCredit)) = groupCredit asked c from rfl,
    offer_unchanged h (by decide)]
  rfl

theorem commitGroup_wipe {asked : Bool} {c : Core} (h : (offer (groupItem c (groupCredit asked c)) c).1 = .duringWipe) :
    commitGroup asked c = c := by
  unfold commitGroup
  dsimp only
  rw [show (asked || creditWaits c.store || (c.access.groupOwed && c.access.groupOwedCredit)) = groupCredit asked c from rfl,
    offer_unchanged h (by decide)]

theorem commitGroup_refused {asked : Bool} {c : Core}
    (h : (offer (groupItem c (groupCredit asked c)) c).1 = .storeFull ∨ (offer (groupItem c (groupCredit asked c)) c).1 = .storeFault) :
    commitGroup asked c = setGroupOwed false false c := by
  unfold commitGroup
  dsimp only
  rw [show (asked || creditWaits c.store || (c.access.groupOwed && c.access.groupOwedCredit)) = groupCredit asked c from rfl]
  obtain h | h := h
  · rw [offer_unchanged h (by decide)]
    rfl
  · rw [offer_unchanged h (by decide)]
    rfl

/-- The commit of the group leaves the grants. -/
theorem commitGroup_access (asked : Bool) (c : Core) : ∃ x y, (commitGroup asked c).access = { c.access with groupOwed := x, groupOwedCredit := y } := by
  cases h : offer (groupItem c (groupCredit asked c)) c with
  | mk a c' =>
    have haccess := (offer_only h).access
    cases a with
    | taken => exact ⟨_, _, by rw [commitGroup_taken h, setGroupOwed, haccess]⟩
    | queueFull => exact ⟨_, _, by rw [commitGroup_full (by rw [h]), setGroupOwed]⟩
    | duringWipe => exact ⟨_, _, by rw [commitGroup_wipe (by rw [h])]⟩
    | storeFull => exact ⟨_, _, by rw [commitGroup_refused (.inl (by rw [h])), setGroupOwed]⟩
    | storeFault => exact ⟨_, _, by rw [commitGroup_refused (.inr (by rw [h])), setGroupOwed]⟩

/-! ## Ends of grants (R99, R100) -/

theorem expirePackages_none {today : Int} {c : Core} (h : ∀ g ∈ c.access.packages, today ≤ (g.last : Int)) :
    expirePackages today c = c := by
  refine if_neg ?_
  rw [List.any_eq_true]
  rintro ⟨g, hg, hlt⟩
  have := h g hg
  rw [decide_eq_true_eq] at hlt
  omega

theorem expirePackages_some {today : Int} {c : Core} (h : ∃ g ∈ c.access.packages, (g.last : Int) < today) :
    expirePackages today c =
      commitGroup false (postGrants .expiry (setPackages (c.access.packages.filter fun g => decide (today ≤ (g.last : Int))) c)) := by
  obtain ⟨g, hg, hlt⟩ := h
  exact if_pos (List.any_eq_true.mpr ⟨g, hg, by simpa using hlt⟩)

theorem expireEvents_none {now : Nat} {c : Core} (h : ∀ g ∈ c.access.events, now < g.expiry) : expireEvents now c = c := by
  refine if_neg ?_
  rw [List.any_eq_true]
  rintro ⟨g, hg, hle⟩
  have := h g hg
  rw [decide_eq_true_eq] at hle
  omega

theorem expireEvents_some {now : Nat} {c : Core} (h : ∃ g ∈ c.access.events, g.expiry ≤ now) :
    expireEvents now c =
      reevaluate (commitGroup false (postGrants .expiry (setEvents (c.access.events.filter fun g => decide (now < g.expiry)) c))) := by
  obtain ⟨g, hg, hle⟩ := h
  exact if_pos (List.any_eq_true.mpr ⟨g, hg, by simpa using hle⟩)

/-! ## The operations (R94) -/

theorem addPackage_held {id first last : Nat} {l : List PackageGrant} (h : ∃ g ∈ l, g.id = id) :
    addPackage id first last l = l.map fun g => if g.id = id then ⟨id, first, last⟩ else g := by
  obtain ⟨g, hg, he⟩ := h
  unfold addPackage
  rw [if_pos (List.any_eq_true.mpr ⟨g, hg, by simpa using he⟩)]
  simp only [beq_iff_eq]

theorem addPackage_new {id first last : Nat} {l : List PackageGrant} (h : ∀ g ∈ l, g.id ≠ id) :
    addPackage id first last l = if l.length < 48 then insertBy (fun a b => a.id < b.id) ⟨id, first, last⟩ l else l := by
  refine if_neg ?_
  rw [List.any_eq_true]
  rintro ⟨g, hg, he⟩
  exact h g hg (by simpa using he)

/-- ADD EVENT names an expiry that is past. -/
def Past (c : Core) (expiry : Nat) : Prop := ∃ now, c.clock.time = some now ∧ expiry ≤ now

theorem past_iff {c : Core} {expiry : Nat} : (c.clock.time.any fun now => decide (expiry ≤ now)) = true ↔ Past c expiry := by
  simp [Past, Option.any_eq_true]

theorem addEvent_past {lcn event expiry : Nat} {c : Core} (h : Past c expiry) : addEvent lcn event expiry c = c := if_pos (past_iff.mpr h)

/-- The event list with a grant in place of the one of its LCN and event id. -/
def withEvent (c : Core) (lcn event : Nat) (g : EventGrant) : Core :=
  setEvents (insertBy EventGrant.before g (c.access.events.filter fun x => !(x.lcn == lcn && x.event == event))) c

theorem addEvent_held {lcn event expiry : Nat} {c : Core} {g : EventGrant} (h : ¬Past c expiry)
    (hg : c.access.events.find? (fun x => x.lcn == lcn && x.event == event) = some g) :
    addEvent lcn event expiry c = withEvent c lcn event { g with expiry := max g.expiry expiry } := by
  have hsame := List.find?_some hg
  simp only [Bool.and_eq_true, beq_iff_eq] at hsame
  obtain ⟨rfl, rfl⟩ := hsame
  unfold addEvent
  dsimp only
  rw [if_neg (mt past_iff.mp h)]
  have hfind : c.access.events.find? (fun x => x.same ⟨g.lcn, g.event, expiry, .bulletin⟩) = some g := hg
  rw [hfind]
  rfl

theorem addEvent_new {lcn event expiry : Nat} {c : Core} (h : ¬Past c expiry)
    (hno : ∀ g ∈ c.access.events, g.lcn = lcn → g.event ≠ event) :
    addEvent lcn event expiry c =
      if c.access.events.length < eventPlaces c then withEvent c lcn event ⟨lcn, event, expiry, .bulletin⟩ else c := by
  have hfind : c.access.events.find? (fun x => x.same ⟨lcn, event, expiry, .bulletin⟩) = none := by
    rw [List.find?_eq_none]
    intro g hg
    have := hno g hg
    simpa [EventGrant.same] using this
  unfold addEvent
  dsimp only
  rw [if_neg (mt past_iff.mp h), hfind]
  rfl

theorem eventPlaces_eq (c : Core) : eventPlaces c = if c.purchase.inFlight = none then 24 else 23 := by
  unfold eventPlaces
  cases c.purchase.inFlight with
  | none => rfl
  | some f => rfl

theorem ackCovers_iff {u : Uplink} {s : Seq} :
    ackCovers u s = true ↔ u.state = .waitAck ∧ ∃ x r, u.report = some x ∧ x.records.getLast? = some r ∧ seqAfter r.seq s = false := by
  unfold ackCovers
  cases u.report with
  | none => simp
  | some x =>
    cases hr : x.records.getLast? with
    | none => simp [hr]
    | some r => simp [hr]

/-- The log without the records a purchase acknowledgement covers. -/
def logAcked (s : Seq) (c : Core) : Core :=
  setPurchase { c.purchase with
    log := c.purchase.log.dropWhile fun r => !seqAfter r.seq s
    acked := (c.purchase.log.takeWhile fun r => !seqAfter r.seq s).getLast?.map (·.seq) <|> c.purchase.acked } c

theorem purchaseAck_eq (s : Seq) (c : Core) :
    purchaseAck s c =
      dueTest (stopIfReported (commitLogAck (if ackCovers c.uplink s then acknowledged (logAcked s c) else logAcked s c))) := by
  unfold purchaseAck
  rw [ackLog_eq]
  dsimp only
  have hlast : ∀ x : Option Seq, (x <|> none) = x := fun x => by
    cases x with
    | none => rfl
    | some n => rfl
  rw [hlast]
  rfl

/-! ## A bulletin accepted (R94 to R96) -/

theorem applyBulletin_eq (k : Fin 5) (b : GrantBulletin) (c : Core) :
    applyBulletin k b c =
      let numbered := setLast k b.number (b.ops.foldl applyOp c)
      let posted := commitGroup
        (decide (numbered.purchase.balance ≠ c.purchase.balance ∨ numbered.purchase.limit ≠ c.purchase.limit)) numbered
      if numbered.access.packages ≠ c.access.packages ∨ numbered.access.events ≠ c.access.events ∨ numbered.access.cut ≠ c.access.cut then
        reevaluate (post (.grantsChanged (.bulletin k b.number) numbered.access.packages.length numbered.access.events.length
          numbered.access.cut) posted)
      else posted := by
  unfold applyBulletin postGrants
  dsimp only
  obtain ⟨x, y, h⟩ := commitGroup_access
    (decide ((setLast k b.number (b.ops.foldl applyOp c)).purchase.balance ≠ c.purchase.balance ∨
      (setLast k b.number (b.ops.foldl applyOp c)).purchase.limit ≠ c.purchase.limit)) (setLast k b.number (b.ops.foldl applyOp c))
  rw [h]

/-! ## The tests (R90 to R93) -/

theorem seqAfter_iff {n m : Seq} : seqAfter n m = true ↔ 1 ≤ (n - m).toNat ∧ (n - m).toNat ≤ 32767 := by simp [seqAfter]

theorem judgeBulletin_notLocked {b : GrantBulletin} {c : Core} (h : ∀ f, c.access.issue ≠ .locked f) : judgeBulletin b c = .released := by
  unfold judgeBulletin
  split
  · next f hf => exact absurd hf (h f)
  · rfl

theorem judgeBulletin_locked {b : GrantBulletin} {c : Core} {f : IssueFields} (h : c.access.issue = .locked f) :
    judgeBulletin b c =
      if bulletinFormed b then
        match addressSlot f b.address with
        | none => .released
        | some k =>
          if numberAccepted b.number (c.access.last.get k) then if roomFor b c.store then .applied k else .kept
          else .released
      else .released := by
  rw [judgeBulletin, h] <;> rfl

/-- Settles O35: expiry, the operations, the group and the tests, each by its cases. -/
theorem grantBulletinIsJudged : Obligations.GrantBulletinIsJudged := by
  unfold Obligations.GrantBulletinIsJudged
  refine ⟨fun today c => ⟨expirePackages_none, expirePackages_some⟩, fun now c => ⟨expireEvents_none, expireEvents_some⟩,
    fun c => ?operations, fun k b c => ?applied, fun asked c => ?group, fun b f c => ⟨judgeBulletin_notLocked, fun hf => ?tests⟩⟩
  case operations =>
    intro a p packages events
    refine ⟨fun id first last => ⟨fun h => ?_, fun h => ⟨fun hl => ?_, fun hl => ?_⟩⟩, fun id => rfl, fun lcn event expiry => ?event,
      fun n => rfl, fun n => rfl, rfl, rfl, rfl, fun s => ?ack⟩
    · exact congrArg (setPackages · c) (addPackage_held h)
    · exact congrArg (setPackages · c) ((addPackage_new h).trans (if_pos hl))
    · exact congrArg (setPackages · c) ((addPackage_new h).trans (if_neg (by omega)))
    case event =>
      intro others put past place
      refine ⟨addEvent_past, fun g hp hg => addEvent_held hp hg, fun hp hno => ⟨fun hl => ?_, fun hl => ?_⟩⟩
      · exact (addEvent_new hp hno).trans (if_pos (by rw [eventPlaces_eq]; exact hl))
      · exact (addEvent_new hp hno).trans (if_neg (by rw [eventPlaces_eq]; exact hl))
    case ack =>
      intro kept removed c1 covers
      refine ⟨fun h => ?_, fun h => ?_⟩
      · exact (purchaseAck_eq s c).trans (by rw [if_neg (mt ackCovers_iff.mp h)]; rfl)
      · exact (purchaseAck_eq s c).trans (by rw [if_pos (ackCovers_iff.mpr h)]; rfl)
  case applied =>
    intro done numbered credit posted x changed
    refine ⟨fun h => ?_, fun h => ?_⟩
    · exact (applyBulletin_eq k b c).trans (if_neg h)
    · exact (applyBulletin_eq k b c).trans (if_pos h)
  case group =>
    intro a p waits credit item owed
    have hcredit : groupCredit asked c = credit := by
      rw [Bool.eq_iff_iff]
      simp only [groupCredit, Bool.or_eq_true, Bool.and_eq_true, creditWaits_iff, credit, decide_eq_true_eq, or_assoc, waits, a]
    have hitem : groupItem c (groupCredit asked c) = item := by
      rw [hcredit]
      exact groupItem_eq c credit
    refine ⟨fun c' h => ?_, fun h => ?_, fun h => ?_, fun h => ?_⟩
    · rw [commitGroup_taken (by rw [hitem]; exact h), setGroupOwed, (offer_only h).access]
    · rw [commitGroup_full (by rw [hitem]; exact h), hcredit]
      rfl
    · rw [commitGroup_wipe (by rw [hitem]; exact h)]
    · rw [commitGroup_refused (by rw [hitem]; exact h)]
      rfl
  case tests =>
    rw [judgeBulletin_locked hf]
    refine ⟨fun h => ?_, fun h => ?_, fun k last hk hl hn => ?_, fun k hb hk hl => ?_⟩
    · rw [h]
      rfl
    · rw [h]
      exact ite_self _
    · have hno : ¬numberAccepted b.number (c.access.last.get k) = true := by
        rw [hl, numberAccepted, seqAfter_iff]
        omega
      rw [hk]
      dsimp only
      rw [if_neg hno]
      exact ite_self _
    · have hyes : numberAccepted b.number (c.access.last.get k) = true := by
        cases hlast : c.access.last.get k with
        | none => rfl
        | some last => exact seqAfter_iff.mpr (hl last hlast)
      rw [hk, hb]
      dsimp only
      rw [if_pos hyes]
      rfl

end Sys2Proof.Machine
end

section
/-! The Limit Unit: its commits and the PIN check (R126 to R129), and the requests that make one (R125, R133 to R145). -/

namespace Sys2Proof.Machine

open Sys2Proof

/-! ## Commits of the Limit Unit (R128, R129, R140) -/

/-- The blocks with the owed marks of the Limit Unit replaced. -/
def withOwed (l : List LimitCommit) (c : Core) : Core := { c with limits := { c.limits with owed := l } }

/-- The blocks with one owed mark of the Limit Unit cleared. -/
def unowed (k : LimitCommit) (c : Core) : Core := withOwed (c.limits.owed.filter (· != k)) c

theorem commitLimit_taken {k : LimitCommit} {c c' : Core} (h : offer (limitItem c k) c = (.taken, c')) :
    commitLimit k c = (.taken, unowed k c') := by
  unfold commitLimit
  rw [h]
  rfl

theorem commitLimit_full {k : LimitCommit} {c : Core} (h : (offer (limitItem c k) c).1 = .queueFull) :
    commitLimit k c = (.queueFull, withOwed (owe k c.limits.owed) c) := by
  unfold commitLimit
  rw [offer_unchanged h (by decide)]
  rfl

theorem commitLimit_wipe {k : LimitCommit} {c : Core} (h : (offer (limitItem c k) c).1 = .duringWipe) :
    commitLimit k c = (.duringWipe, c) := by
  unfold commitLimit
  rw [offer_unchanged h (by decide)]

theorem commitLimit_refused {k : LimitCommit} {c : Core} {a : OfferAnswer} (h : (offer (limitItem c k) c).1 = a)
    (ha : a = .storeFull ∨ a = .storeFault) : commitLimit k c = (a, unowed k c) := by
  unfold commitLimit
  obtain rfl | rfl := ha
  · rw [offer_unchanged h (by decide)]
    rfl
  · rw [offer_unchanged h (by decide)]
    rfl

/-! ## The PIN check (R126) -/

/-- The lines of R126 before the first comparison do not apply. -/
def PinOpen (c : Core) : Prop := c.store.state ≠ .wiping ∧ c.limits.failFlag = false ∧ c.limits.lockout.running = false

theorem pinCheck_wiping {p : Option Pin} {c : Core} (h : c.store.state = .wiping) : pinCheck p c = (.busy, c) := if_pos h

theorem pinCheck_failFlag {p : Option Pin} {c : Core} (h : c.store.state ≠ .wiping) (hf : c.limits.failFlag = true) :
    pinCheck p c = (.busy, c) := by
  simp [pinCheck, h, hf]

theorem pinCheck_lockedOut {p : Option Pin} {c : Core} (h : c.store.state ≠ .wiping) (hf : c.limits.failFlag = false)
    (hl : c.limits.lockout.running = true) : pinCheck p c = (.lockedOut, c) := by
  simp [pinCheck, h, hf, hl]

theorem pinCheck_unset {p : Option Pin} {c : Core} (h : PinOpen c) (hp : c.limits.pin = none) : pinCheck p c = (.pass, c) := by
  obtain ⟨hs, hf, hl⟩ := h
  simp [pinCheck, hs, hf, hl, hp]

theorem pinCheck_missing {c : Core} (h : PinOpen c) (hp : c.limits.pin.isSome = true) : pinCheck none c = (.wrong, c) := by
  obtain ⟨hs, hf, hl⟩ := h
  obtain ⟨pin, hp⟩ := Option.isSome_iff_exists.mp hp
  simp [pinCheck, hs, hf, hl, hp]

theorem pinCheck_compared {x pin : Pin} {c : Core} (h : PinOpen c) (hp : c.limits.pin = some pin) :
    pinCheck (some x) c =
      if noPinRoom c then (.busy, c) else if x = pin then (.pass, pinSuccess c) else (.wrong, pinFailure c) := by
  obtain ⟨hs, hf, hl⟩ := h
  simp [pinCheck, hs, hf, hl, hp]

theorem noPinRoom_iff {c : Core} :
    noPinRoom c = true ↔ 16 ≤ c.store.queue.length ∧ ∀ it ∈ c.store.queue, it.key ≠ ⟨.pin, 0⟩ := by
  simp [noPinRoom, freePlaces, isWaiting, Nat.sub_eq_zero_iff_le]

theorem pinCheck_room {x pin : Pin} {c : Core} (h : PinOpen c) (hp : c.limits.pin = some pin) (hr : noPinRoom c = false) :
    pinCheck (some x) c = if x = pin then (.pass, pinSuccess c) else (.wrong, pinFailure c) := by
  rw [pinCheck_compared h hp, hr]
  rfl

/-! ## What a comparison commits (R127, R128) -/

/-- The blocks with the failure count replaced. -/
def withCount (n : Nat) (c : Core) : Core := { c with limits := { c.limits with count := n } }

/-- The blocks after a third failure. -/
def lockedOutAt (c : Core) : Core :=
  post (.pinLockout .failures 15) (setLimits { c.limits with lockout := ⟨900000, 900000, true⟩ } c)

theorem pinFailure_taken {c c' : Core} (h : offer (limitItem (withCount (c.limits.count + 1) c) .pin) (withCount (c.limits.count + 1) c) = (.taken, c')) :
    pinFailure c =
      let flagged := { unowed .pin c' with limits := { (unowed .pin c').limits with failFlag := true } }
      if c.limits.count + 1 = 3 then lockedOutAt flagged else flagged := by
  unfold pinFailure
  dsimp only
  rw [show setLimits { c.limits with count := c.limits.count + 1 } c = withCount (c.limits.count + 1) c from rfl,
    commitLimit_taken h]
  rfl

theorem pinSuccess_none {c : Core} (h : c.limits.count = 0) : pinSuccess c = c := if_pos h

theorem pinSuccess_taken {c c' : Core} (hn : c.limits.count ≠ 0) (h : offer (limitItem (withCount 0 c) .pin) (withCount 0 c) = (.taken, c')) :
    pinSuccess c = unowed .pin c' := by
  rw [pinSuccess, if_neg hn, commitLimit', show setLimits { c.limits with count := 0 } c = withCount 0 c from rfl,
    commitLimit_taken h]

/-- Settles O38: R126 by its lines, and the two ends of a comparison by the commit that it posts. -/
theorem pinCheckIsSettled : Obligations.PinCheckIsSettled := by
  unfold Obligations.PinCheckIsSettled
  refine ⟨?lines, ?commits⟩
  case lines =>
    intro p c l open1 open2 open3 full hq
    have hopen : open3 → PinOpen c := fun ⟨⟨h1, h2⟩, h3⟩ => ⟨h1, h2, h3⟩
    have hfull : full ↔ noPinRoom c = true := by
      rw [noPinRoom_iff]
      exact and_congr_left fun _ => ⟨fun h => h.ge, fun h => le_antisymm hq h⟩
    refine ⟨fun h => pinCheck_wiping (not_not.mp h), pinCheck_failFlag, fun ⟨h1, h2⟩ h3 => pinCheck_lockedOut h1 h2 h3,
      fun h => pinCheck_unset (hopen h), ?missing, ?noRoom, ?right, ?wrong⟩
    case missing =>
      rintro h hp rfl
      exact pinCheck_missing (hopen h) hp
    case noRoom =>
      intro h hp hx hf
      obtain ⟨pin, hp⟩ := Option.isSome_iff_exists.mp hp
      obtain ⟨x, rfl⟩ := Option.isSome_iff_exists.mp hx
      rw [pinCheck_compared (hopen h) hp, if_pos (hfull.mp hf)]
    case right =>
      intro h hp hx hf
      obtain ⟨pin, hp⟩ := Option.isSome_iff_exists.mp hp
      have hx' : p = some pin := hx.trans hp
      subst hx'
      rw [pinCheck_room (hopen h) hp (by simpa [hfull] using hf), if_pos rfl]
      exact ⟨rfl, pinSuccess_none⟩
    case wrong =>
      intro x h hp hx hne hf
      obtain ⟨pin, hp⟩ := Option.isSome_iff_exists.mp hp
      subst hx
      rw [pinCheck_room (hopen h) hp (by simpa [hfull] using hf), if_neg fun e => hne (by rw [e]; exact hp.symm)]
  case commits =>
    intro x pin c c' l item hs hf hl hp hroom
    have hopen : PinOpen c := ⟨hs, hf, hl⟩
    have hr : noPinRoom c = false := by
      refine Bool.eq_false_iff.mpr fun h => ?_
      obtain ⟨hlen, hnone⟩ := noPinRoom_iff.mp h
      obtain hlt | ⟨it, hit, hk⟩ := hroom
      · omega
      · exact hnone it hit hk
    have hitem : ∀ n, limitItem (withCount n c) .pin = item n := fun n => by
      have : limitItem (withCount n c) .pin = .mk ⟨.pin, 0⟩ [(⟨.pin, 0⟩, .pin c.limits.pin n)] true := rfl
      rw [this, hp]
    refine ⟨fun hne hn ht => ?wrong, fun he hn ht => ?right⟩
    case wrong =>
      have hoff : offer (limitItem (withCount (c.limits.count + 1) c) .pin) (withCount (c.limits.count + 1) c) = (.taken, c') := by
        rw [hitem]
        exact ht
      have hlim : c'.limits = { c.limits with count := c.limits.count + 1 } := (offer_only hoff).limits
      have hlink : c'.link = c.link := (offer_only hoff).link
      have hclock : c'.clock = c.clock := (offer_only hoff).clock
      rw [pinCheck_room hopen hp hr, if_neg hne, pinFailure_taken hoff]
      by_cases h2 : l.count = 2
      · have h3 : c.limits.count = 2 := h2
        simp [l, h3, lockedOutAt, setLimits, post, stamped, unowed, withOwed, hlim, hlink, hclock]
      · have h3 : ¬c.limits.count = 2 := h2
        simp [l, h3, unowed, withOwed, hlim, hlink]
    case right =>
      have hoff : offer (limitItem (withCount 0 c) .pin) (withCount 0 c) = (.taken, c') := by
        rw [hitem]
        exact ht
      have hlim : c'.limits = { c.limits with count := 0 } := (offer_only hoff).limits
      have hn0 : c.limits.count ≠ 0 := fun h => by
        have : l.count = 0 := h
        omega
      rw [pinCheck_room hopen hp hr, if_pos he, pinSuccess_taken hn0 hoff, unowed, hlim]
      unfold withOwed
      rw [hlim]

end Sys2Proof.Machine
end

section
/-! PURCHASE: the checks of Table 8.3-1 (R151, R152). -/

namespace Sys2Proof.Machine

open Sys2Proof

theorem exec_purchase (tag : Byte) (a : Option PurchaseReq) (s : State) : exec (.purchase tag a) s = execPurchase tag a s := rfl

theorem lcnInRange_true {n : Nat} (h1 : 1 ≤ n) (h2 : n ≤ 9999) : lcnInRange n = true := by simp [lcnInRange, h1, h2]

theorem targetFormed_event {lcn ev : Nat} (h1 : 1 ≤ lcn) (h2 : lcn ≤ 9999) (h3 : ev ≤ 65535) : targetFormed (.event lcn ev) = true := by
  simp [targetFormed, lcnInRange_true h1 h2, h3]

theorem purchase_fails {n lcn ev : Nat} {r : Room} {pin : Option Pin} {c : Core} {code : Code} (hr : roomOf n = some r)
    (hf : targetFormed (.event lcn ev) = true) (h : purchaseChecks c r (.event lcn ev) = .error code) :
    purchase ⟨n, .event lcn ev, pin⟩ c = (.bare code, c) := by
  simp [purchase, hr, hf, h]

theorem purchase_goesOn {n lcn ev : Nat} {r : Room} {pin : Option Pin} {c : Core} {b : Bid} (hr : roomOf n = some r)
    (hf : targetFormed (.event lcn ev) = true) (h : purchaseChecks c r (.event lcn ev) = .ok b) :
    purchase ⟨n, .event lcn ev, pin⟩ c = purchaseRoom r b pin c := by
  simp [purchase, hr, hf, h]

/-! ## The checks before the event's own -/

theorem Issue.isLocked_false_iff {i : Issue} : i.isLocked = false ↔ ¬∃ f, i = .locked f := by
  rw [← Issue.isLocked_iff, Bool.not_eq_true]

theorem purchaseChecks_notIssued {c : Core} {r : Room} {t : PurchaseTarget} (h : ¬∃ f, c.access.issue = .locked f) :
    purchaseChecks c r t = .error .notIssued := by
  simp [purchaseChecks, Issue.isLocked_false_iff.mpr h]

theorem purchaseChecks_cut {c : Core} {r : Room} {t : PurchaseTarget} (h : ∃ f, c.access.issue = .locked f)
    (hc : c.access.cut = true) : purchaseChecks c r t = .error .cut := by
  simp [purchaseChecks, Issue.isLocked_iff.mpr h, hc]

theorem purchaseChecks_busy {c : Core} {r : Room} {t : PurchaseTarget} (h : ∃ f, c.access.issue = .locked f)
    (hc : c.access.cut = false) (hf : c.purchase.inFlight ≠ none) : purchaseChecks c r t = .error .busy := by
  simp [purchaseChecks, Issue.isLocked_iff.mpr h, hc, Option.isSome_iff_ne_none.mpr hf]

/-- Nothing about the unit itself stands against a purchase. -/
structure MayBuy (c : Core) : Prop where
  issued : ∃ f, c.access.issue = .locked f
  uncut : c.access.cut = false
  noneInFlight : c.purchase.inFlight = none

theorem MayBuy.purchaseChecks {c : Core} {r : Room} {lcn ev : Nat} (h : MayBuy c) :
    purchaseChecks c r (.event lcn ev) =
      match findChannel c lcn, findRecord c lcn ev with
      | some e, some er =>
        match e.kind, er.price with
        | .eventPaid, some price =>
          if eventGranted c lcn ev || logHas c.purchase lcn ev then .error .already
          else
            match c.clock.time with
            | none => .error .tooLate
            | some now =>
              if er.finish < now + 300 then .error .tooLate
              else if price > c.purchase.balance then .error .noCredit
              else if c.purchase.log.length ≥ 48 then .error .logFull
              else .ok ⟨lcn, ev, price, er.finish, now⟩
        | _, _ => .error .noSuch
      | _, _ => .error .noSuch := by
  unfold Machine.purchaseChecks
  rw [if_neg (by simp [Issue.isLocked_iff.mpr h.issued]), if_neg (by simp [h.uncut]), if_neg (by simp [h.noneInFlight])] <;> rfl

/-- An event on sale: a priced event of an EVENT channel. -/
structure OnSale (c : Core) (lcn ev : Nat) (rec : EventRecord) (price : Nat) : Prop where
  channel : ∃ e, findChannel c lcn = some e ∧ e.kind = .eventPaid
  record : findRecord c lcn ev = some rec
  priced : rec.price = some price

theorem purchaseChecks_noSuch {c : Core} {r : Room} {lcn ev : Nat} (h : MayBuy c) (hs : ∀ rec price, ¬OnSale c lcn ev rec price) :
    purchaseChecks c r (.event lcn ev) = .error .noSuch := by
  rw [h.purchaseChecks]
  split
  · next e er he her =>
    split
    · next price hk hp => exact absurd ⟨⟨e, he, hk⟩, her, hp⟩ (hs er price)
    · rfl
  · rfl

/-! ## The checks of the event on sale -/

/-- The event is granted already, or stands in the log. -/
def Owned (c : Core) (lcn ev : Nat) : Prop :=
  (∃ g ∈ c.access.events, g.lcn = lcn ∧ g.event = ev) ∨ ∃ x ∈ c.purchase.log, x.lcn = lcn ∧ x.event = ev

theorem owned_iff {c : Core} {lcn ev : Nat} : (eventGranted c lcn ev || logHas c.purchase lcn ev) = true ↔ Owned c lcn ev := by
  simp [Owned, eventGranted_iff, logHas]

theorem purchaseChecks_onSale {c : Core} {r : Room} {lcn ev price : Nat} {rec : EventRecord} (h : MayBuy c)
    (hs : OnSale c lcn ev rec price) :
    purchaseChecks c r (.event lcn ev) =
      if eventGranted c lcn ev || logHas c.purchase lcn ev then .error .already
      else
        match c.clock.time with
        | none => .error .tooLate
        | some now =>
          if rec.finish < now + 300 then .error .tooLate
          else if price > c.purchase.balance then .error .noCredit
          else if c.purchase.log.length ≥ 48 then .error .logFull
          else .ok ⟨lcn, ev, price, rec.finish, now⟩ := by
  obtain ⟨⟨e, he, hk⟩, hrec, hp⟩ := hs
  rw [h.purchaseChecks, he, hrec]
  dsimp only
  rw [hk, hp]

theorem purchaseChecks_owned {c : Core} {r : Room} {lcn ev price : Nat} {rec : EventRecord} (h : MayBuy c)
    (hs : OnSale c lcn ev rec price) (ho : Owned c lcn ev) : purchaseChecks c r (.event lcn ev) = .error .already := by
  rw [purchaseChecks_onSale h hs, if_pos (owned_iff.mpr ho)]

theorem purchaseChecks_noTime {c : Core} {r : Room} {lcn ev price : Nat} {rec : EventRecord} (h : MayBuy c)
    (hs : OnSale c lcn ev rec price) (ho : ¬Owned c lcn ev) (ht : c.clock.time = none) :
    purchaseChecks c r (.event lcn ev) = .error .tooLate := by
  rw [purchaseChecks_onSale h hs, if_neg (mt owned_iff.mp ho), ht]

theorem purchaseChecks_timed {c : Core} {r : Room} {lcn ev price now : Nat} {rec : EventRecord} (h : MayBuy c)
    (hs : OnSale c lcn ev rec price) (ho : ¬Owned c lcn ev) (ht : c.clock.time = some now) :
    purchaseChecks c r (.event lcn ev) =
      if rec.finish < now + 300 then .error .tooLate
      else if price > c.purchase.balance then .error .noCredit
      else if c.purchase.log.length ≥ 48 then .error .logFull
      else .ok ⟨lcn, ev, price, rec.finish, now⟩ := by
  rw [purchaseChecks_onSale h hs, if_neg (mt owned_iff.mp ho), ht]

theorem purchaseChecks_passes {c : Core} {r : Room} {lcn ev price now : Nat} {rec : EventRecord} (h : MayBuy c)
    (hs : OnSale c lcn ev rec price) (ho : ¬Owned c lcn ev) (ht : c.clock.time = some now) (hlate : now + 300 ≤ rec.finish)
    (hcredit : price ≤ c.purchase.balance) (hlog : c.purchase.log.length < 48) :
    purchaseChecks c r (.event lcn ev) = .ok ⟨lcn, ev, price, rec.finish, now⟩ := by
  rw [purchaseChecks_timed h hs ho ht, if_neg (by omega), if_neg (by omega), if_neg (by omega)]

/-! ## The grant's place (R152) -/

theorem purchaseRoom_full {r : Room} {b : Bid} {pin : Option Pin} {c : Core} (he : ∀ g ∈ c.access.events, b.now < g.expiry)
    (hfull : 24 ≤ c.access.events.length) : purchaseRoom r b pin c = (.bare .noRoom, c) := by
  rw [purchaseRoom, expireEvents_none he]
  exact if_pos hfull

theorem purchaseRoom_room {r : Room} {b : Bid} {pin : Option Pin} {c : Core} (he : ∀ g ∈ c.access.events, b.now < g.expiry)
    (hroom : c.access.events.length < 24) :
    purchaseRoom r b pin c =
      if b.price > (activeProfile c r).purchaseCeiling then withPin pin (commitPurchase r b) c else commitPurchase r b c := by
  rw [purchaseRoom, expireEvents_none he]
  exact if_neg (by omega)

/-- Settles O44: the checks of Table 8.3-1 one after the other, each under the failure of those before it. -/
theorem purchaseIsRefused : Obligations.PurchaseIsRefused := by
  unfold Obligations.PurchaseIsRefused
  intro tag room lcn ev pin s hroom h1 h2 h3 i c answers issued ok1 ok2 hh
  obtain ⟨r, hr⟩ : ∃ r, roomOf room = some r := by
    obtain rfl | rfl : room = 0 ∨ room = 1 := by omega
    · exact ⟨.a, rfl⟩
    · exact ⟨.b, rfl⟩
  have hf := targetFormed_event h1 h2 h3
  have reply : ∀ {code : Code}, purchase ⟨room, .event lcn ev, pin⟩ c = (.bare code, c) → answers code := fun h =>
    replies_of_answeredWith (exec_purchase tag _ s) hh h
  have fails : ∀ {code : Code}, purchaseChecks c r (.event lcn ev) = .error code → answers code := fun h =>
    reply (purchase_fails hr hf h)
  have may : ok2 → MayBuy c := fun ⟨⟨hi, hc⟩, hn⟩ => ⟨hi, hc, hn⟩
  refine ⟨fun h => fails (purchaseChecks_notIssued h), fun h hc => fails (purchaseChecks_cut h hc),
    fun ⟨h, hc⟩ hfl => fails (purchaseChecks_busy h hc hfl), fun h hno => ?noSuch, fun e rec price h he hk hrec hp => ?onSale⟩
  case noSuch =>
    refine fails (purchaseChecks_noSuch (may h) fun rec price hs => ?_)
    obtain ⟨⟨e, he, hk⟩, hrec, hp⟩ := hs
    exact hno e rec price he hrec hp hk
  case onSale =>
    have hsale : OnSale c lcn ev rec price := ⟨⟨e, he, hk⟩, hrec, hp⟩
    refine ⟨fun ho => fails (purchaseChecks_owned (may h) hsale ho), fun ho ht => fails (purchaseChecks_noTime (may h) hsale ho ht),
      fun now ho ht hl => fails ?late, fun now ho ht hl hc => fails ?noCredit, fun now ho ht hl hc hlog => fails ?logFull,
      fun now ho ht hl hc hlog hroom hev => reply ?noRoom⟩
    case late => rw [purchaseChecks_timed (may h) hsale ho ht, if_pos hl]
    case noCredit => rw [purchaseChecks_timed (may h) hsale ho ht, if_neg (by omega), if_pos hc]
    case logFull => rw [purchaseChecks_timed (may h) hsale ho ht, if_neg (by omega), if_neg (by omega), if_pos hlog]
    case noRoom =>
      rw [purchase_goesOn hr hf (purchaseChecks_passes (may h) hsale ho ht hl hc hlog)]
      exact purchaseRoom_full hev hroom

end Sys2Proof.Machine
end

section
/-! The PIN check in a request: what it leaves of the blocks, and the requests that make one (R125, R133, R135, R136). -/

namespace Sys2Proof.Machine

open Sys2Proof

/-! ## What the PIN check leaves alone (R126 to R128) -/

theorem StoreOnly.eq_with {c c' : Core} (h : StoreOnly c c') : c' = { c with store := c'.store, free := c'.free } := by
  obtain ⟨hdir, harb, hslots, hrooms, hkeys, haccess, hguide, hlimits, hpurchase, huplink, hclock, hlink, -⟩ := h
  cases c'
  simp only at hdir harb hslots hrooms hkeys haccess hguide hlimits hpurchase huplink hclock hlink
  subst hdir harb hslots hrooms hkeys haccess hguide hlimits hpurchase huplink hclock hlink
  rfl

/-- The blocks but for the PIN's own state, the commit queue and the link: what a PIN check leaves alone. -/
def PinOnly (c c' : Core) : Prop :=
  ∃ store free link count lockout failFlag owed, c' = { c with
    store := store, free := free, link := link
    limits := { c.limits with count := count, lockout := lockout, failFlag := failFlag, owed := owed } }

theorem PinOnly.refl (c : Core) : PinOnly c c := ⟨_, _, _, _, _, _, _, rfl⟩

theorem PinOnly.trans {a b c : Core} (h : PinOnly a b) (h' : PinOnly b c) : PinOnly a c := by
  obtain ⟨_, _, _, _, _, _, _, rfl⟩ := h
  obtain ⟨_, _, _, _, _, _, _, rfl⟩ := h'
  exact ⟨_, _, _, _, _, _, _, rfl⟩

theorem PinOnly.offer (it : Item) (c : Core) : PinOnly c (offer it c).2 := by
  obtain ⟨a, c', h⟩ : ∃ a c', Machine.offer it c = (a, c') := ⟨_, _, rfl⟩
  rw [h, (offer_only h).eq_with]
  exact ⟨_, _, _, _, _, _, _, rfl⟩

theorem PinOnly.commitLimit (k : LimitCommit) (c : Core) : PinOnly c (commitLimit k c).2 := by
  have ho := PinOnly.offer (limitItem c k) c
  unfold Machine.commitLimit
  split
  · next c' h =>
    rw [h] at ho
    exact ho.trans ⟨_, _, _, _, _, _, _, rfl⟩
  · next c' h =>
    rw [h] at ho
    exact ho
  · next c' _ _ h =>
    rw [h] at ho
    exact ho.trans ⟨_, _, _, _, _, _, _, rfl⟩

theorem PinOnly.pinSuccess (c : Core) : PinOnly c (pinSuccess c) := by
  unfold Machine.pinSuccess
  split
  · exact .refl c
  · exact .trans ⟨_, _, _, _, _, _, _, rfl⟩ (.commitLimit .pin _)

theorem PinOnly.pinFailure (c : Core) : PinOnly c (pinFailure c) := by
  have hcommit : PinOnly c (Machine.commitLimit .pin (setLimits { c.limits with count := c.limits.count + 1 } c)).2 :=
    .trans ⟨_, _, _, _, _, _, _, rfl⟩ (.commitLimit .pin _)
  unfold Machine.pinFailure
  dsimp only
  split
  · split
    · exact hcommit.trans ⟨_, _, _, _, _, _, _, rfl⟩
    · exact hcommit.trans ⟨_, _, _, _, _, _, _, rfl⟩
  · split
    · exact hcommit.trans ⟨_, _, _, _, _, _, _, rfl⟩
    · exact hcommit

theorem PinOnly.pinCheck (p : Option Pin) (c : Core) : PinOnly c (pinCheck p c).2 := by
  unfold Machine.pinCheck
  split
  · exact .refl c
  split
  · exact .refl c
  split
  · exact .refl c
  split
  · exact .refl c
  · exact .refl c
  split
  · exact .refl c
  split
  · exact .pinSuccess c
  · exact .pinFailure c

theorem PinPasses.only {p : Option Pin} {c c' : Core} (h : PinPasses p c c') : PinOnly c c' := by
  have hp := PinOnly.pinCheck p c
  rw [show Machine.pinCheck p c = (.pass, c') from h] at hp
  exact hp

/-! ## A request that makes a PIN check (R125) -/

theorem withPin_passes {p : Option Pin} {k : Core → Answer × Core} {c c' : Core} (h : PinPasses p c c') :
    withPin p k c = k c' := by
  rw [withPin, show pinCheck p c = (.pass, c') from h]

/-- The three answers of a PIN check that does not pass, and the codes of R125. -/
def PinRefusal (a : PinAnswer) (code : Code) : Prop :=
  (a, code) ∈ [(PinAnswer.wrong, Code.pinWrong), (.lockedOut, .pinLockedOut), (.busy, .busy)]

theorem withPin_refused {p : Option Pin} {k : Core → Answer × Core} {c c' : Core} {a : PinAnswer} {code : Code}
    (ha : PinRefusal a code) (h : pinCheck p c = (a, c')) : withPin p k c = (.bare code, c') := by
  simp only [PinRefusal, List.mem_cons, Prod.mk.injEq, List.not_mem_nil, or_false] at ha
  obtain ⟨rfl, rfl⟩ | ⟨rfl, rfl⟩ | ⟨rfl, rfl⟩ := ha
  · rw [withPin, h]
  · rw [withPin, h]
  · rw [withPin, h]

/-! ## The requests as far as their PIN check -/

theorem exec_unlockRoom (tag : Byte) (a : Option RoomPinReq) (s : State) : exec (.unlockRoom tag a) s = execUnlockRoom tag a s := rfl
theorem exec_setPin (tag : Byte) (a : Option SetPinReq) (s : State) : exec (.setPin tag a) s = execSetPin tag a s := rfl
theorem exec_wipeAccount (tag : Byte) (a : Option (Option Pin)) (s : State) : exec (.wipeAccount tag a) s = execWipeAccount tag a s := rfl
theorem exec_switchProfile (tag : Byte) (a : Option ProfilePinReq) (s : State) : exec (.switchProfile tag a) s = execSwitchProfile tag a s := rfl
theorem exec_returnProfile (tag : Byte) (a : Option Nat) (s : State) : exec (.returnProfile tag a) s = execReturnProfile tag a s := rfl
theorem exec_setProfile (tag : Byte) (a : Option SetProfileReq) (s : State) : exec (.setProfile tag a) s = execSetProfile tag a s := rfl
theorem exec_setRoomDefault (tag : Byte) (a : Option ProfilePinReq) (s : State) : exec (.setRoomDefault tag a) s = execSetRoomDefault tag a s := rfl
theorem exec_lockChannel (tag : Byte) (a : Option LcnPinReq) (s : State) : exec (.lockChannel tag a) s = execLockChannel tag a s := rfl
theorem exec_unlockChannel (tag : Byte) (a : Option LcnPinReq) (s : State) : exec (.unlockChannel tag a) s = execUnlockChannel tag a s := rfl

/-- The work of UNLOCK ROOM behind its PIN check. -/
def unlocked (r : Room) (lcn : Nat) (c : Core) : Core :=
  reevaluate (setContext r { context c r with grant := some ⟨lcn, (session c (Room.output r)).event⟩ } c)

theorem unlockRoom_misfit {n : Nat} {pin : Option Pin} {c : Core} (h : 1 < n) : unlockRoom ⟨n, pin⟩ c = (.bare .badRequest, c) := by
  simp [unlockRoom, roomOf_outOfRange h]

theorem unlockRoom_noChannel {n : Nat} {r : Room} {pin : Option Pin} {c : Core} (hr : roomOf n = some r)
    (hl : (session c (Room.output r)).lcn = none) : unlockRoom ⟨n, pin⟩ c = (.bare .noSuch, c) := by
  simp [unlockRoom, hr, hl]

theorem unlockRoom_checks {n lcn : Nat} {r : Room} {pin : Option Pin} {c : Core} (hr : roomOf n = some r)
    (hl : (session c (Room.output r)).lcn = some lcn) :
    unlockRoom ⟨n, pin⟩ c = withPin pin (fun c => (.bare .ok, unlocked r lcn c)) c := by
  simp only [unlockRoom, hr, hl]
  rfl

/-- The work of SET PIN behind its PIN check. -/
def pinSet (new : Option Pin) (c : Core) : Core :=
  { c with limits := { c.limits with pin := new, count := 0, owed := c.limits.owed.filter (· != .pin) } }

theorem setPin_checks {old new : Option Pin} {c : Core} (h : ∀ d, new = some d → pinFormed d = true) :
    setPin ⟨old, new⟩ c = withPin old (settleLimit .pin ⟨⟨.pin, 0⟩, [(⟨.pin, 0⟩, .pin new 0)], true⟩ (pinSet new)) c := by
  have hbad : ¬(new.any fun p => !pinFormed p) = true := by
    cases new with
    | none => simp
    | some d => simp [h d rfl]
  exact if_neg hbad

theorem setPin_misfit {old new : Option Pin} {c : Core} (h : ¬∀ d, new = some d → pinFormed d = true) :
    setPin ⟨old, new⟩ c = (.bare .badRequest, c) := by
  have hbad : (new.any fun p => !pinFormed p) = true := by
    cases new with
    | none => simp at h
    | some d => simpa using h
  exact if_pos hbad

theorem wipeAccount_checks {pin : Option Pin} {c : Core} (h : ∀ d, pin = some d → pinFormed d = true) :
    wipeAccount pin c = withPin pin (fun c => (.bare .accepted, beginWipe c)) c := by
  have hbad : ¬(pin.any fun p => !pinFormed p) = true := by
    cases pin with
    | none => simp
    | some d => simp [h d rfl]
  exact if_neg hbad

theorem switchProfile_misfit {n q : Nat} {pin : Option Pin} {r : Room} {c : Core} (hr : roomOf n = some r) (hq : 5 < q) :
    switchProfile ⟨n, q, pin⟩ c = (.bare .badRequest, c) := by
  simp [switchProfile, hr, hq]

theorem switchProfile_absent {n q : Nat} {pin : Option Pin} {r : Room} {c : Core} (hr : roomOf n = some r) (hq : q ≤ 5)
    (hp : profileOf c q = none) : switchProfile ⟨n, q, pin⟩ c = (.bare .noSuch, c) := by
  simp [switchProfile, hr, hp, Nat.not_lt.mpr hq]

theorem switchProfile_standby {n q : Nat} {pin : Option Pin} {r : Room} {c : Core} (hr : roomOf n = some r) (hq : q ≤ 5)
    (hp : (profileOf c q).isSome = true) (hs : c.clock.power = .standby) :
    switchProfile ⟨n, q, pin⟩ c = (.bare .standby, c) := by
  simp [switchProfile, hr, hs, Nat.not_lt.mpr hq, Option.isSome_iff_ne_none.mp hp]

theorem switchProfile_checks {n : Nat} {pin : Option Pin} {r : Room} {c : Core} (hr : roomOf n = some r)
    (hp : (profileOf c 0).isSome = true) (hs : c.clock.power = .active) :
    switchProfile ⟨n, 0, pin⟩ c = withPin pin (switchTo r 0) c := by
  simp [switchProfile, hr, hs, Option.isSome_iff_ne_none.mp hp]

theorem switchProfile_switches {n q : Nat} {pin : Option Pin} {r : Room} {c : Core} (hr : roomOf n = some r) (h1 : 1 ≤ q)
    (hq : q ≤ 5) (hp : (profileOf c q).isSome = true) (hs : c.clock.power = .active) :
    switchProfile ⟨n, q, pin⟩ c = switchTo r q c := by
  simp [switchProfile, hr, hs, Nat.not_lt.mpr hq, Option.isSome_iff_ne_none.mp hp, Nat.ne_of_gt h1]

/-- The fields of a profile are in range (R142). -/
def ProfileFits (f : ProfileFields) : Prop :=
  f.ceiling ≤ 7 ∧ f.allowance ≤ 1440 ∧ f.windows.length ≤ 4 ∧ f.purchaseCeiling ≤ 1000000 ∧
    ∀ w ∈ f.windows, w.start ≤ 1439 ∧ w.stop ≤ 1440 ∧ w.start < w.stop

theorem profileFits_iff {f : ProfileFields} : ProfileFields.formed f = true ↔ ProfileFits f := by
  simp only [ProfileFields.formed, ProfileFits, Window.formed, Bool.and_eq_true, decide_eq_true_eq, List.all_eq_true]
  constructor
  · rintro ⟨⟨⟨⟨h1, h2⟩, h3⟩, h4⟩, h5⟩
    exact ⟨h1, h2, h3, h5, fun w hw => and_assoc.mp (h4 w hw)⟩
  · rintro ⟨h1, h2, h3, h5, h4⟩
    exact ⟨⟨⟨⟨h1, h2⟩, h3⟩, fun w hw => and_assoc.mpr (h4 w hw)⟩, h5⟩

theorem setProfile_edits {q : Nat} {f : ProfileFields} {pin : Option Pin} {c : Core} (h1 : 1 ≤ q) (h5 : q ≤ 5) (hf : ProfileFits f) :
    setProfile ⟨q, some f, pin⟩ c =
      withPin pin (fun c => settle (.single .profile q (.profile (some (editedProfile c q f)))) (applyProfile q (some f)) c) c := by
  simp [setProfile, Nat.not_lt.mpr h1, Nat.not_lt.mpr h5, profileFits_iff.mpr hf]

theorem setProfile_misfit {q : Nat} {f : ProfileFields} {pin : Option Pin} {c : Core} (h : ¬(1 ≤ q ∧ q ≤ 5 ∧ ProfileFits f)) :
    setProfile ⟨q, some f, pin⟩ c = (.bare .badRequest, c) := by
  unfold setProfile
  by_cases hq : 1 ≤ q ∧ q ≤ 5
  · have hf : ProfileFields.formed f = false := Bool.eq_false_iff.mpr fun h' => h ⟨hq.1, hq.2, profileFits_iff.mp h'⟩
    rw [if_neg (by simp; omega), if_pos (by simp [hf])]
  · rw [if_pos (by simp; omega)]

theorem setProfile_removes {q : Nat} {pin : Option Pin} {c : Core} (h1 : 1 ≤ q) (h5 : q ≤ 5) (hp : (profileOf c q).isSome = true) :
    setProfile ⟨q, none, pin⟩ c =
      withPin pin (fun c => settle (.single .profile q (.profile none)) (applyProfile q none) c) c := by
  simp [setProfile, Nat.not_lt.mpr h5, Nat.ne_of_gt h1, Option.isSome_iff_ne_none.mp hp]

theorem setProfile_outOfRange {q : Nat} {pin : Option Pin} {c : Core} (h : q = 0 ∨ 5 < q) :
    setProfile ⟨q, none, pin⟩ c = (.bare .badRequest, c) := if_pos (by simp; omega)

theorem setProfile_absent {q : Nat} {pin : Option Pin} {c : Core} (h1 : 1 ≤ q) (h5 : q ≤ 5) (hp : profileOf c q = none) :
    setProfile ⟨q, none, pin⟩ c = (.bare .noSuch, c) := by
  simp [setProfile, Nat.not_lt.mpr h5, Nat.ne_of_gt h1, hp]

/-- The work of SET ROOM DEFAULT behind its PIN check. -/
def defaultSet (r : Room) (q : Nat) (c : Core) : Core :=
  setLimits { c.limits with owed := c.limits.owed.filter (· != .settings) } (setDefault r q c)

theorem setRoomDefault_misfit {n q : Nat} {r : Room} {pin : Option Pin} {c : Core} (hr : roomOf n = some r) (hq : 5 < q) :
    setRoomDefault ⟨n, q, pin⟩ c = (.bare .badRequest, c) := by
  simp [setRoomDefault, hr, hq]

theorem setRoomDefault_absent {n q : Nat} {r : Room} {pin : Option Pin} {c : Core} (hr : roomOf n = some r) (hq : q ≤ 5)
    (hp : profileOf c q = none) : setRoomDefault ⟨n, q, pin⟩ c = (.bare .noSuch, c) := by
  simp [setRoomDefault, hr, hp, Nat.not_lt.mpr hq]

theorem setRoomDefault_checks {n q : Nat} {r : Room} {pin : Option Pin} {c : Core} (hr : roomOf n = some r) (hq : q ≤ 5)
    (hp : (profileOf c q).isSome = true) :
    setRoomDefault ⟨n, q, pin⟩ c =
      withPin pin (fun c => settleLimit .settings (limitItem (setDefault r q c) .settings) (defaultSet r q) c) c := by
  simp only [setRoomDefault, hr, if_neg (Nat.not_lt.mpr hq), Option.isNone_eq_false_iff.mpr hp]
  rfl

theorem lockChannel_absent {lcn : Nat} {pin : Option Pin} {c : Core} (h1 : 1 ≤ lcn) (h2 : lcn ≤ 9999)
    (hc : findChannel c lcn = none) : lockChannel ⟨lcn, pin⟩ c = (.bare .noSuch, c) := by
  simp [lockChannel, lcnInRange_true h1 h2, hc]

theorem lockChannel_listed {lcn : Nat} {pin : Option Pin} {c : Core} (h1 : 1 ≤ lcn) (h2 : lcn ≤ 9999)
    (hc : (findChannel c lcn).isSome = true) (hl : lcn ∈ c.limits.lockList) :
    lockChannel ⟨lcn, pin⟩ c = withPin pin (fun c => (.bare .ok, c)) c := by
  simp [lockChannel, lcnInRange_true h1 h2, Option.isSome_iff_ne_none.mp hc, hl]

theorem lockChannel_full {lcn : Nat} {pin : Option Pin} {c : Core} (h1 : 1 ≤ lcn) (h2 : lcn ≤ 9999)
    (hc : (findChannel c lcn).isSome = true) (hl : lcn ∉ c.limits.lockList) (hf : 64 ≤ c.limits.lockList.length) :
    lockChannel ⟨lcn, pin⟩ c = (.bare .full, c) := by
  simp [lockChannel, lcnInRange_true h1 h2, Option.isSome_iff_ne_none.mp hc, hl, hf]

theorem lockChannel_joins {lcn : Nat} {pin : Option Pin} {c : Core} (h1 : 1 ≤ lcn) (h2 : lcn ≤ 9999)
    (hc : (findChannel c lcn).isSome = true) (hl : lcn ∉ c.limits.lockList) (hf : c.limits.lockList.length < 64) :
    lockChannel ⟨lcn, pin⟩ c =
      withPin pin (fun c => commitList (insertBy (fun a b => a < b) lcn c.limits.lockList) c) c := by
  simp [lockChannel, lcnInRange_true h1 h2, Option.isSome_iff_ne_none.mp hc, hl, Nat.not_le.mpr hf]

theorem unlockChannel_absent {lcn : Nat} {pin : Option Pin} {c : Core} (h1 : 1 ≤ lcn) (h2 : lcn ≤ 9999)
    (hl : lcn ∉ c.limits.lockList) : unlockChannel ⟨lcn, pin⟩ c = (.bare .noSuch, c) := by
  simp [unlockChannel, lcnInRange_true h1 h2, hl]

theorem unlockChannel_listed {lcn : Nat} {pin : Option Pin} {c : Core} (h1 : 1 ≤ lcn) (h2 : lcn ≤ 9999)
    (hl : lcn ∈ c.limits.lockList) :
    unlockChannel ⟨lcn, pin⟩ c = withPin pin (fun c => commitList (c.limits.lockList.filter (· != lcn)) c) c := by
  simp [unlockChannel, lcnInRange_true h1 h2, hl]

/-- Settles O39: each request goes on from its PIN check only when it passes, and UNLOCK ROOM's grant names what the room shows
before the check, which leaves the rooms alone. -/
theorem unlockNeedsThePin : Obligations.UnlockNeedsThePin := by
  unfold Obligations.UnlockNeedsThePin
  refine ⟨?refusals, ?unlock⟩
  case refusals =>
    intro tag p a code c s ha hp
    have refused : ∀ {k : Core → Answer × Core}, withPin p k s.core = (.bare code, c) := withPin_refused ha hp
    refine ⟨?unlockRoom, ?setPin, ?wipe, ?switch, ?edit, ?remove, ?roomDefault, ?lock, ?unlockChannel, ?purchase⟩
    case unlockRoom =>
      intro room o lcn hro hl hh
      simp only [List.mem_cons, Prod.mk.injEq, List.not_mem_nil, or_false] at hro
      refine replies_of_answeredWith (exec_unlockRoom tag _ s) hh ?_
      obtain ⟨rfl, rfl⟩ | ⟨rfl, rfl⟩ := hro
      · rw [unlockRoom_checks (r := .a) rfl hl]
        exact refused
      · rw [unlockRoom_checks (r := .b) rfl hl]
        exact refused
    case setPin =>
      intro new hnew hh
      refine replies_of_answeredWith (exec_setPin tag _ s) hh ?_
      rw [setPin_checks]
      · exact refused
      · rintro d rfl
        obtain h | ⟨_, h, hd⟩ := hnew
        · cases h
        · cases h
          exact hd
    case wipe =>
      intro hform hh
      refine replies_of_answeredWith (exec_wipeAccount tag _ s) hh ?_
      rw [wipeAccount_checks]
      · exact refused
      · rintro d rfl
        obtain h | ⟨_, h, hd⟩ := hform
        · cases h
        · cases h
          exact hd
    case switch =>
      intro n hn hpow hprof hh
      obtain ⟨r, hr⟩ : ∃ r, roomOf n = some r := by
        obtain rfl | rfl : n = 0 ∨ n = 1 := by omega
        · exact ⟨.a, rfl⟩
        · exact ⟨.b, rfl⟩
      refine replies_of_answeredWith (exec_switchProfile tag _ s) hh ?_
      rw [switchProfile_checks hr hprof hpow]
      exact refused
    case edit =>
      intro q f h1 h5 hc hal hw hpc hws hh
      refine replies_of_answeredWith (exec_setProfile tag _ s) hh ?_
      rw [setProfile_edits h1 h5 ⟨hc, hal, hw, hpc, hws⟩]
      exact refused
    case remove =>
      intro q h1 h5 hprof hh
      refine replies_of_answeredWith (exec_setProfile tag _ s) hh ?_
      rw [setProfile_removes h1 h5 hprof]
      exact refused
    case roomDefault =>
      intro n q hn hq hprof hh
      obtain ⟨r, hr⟩ : ∃ r, roomOf n = some r := by
        obtain rfl | rfl : n = 0 ∨ n = 1 := by omega
        · exact ⟨.a, rfl⟩
        · exact ⟨.b, rfl⟩
      refine replies_of_answeredWith (exec_setRoomDefault tag _ s) hh ?_
      rw [setRoomDefault_checks hr hq hprof]
      exact refused
    case lock =>
      intro lcn h1 h2 hc hl hh
      refine replies_of_answeredWith (exec_lockChannel tag _ s) hh ?_
      by_cases hmem : lcn ∈ s.core.limits.lockList
      · rw [lockChannel_listed h1 h2 hc hmem]
        exact refused
      · rw [lockChannel_joins h1 h2 hc hmem (hl.resolve_left hmem)]
        exact refused
    case unlockChannel =>
      intro lcn h1 h2 hl hh
      refine replies_of_answeredWith (exec_unlockChannel tag _ s) hh ?_
      rw [unlockChannel_listed h1 h2 hl]
      exact refused
    case purchase =>
      intro n r lcn ev e rec price now f hr h1 h2 h3 hi hcut hfl he hk hrec hpr hev hlog ht hlate hcr hlen hroom hexp hceil hh
      refine replies_of_answeredWith (exec_purchase tag _ s) hh ?_
      have howned : ¬Owned s.core lcn ev := by
        rintro (⟨g, hg, h⟩ | ⟨x, hx, h⟩)
        · exact hev g hg h
        · exact hlog x hx h
      rw [purchase_goesOn (roomOf_of_mem hr) (targetFormed_event h1 h2 h3)
        (purchaseChecks_passes ⟨⟨f, hi⟩, hcut, hfl⟩ ⟨⟨e, he, hk⟩, hrec, hpr⟩ howned ht hlate hcr hlen),
        purchaseRoom_room hexp hroom]
      exact (if_pos hceil).trans refused
  case unlock =>
    intro tag n pin s hh i
    refine ⟨fun hn => ?outOfRange, fun r hr => ⟨fun hl => ?noChannel, fun lcn c hl hp => ?grants⟩⟩
    case outOfRange => exact replies_of_answeredWith (exec_unlockRoom tag _ s) hh (unlockRoom_misfit hn)
    case noChannel => exact replies_of_answeredWith (exec_unlockRoom tag _ s) hh (unlockRoom_noChannel (roomOf_of_mem hr) hl)
    case grants =>
      refine replies_of_answeredWith (exec_unlockRoom tag _ s) hh ?_
      rw [unlockRoom_checks (roomOf_of_mem hr) hl, withPin_passes hp]
      obtain ⟨_, _, _, _, _, _, _, rfl⟩ := hp.only
      rfl

/-! ## SWITCH PROFILE and RETURN PROFILE (R135, R136) -/

/-- What a switch keeps of a context: what the first switch kept, and else the context itself. -/
def RoomContext.kept (x : RoomContext) : SavedContext := match x.saved with | some v => v | none => ⟨x.active, x.grant⟩

theorem switchTo_eq (r : Room) (q : Nat) (c : Core) :
    switchTo r q c = (.bare .ok,
      reevaluate (setContext r { context c r with saved := some (context c r).kept, active := q, grant := none } c)) := rfl

theorem returnProfile_unsaved {n : Nat} {r : Room} {c : Core} (hr : roomOf n = some r) (hs : (context c r).saved = none) :
    returnProfile n c = (.bare .notSwitched, c) := by
  simp [returnProfile, hr, hs]

/-- A grant kept at a switch covers what its room shows at the return. -/
def Covers (c : Core) (r : Room) (g : UnlockGrant) : Prop :=
  ∃ lcn, (session c (Room.output r)).lcn = some lcn ∧ g.lcn = lcn ∧ (g.event = none ∨ g.event = (session c (Room.output r)).event)

theorem UnlockGrant.covers_iff {g : UnlockGrant} {lcn : Nat} {event : Option Nat} :
    g.covers lcn event = true ↔ g.lcn = lcn ∧ (g.event = none ∨ g.event = event) := by simp [UnlockGrant.covers]

theorem returnProfile_saved {n : Nat} {r : Room} {c : Core} {v : SavedContext} {grant : Option UnlockGrant} (hr : roomOf n = some r)
    (hs : (context c r).saved = some v)
    (hg : (grant = v.grant ∧ ∃ g, v.grant = some g ∧ Covers c r g) ∨ (grant = none ∧ ¬∃ g, v.grant = some g ∧ Covers c r g)) :
    returnProfile n c = (.bare .ok,
      reevaluate (setContext r { context c r with active := v.profile, grant := grant, saved := none } c)) := by
  have hfilter : (v.grant.filter fun g => match (session c (Room.output r)).lcn with
      | some lcn => g.covers lcn (session c (Room.output r)).event
      | none => false) = grant := by
    obtain ⟨rfl, g, hgr, lcn, hl, hcov⟩ | ⟨rfl, hno⟩ := hg
    · rw [hgr, hl]
      exact Option.filter_some_pos (UnlockGrant.covers_iff.mpr hcov)
    · refine Option.filter_eq_none_iff.mpr fun g hgr hcov => hno ⟨g, hgr, ?_⟩
      split at hcov
      · next lcn hl => exact ⟨lcn, hl, UnlockGrant.covers_iff.mp hcov⟩
      · cases hcov
  unfold returnProfile
  rw [hr]
  dsimp only
  rw [hs, ← hfilter] <;> rfl

/-- Settles O41: SWITCH PROFILE by its checks in order, RETURN PROFILE by whether the room was switched and whether the grant it
kept covers what the room shows. -/
theorem profileIsSwitchedAndReturned : Obligations.ProfileIsSwitchedAndReturned := by
  unfold Obligations.ProfileIsSwitchedAndReturned
  intro tag n r s hn c x saved switched y
  have hr := roomOf_of_mem hn
  refine ⟨fun q pin hh => ?switch, fun hh => ⟨fun hs => ?unsaved, fun v grant hs hg => ?returns⟩⟩
  case switch =>
    have reply : ∀ {code : Code} {c' : Core}, switchProfile ⟨n, q, pin⟩ c = (.bare code, c') →
        Replies (.switchProfile tag (some ⟨n, q, pin⟩)) tag code .none c' s :=
      fun h => replies_of_answeredWith (exec_switchProfile tag _ s) hh h
    refine ⟨fun hq => reply (switchProfile_misfit hr hq), fun hq hp => reply (switchProfile_absent hr hq hp),
      fun hp hq hs => reply (switchProfile_standby hr hq hp hs), fun hp h1 hq hs => reply (switchProfile_switches hr h1 hq hp hs), ?checked⟩
    rintro c' rfl hp hs hpin
    refine reply ?_
    rw [switchProfile_checks hr hp hs, withPin_passes hpin, switchTo_eq]
    obtain ⟨_, _, _, _, _, _, _, rfl⟩ := hpin.only
    rfl
  case unsaved => exact replies_of_answeredWith (exec_returnProfile tag _ s) hh (returnProfile_unsaved hr hs)
  case returns =>
    refine replies_of_answeredWith (exec_returnProfile tag _ s) hh (returnProfile_saved hr hs ?_)
    simp only [exists_and_left] at hg
    exact hg

end Sys2Proof.Machine
end

section
/-! The settings of the Limit Unit behind the PIN check (R137, R142 to R145). -/

namespace Sys2Proof.Machine

open Sys2Proof

/-! ## The table of R15 behind a PIN check -/

section
variable {α : Type} {i : Instr} {tag : Byte} {a : α} {f : α → Core → Answer × Core} {it : Item} {change : Core → Core} {c : Core}
  {s : State}

theorem settle_refused {x : OfferAnswer} (hx : x ≠ .taken) (h : (offer it c).1 = x) : settle it change c = (.bare x.code, c) := by
  rw [settle, offer_unchanged h hx]
  cases x with
  | taken => exact absurd rfl hx
  | queueFull => rfl
  | duringWipe => rfl
  | storeFull => rfl
  | storeFault => rfl

/-- A request that settles an item once its PIN check has passed follows the table of R15. -/
theorem settingTable_afterPin (hexec : exec i s = .next (answeredWith i tag (some a) f s)) (hh : Handled i s)
    (hf : f a s.core = settle it change c) : SettingTable i tag it change c s := by
  have refused : ∀ {x : OfferAnswer}, x ≠ .taken → (offer it c).1 = x → Replies i tag x.code .none c s := fun hx h =>
    replies_of_answeredWith hexec hh (hf.trans (settle_refused hx h))
  refine ⟨fun c' ho => replies_of_answeredWith hexec hh (hf.trans ?_), refused (by decide), refused (by decide), refused (by decide),
    refused (by decide)⟩
  rw [settle, ho]
  rfl

theorem settleLimit_busy {k : LimitCommit} {x : OfferAnswer} (hx : x = .queueFull ∨ x = .duringWipe) (h : (offer it c).1 = x) :
    settleLimit k it change c = (.bare .busy, c) := by
  rw [settleLimit, offer_unchanged h (by rintro rfl; simp at hx)]
  obtain rfl | rfl := hx
  · rfl
  · rfl

theorem settleLimit_refused {k : LimitCommit} {x : OfferAnswer} (hx : x = .storeFull ∨ x = .storeFault) (h : (offer it c).1 = x) :
    settleLimit k it change c = (.bare x.code, unowed k c) := by
  rw [settleLimit, offer_unchanged h (by rintro rfl; simp at hx)]
  obtain rfl | rfl := hx
  · rfl
  · rfl

theorem settleLimit_taken {k : LimitCommit} {c' : Core} (h : offer it c = (.taken, c')) :
    settleLimit k it change c = (.bare .ok, change c') := by
  rw [settleLimit, h]

/-- A setting whose record the commit `k` also carries follows the table of R15 with `k`'s owed mark. -/
theorem owedTable_of_settleLimit {k : LimitCommit} (hexec : exec i s = .next (answeredWith i tag (some a) f s)) (hh : Handled i s)
    (hf : f a s.core = settleLimit k it change c) : OwedSettingTable i tag it change (unowed k) c s where
  taken _ h := replies_of_answeredWith hexec hh (hf.trans (settleLimit_taken h))
  full h := replies_of_answeredWith hexec hh (hf.trans (settleLimit_busy (.inl rfl) h))
  wipe h := replies_of_answeredWith hexec hh (hf.trans (settleLimit_busy (.inr rfl) h))
  storeFull h := replies_of_answeredWith hexec hh (hf.trans (settleLimit_refused (.inl rfl) h))
  fault h := replies_of_answeredWith hexec hh (hf.trans (settleLimit_refused (.inr rfl) h))

end

/-! ## The items and the changes of the settings -/

theorem limitItem_setDefault (r : Room) (q : Nat) (c : Core) :
    limitItem (setDefault r q c) .settings = ⟨⟨.settings, 4⟩, [(⟨.settings, 4⟩, .roomDefaults
      (if r = .a then q else (context c .a).default) (if r = .b then q else (context c .b).default))], false⟩ := by
  have hitem : limitItem (setDefault r q c) .settings = ⟨⟨.settings, 4⟩, [(⟨.settings, 4⟩, .roomDefaults
    (context (setDefault r q c) .a).default (context (setDefault r q c) .b).default)], false⟩ := rfl
  rw [hitem]
  cases r with
  | a => rw [setDefault, context_setContext, context_setContext_ne _ _ (by decide), if_pos rfl, if_neg (by decide)]
  | b => rw [setDefault, context_setContext, context_setContext_ne _ _ (by decide), if_neg (by decide), if_pos rfl]

/-- A SET action with the profile it leaves: the used minutes are committed when they were lowered. -/
def profilePut (q : Nat) (p : Profile) (c : Core) : Core :=
  reevaluate (if p.used < ((profileOf c q).map (·.used)).getD 0 then commitLimit' .usedToday (putProfile q (some p) c)
    else putProfile q (some p) c)

theorem applyProfile_some (q : Nat) (f : ProfileFields) (c : Core) :
    applyProfile q (some f) c = profilePut q (editedProfile c q f) c := rfl

theorem editedProfile_of_limits {c c' : Core} (h : c'.limits = c.limits) (q : Nat) (f : ProfileFields) :
    editedProfile c' q f = editedProfile c q f := by
  simp only [editedProfile, profileOf, h]

theorem pinFormed_iff {d : Pin} :
    pinFormed d = true ↔ 4 ≤ d.length ∧ d.length ≤ 8 ∧ ∀ b ∈ d, 0x30 ≤ b.toNat ∧ b.toNat ≤ 0x39 := by
  simp [pinFormed, and_assoc]

/-- Settles O42: each setting by its refusals, and behind a PIN check that passes by the table of R15. -/
theorem limitSettings : Obligations.LimitSettings := by
  unfold Obligations.LimitSettings
  refine ⟨?records, ?lockList⟩
  case records =>
    intro tag pin c s _
    refine ⟨fun n r q hn hh => ?roomDefault, fun q f hh => ?edit, fun q hh => ?remove, fun new hh => ?setPin⟩
    case roomDefault =>
      have hr := roomOf_of_mem hn
      have hexec := exec_setRoomDefault tag (some ⟨n, q, pin⟩) s
      refine ⟨fun hq => replies_of_answeredWith hexec hh (setRoomDefault_misfit hr hq),
        fun hq hp => replies_of_answeredWith hexec hh (setRoomDefault_absent hr hq hp), fun hq hp hpin => ?defaultTable⟩
      refine owedTable_of_settleLimit hexec hh ?_
      rw [setRoomDefault_checks hr hq hp, withPin_passes hpin, limitItem_setDefault]
      rfl
    case edit =>
      have hexec := exec_setProfile tag (some ⟨q, some f, pin⟩) s
      refine ⟨fun hbad => replies_of_answeredWith hexec hh (setProfile_misfit hbad), fun ⟨h1, h5, hfit⟩ hpin => ?editTable⟩
      have htable : SettingTable (.setProfile tag (some ⟨q, some f, pin⟩)) tag
          ⟨⟨.profile, q⟩, [(⟨.profile, q⟩, .profile (some (editedProfile c q f)))], false⟩ (applyProfile q (some f)) c s := by
        refine settingTable_afterPin hexec hh ?_
        rw [setProfile_edits h1 h5 hfit, withPin_passes hpin]
        rfl
      refine htable.congr fun c' ho => ?_
      rw [applyProfile_some, editedProfile_of_limits (offer_only ho).limits]
      rfl
    case remove =>
      have hexec := exec_setProfile tag (some ⟨q, none, pin⟩) s
      refine ⟨fun hq => replies_of_answeredWith hexec hh (setProfile_outOfRange hq),
        fun h1 h5 hp => replies_of_answeredWith hexec hh (setProfile_absent h1 h5 hp), fun h1 h5 hp hpin => ?removeTable⟩
      refine settingTable_afterPin hexec hh ?_
      rw [setProfile_removes h1 h5 hp, withPin_passes hpin]
      rfl
    case setPin =>
      have hexec := exec_setPin tag (some ⟨pin, new⟩) s
      have hform : (∀ d, new = some d → pinFormed d = true) ↔
          ∀ d, new = some d → 4 ≤ d.length ∧ d.length ≤ 8 ∧ ∀ b ∈ d, 0x30 ≤ b.toNat ∧ b.toNat ≤ 0x39 :=
        forall₂_congr fun d _ => pinFormed_iff
      refine ⟨fun hbad => replies_of_answeredWith hexec hh (setPin_misfit (mt hform.mp hbad)), fun hfit hpin => ?pinTable⟩
      refine owedTable_of_settleLimit hexec hh ?_
      rw [setPin_checks (hform.mpr hfit), withPin_passes hpin]
      rfl
  case lockList =>
    intro tag lcn pin c s h1 h2 l on off item _ put
    have hlist : PinPasses pin s.core c → c.limits.lockList = l := fun hpin => by
      obtain ⟨_, _, _, _, _, _, _, rfl⟩ := hpin.only
      rfl
    have hcommit : ∀ m c, commitList m c = settleLimit .lockList (item m) (put m) c := fun _ _ => rfl
    refine ⟨fun hh => ?lock, fun hh => ?unlock⟩
    case lock =>
      have hexec := exec_lockChannel tag (some ⟨lcn, pin⟩) s
      refine ⟨fun hc => replies_of_answeredWith hexec hh (lockChannel_absent h1 h2 hc),
        fun hc hl hpin => replies_of_answeredWith hexec hh ?listed,
        fun hc hl hf => replies_of_answeredWith hexec hh (lockChannel_full h1 h2 hc hl hf), fun hc hl hf hpin => ?joins⟩
      case listed => rw [lockChannel_listed h1 h2 hc hl, withPin_passes hpin]; rfl
      case joins =>
        refine owedTable_of_settleLimit hexec hh ?_
        rw [lockChannel_joins h1 h2 hc hl hf, withPin_passes hpin, hlist hpin, hcommit]
    case unlock =>
      have hexec := exec_unlockChannel tag (some ⟨lcn, pin⟩) s
      refine ⟨fun hl => replies_of_answeredWith hexec hh (unlockChannel_absent h1 h2 hl), fun hl hpin => ?leaves⟩
      refine owedTable_of_settleLimit hexec hh ?_
      rw [unlockChannel_listed h1 h2 hl, withPin_passes hpin, hlist hpin, hcommit]

end Sys2Proof.Machine
end

section
/-! The Limit Unit's timers: the lockout, the allowance minute and its charges, the day rollover (R128, R139 to R141). -/

namespace Sys2Proof.Machine

open Sys2Proof

theorem profileOf_fin (c : Core) (n : Fin 6) : profileOf c n.val = c.limits.profiles.get n := by
  rw [profileOf, Vector.getElem?_eq_getElem n.isLt]
  rfl

theorem owe_eq (k : LimitCommit) (l : List LimitCommit) : owe k l = if k ∈ l then l else l ++ [k] := by
  simp [owe]

/-! ## The ends of a commit (R128, R140) -/

/-- The three ends of a commit of the Limit Unit, by the commit queue's answer: a mark cleared, a mark set, and none during a wipe. -/
theorem commitLimit_ends {k : LimitCommit} {c d : Core} {a : OfferAnswer} (h : offer (limitItem c k) c = (a, d)) :
    d.limits = c.limits ∧
    (a = .taken ∨ a = .storeFull ∨ a = .storeFault → commitLimit' k c = unowed k d) ∧
    (a = .queueFull → commitLimit' k c = withOwed (if k ∈ c.limits.owed then c.limits.owed else c.limits.owed ++ [k]) d) ∧
    (a = .duringWipe → commitLimit' k c = d) := by
  refine ⟨(offer_only h).limits, ?cleared, ?owed, ?wipe⟩
  case cleared =>
    rintro (rfl | hr)
    · rw [commitLimit', commitLimit_taken h]
    · rw [commitLimit', commitLimit_refused (congrArg Prod.fst h) hr, offer_refused h (by rintro rfl; simp at hr)]
  case owed =>
    rintro rfl
    rw [commitLimit', commitLimit_full (congrArg Prod.fst h), offer_refused h (by decide), owe_eq]
  case wipe =>
    rintro rfl
    rw [commitLimit', commitLimit_wipe (congrArg Prod.fst h), offer_refused h (by decide)]

/-! ## The lockout (R128) -/

theorem exec_lockoutTimer (s : State) : exec .lockoutTimer s = execLockoutTimer s := rfl

theorem lockoutExpired_stopped {c : Core} (h : c.limits.lockout.running = false) : lockoutExpired c = c :=
  if_neg (by simp [h])

/-- The blocks as the lockout's end leaves them to its PIN commit. -/
def lockoutEnded (c : Core) : Core := setLimits { c.limits with lockout := c.limits.lockout.expired, count := 0 } c

theorem lockoutExpired_running {c : Core} (h : c.limits.lockout.running = true) :
    lockoutExpired c = commitLimit' .pin (lockoutEnded c) := if_pos h

/-! ## Charges (R139, R140) -/

/-- The allowance minute charges the profile: it is active in a room that is PRESENTING, and below its allowance. -/
def Charges (c : Core) (n : Fin 6) : Prop :=
  ∃ r p, (context c r).active = n.val ∧ (session c (Room.output r)).state = .presenting ∧ c.limits.profiles.get n = some p ∧
    p.allowance < 1440 ∧ p.used < p.allowance

theorem mem_allRooms (r : Room) : r ∈ allRooms := by cases r <;> decide

theorem charged_iff {c : Core} {n : Fin 6} : charged c n.val = true ↔ Charges c n := by
  rw [charged, profileOf_fin, Bool.and_eq_true, List.any_eq_true]
  cases hp : c.limits.profiles.get n with
  | none => simp [Charges, hp]
  | some p =>
    simp only [Bool.and_eq_true, beq_iff_eq, decide_eq_true_eq]
    constructor
    · rintro ⟨⟨r, -, ha, hs⟩, h1, h2⟩
      exact ⟨r, p, ha, hs, hp, h1, h2⟩
    · rintro ⟨r, q, ha, hs, hq, h1, h2⟩
      rw [hp] at hq
      cases hq
      exact ⟨⟨r, mem_allRooms r, ha, hs⟩, h1, h2⟩

/-- The blocks with the profile's used minutes replaced. -/
def withUsedMinutes (n : Fin 6) (p : Profile) (used : Nat) (c : Core) : Core :=
  { c with limits := { c.limits with profiles := c.limits.profiles.set n.val (some { p with used := used }) n.isLt } }

theorem charge_eq {n : Fin 6} {p : Profile} {c : Core} (h : c.limits.profiles.get n = some p) :
    charge c n.val =
      let after := withUsedMinutes n p (p.used + 1) c
      let low := if p.used + 1 + 10 = p.allowance then post (.allowanceLow n.val (p.used + 1) p.allowance) after else after
      let reached := if p.used + 1 = p.allowance then reevaluate low else low
      if (p.used + 1) % 5 = 0 ∨ p.used + 1 = p.allowance then commitLimit' .usedToday reached else reached := by
  have hput : putProfile n.val (some { p with used := p.used + 1 }) c = withUsedMinutes n p (p.used + 1) c := dif_pos n.isLt
  unfold charge
  rw [profileOf_fin, h]
  simp only [hput, Bool.or_eq_true, decide_eq_true_eq]

/-! ## The allowance minute (R139) -/

theorem exec_allowanceMinute (s : State) : exec .allowanceMinute s = execAllowanceMinute s := rfl

/-- The blocks with the allowance minute restarted. -/
def minuteRestarted (c : Core) : Core := { c with limits := { c.limits with minute := ⟨60000, 60000, true⟩ } }

theorem allowanceMinute_running {c : Core} (h : c.limits.minute.running = true) :
    allowanceMinute c = ([0, 1, 2, 3, 4, 5].filter (charged c)).foldl charge (minuteRestarted c) := if_pos h

theorem allowanceMinute_stopped {c : Core} (h : c.limits.minute.running = false) : allowanceMinute c = c :=
  if_neg (by simp [h])

theorem filter_charged_of {c : Core} {f : Nat → Bool} (h : ∀ n : Fin 6, charged c n.val = f n.val) :
    [0, 1, 2, 3, 4, 5].filter (charged c) = [0, 1, 2, 3, 4, 5].filter f :=
  List.filter_congr fun m hm => h ⟨m, by simp at hm; omega⟩

theorem filter_charged_none {c : Core} (h : ∀ n, ¬Charges c n) : [0, 1, 2, 3, 4, 5].filter (charged c) = [] := by
  rw [filter_charged_of (f := fun _ => false) fun n => Bool.eq_false_iff.mpr (mt charged_iff.mp (h n))]
  rfl

theorem filter_beq_fin (n : Fin 6) : [0, 1, 2, 3, 4, 5].filter (· == n.val) = [n.val] := by
  revert n
  decide

theorem filter_charged_one {c : Core} {n : Fin 6} (h : Charges c n) (ho : ∀ m, m ≠ n → ¬Charges c m) :
    [0, 1, 2, 3, 4, 5].filter (charged c) = [n.val] := by
  rw [filter_charged_of (f := (· == n.val)), filter_beq_fin]
  intro m
  by_cases hm : m = n
  · subst hm
    simp [charged_iff.mpr h]
  · rw [Bool.eq_false_iff.mpr (mt charged_iff.mp (ho m hm))]
    simp [Fin.val_inj, hm]

/-! ## The used minutes and the rollover (R140, R141) -/

theorem usedVector_eq (c : Core) :
    let used := fun n : Fin 6 => match c.limits.profiles.get n with | some p => p.used | none => 0
    usedVector c = #v[used 0, used 1, used 2, used 3, used 4, used 5] := by
  intro used
  have hu : ∀ n : Fin 6, ((profileOf c n.val).map (·.used)).getD 0 = used n := fun n => by
    simp only [profileOf_fin, used]
    cases c.limits.profiles.get n <;> rfl
  simp only [usedVector, ← hu]
  rfl

theorem vector_six {α β : Type} (f : α → β) (v : Vector α 6) : #v[f v[0], f v[1], f v[2], f v[3], f v[4], f v[5]] = v.map f := by
  ext i hi
  rw [Vector.getElem_map]
  interval_cases i
  all_goals rfl

theorem limitRollover_eq (c : Core) :
    limitRollover c = reevaluate (commitLimit' .usedToday { c with limits := { c.limits with
      profiles := c.limits.profiles.map fun p => p.map fun x => { x with used := 0 } } }) := by
  unfold limitRollover
  dsimp only
  rw [vector_six]
  rfl

/-- Settles O43: the lockout by the ends of its PIN commit, the allowance minute by the profiles it charges, a charge by its marks,
and the rollover. -/
theorem limitTimersAndRollover : Obligations.LimitTimersAndRollover := by
  unfold Obligations.LimitTimersAndRollover
  refine ⟨fun s => ?lockout, fun s => ?minute, fun n p c hp => charge_eq hp, ?commit, limitRollover_eq⟩
  case lockout =>
    intro l c1 item goes
    have ends : ∀ {c : Core}, lockoutExpired s.core = c → exec .lockoutTimer s = .next { s with core := c } := fun h =>
      congrArg Host.Outcome.next (onCore_eq h)
    refine ⟨fun h => ends (lockoutExpired_stopped h), fun a c hr ho => ?_⟩
    obtain ⟨hlim, hcleared, howed, hwipe⟩ := commitLimit_ends (k := .pin) (c := lockoutEnded s.core) ho
    have hexp := lockoutExpired_running hr
    have hc : ∀ owed, withOwed owed c = { c with limits := { c1.limits with owed := owed } } := fun owed => by
      rw [withOwed, hlim]
      rfl
    refine ⟨fun ha => ends ?_, fun ha => ends ?_, fun ha => ends ?_⟩
    · rw [hexp, hcleared ha, unowed, hc, hlim]
      rfl
    · rw [hexp, howed ha, hc]
      rfl
    · rw [hexp, hwipe ha, ← hc, withOwed, show l.owed = c.limits.owed by rw [hlim]; rfl]
  case minute =>
    intro l restarted charges
    have ends : ∀ {c : Core}, allowanceMinute s.core = c → exec .allowanceMinute s = .next { s with core := c } := fun h =>
      congrArg Host.Outcome.next (onCore_eq h)
    refine ⟨fun n => charged_iff, fun h => ends (allowanceMinute_stopped h), fun h => ends (allowanceMinute_running h),
      fun h hno => ends ?none, fun n p h hn ho hp hne h5 => ends ?one⟩
    case none =>
      rw [allowanceMinute_running h, filter_charged_none hno]
      rfl
    case one =>
      have hstep : charge (minuteRestarted s.core) n.val = _ := charge_eq (c := minuteRestarted s.core) hp
      rw [allowanceMinute_running h, filter_charged_one hn ho, List.foldl_cons, List.foldl_nil, hstep]
      simp only [if_neg hne, if_neg (not_or.mpr ⟨h5, hne⟩)]
      rfl
  case commit =>
    intro c l used item owes a d ho
    have hitem : limitItem c .usedToday = item :=
      congrArg (fun v => Item.mk ⟨.usedToday, 0⟩ [(⟨.usedToday, 0⟩, .usedToday v c.clock.today)] false) (usedVector_eq c)
    rw [← hitem] at ho
    obtain ⟨hlim, hcleared, howed, hwipe⟩ := commitLimit_ends ho
    have hd : ∀ owed, withOwed owed d = owes d owed := fun owed => by
      rw [withOwed, hlim]
    refine ⟨fun ha => ?_, fun ha => ?_, fun ha => ?_⟩
    · rw [hcleared ha, unowed, hd, hlim]
    · rw [howed ha, hd]
    · subst ha
      rw [hwipe rfl, offer_refused ho (by decide)]

end Sys2Proof.Machine
end

section
/-! PURCHASE accepted, completed and failed (R153 to R155). -/

namespace Sys2Proof.Machine

open Sys2Proof

/-! ## A notice that has joined stays (R217) -/

/-- The notice waits on the link. -/
def Posted (x : Notice) (c : Core) : Prop := x ∈ c.link.notices

section
variable {x : Notice} {c : Core}

theorem Link.mem_join {l : Link} (n : Notice) (h : x ∈ l.notices) : x ∈ (l.join n).notices := by
  by_cases hroom : l.notices.length < 32
  · rw [Link.join_room n hroom]
    exact List.mem_append_left _ h
  · rw [Link.join_full n (not_lt.mp hroom)]
    exact h

theorem Posted.post (b : NoticeBody) (h : Posted x c) : Posted x (post b c) := Link.mem_join _ h

theorem posted_post {b : NoticeBody} (h : c.link.notices.length < 32) : Posted (stamped c b) (Machine.post b c) := by
  rw [Posted, Machine.post, Link.join_room _ h]
  exact List.mem_append_right _ (List.mem_singleton_self _)

theorem Posted.of_link {c' : Core} (h : Posted x c) (hl : c'.link = c.link) : Posted x c' := by
  rw [Posted, hl]
  exact h

theorem Posted.commitBooking (id : Nat) (h : Posted x c) : Posted x (commitBooking id c) := by
  refine h.of_link ?_
  unfold Machine.commitBooking
  split
  · next c' ho => exact (offer_only ho).link
  · next c' ho => exact (offer_only ho).link
  · next c' _ _ ho => exact (offer_only ho).link

theorem Posted.missBooking (b : Booking) (cause : MissedCause) (h : Posted x c) : Posted x (missBooking b cause c) :=
  Posted.commitBooking _ (Posted.post _ h)

theorem Posted.bookingOutcome (id : Nat) (outcome : ChangeOutcome) (h : Posted x c) : Posted x (bookingOutcome id outcome c) := by
  unfold Machine.bookingOutcome
  split
  · exact h
  · split
    · split
      · exact h.missBooking _ _
      · exact h.missBooking _ _
      · exact h.missBooking _ _
      · exact h.missBooking _ _
      · exact h
      · exact h
      · exact h
    · exact h

theorem Posted.endChange (o : Output) (old : Session) (outcome : ChangeOutcome) (r : Option Reasons) (h : Posted x c) :
    Posted x (endChange o old outcome r c) := by
  unfold Machine.endChange
  dsimp only
  split
  · exact h.post _
  · exact (h.post _).bookingOutcome _ _

theorem Posted.purchaseOffer (o : Output) (h : Posted x c) : Posted x (purchaseOffer o c) := by
  unfold Machine.purchaseOffer
  dsimp only
  split
  · split
    · split
      · split
        · exact h.post _
        · exact h
      · exact h
    · exact h
  · exact h

theorem Posted.arrive (o : Output) (old s : Session) (entering : Bool) (h : Posted x c) : Posted x (arrive o old s entering c) := by
  have h' : Posted x (setSession o { s with change := .absent } c) := h
  have hended : ∀ {d : Core}, Posted x d → Posted x
      (if (s.state = .held && s.reasons.noGrant && (entering || !old.reasons.noGrant)) = true then Machine.purchaseOffer o d else d) := by
    intro d hd
    split
    · exact hd.purchaseOffer o
    · exact hd
  refine hended ?_
  split
  · split
    · exact h'.endChange _ _ _ _
    · exact h'.endChange _ _ _ _
  · split
    · exact h'.post _
    · exact h'

theorem Posted.reevalOne (o : Output) (h : Posted x c) : Posted x (reevalOne c o) := by
  unfold Machine.reevalOne
  dsimp only
  split
  · split
    · split
      · exact h.arrive _ _ _ _
      · split
        · exact h.arrive _ _ _ _
        · exact h
    · split
      · exact h
      · exact h.arrive _ _ _ _
    · split
      · exact h.arrive _ _ _ _
      · split
        · exact h
        · exact h.arrive _ _ _ _
    · exact h
    · exact h
  · exact h

theorem Posted.reevaluate (h : Posted x c) : Posted x (reevaluate c) :=
  (((h.reevalOne .roomA).reevalOne .roomB).reevalOne .record1).reevalOne .record2

end

/-! ## What the uplink's tests leave alone (R161) -/

/-- All but the uplink stands as it was. -/
def UplinkOnly (c c' : Core) : Prop := ∃ u, c' = { c with uplink := u }

theorem UplinkOnly.refl (c : Core) : UplinkOnly c c := ⟨c.uplink, rfl⟩

theorem UplinkOnly.trans {a b c : Core} (h : UplinkOnly a b) (h' : UplinkOnly b c) : UplinkOnly a c := by
  obtain ⟨_, rfl⟩ := h
  obtain ⟨u, rfl⟩ := h'
  exact ⟨u, rfl⟩

theorem dueTest_uplinkOnly (c : Core) : UplinkOnly c (dueTest c) := by
  unfold dueTest
  split
  · split
    · rw [sendReport_eq]
      exact ⟨_, rfl⟩
    · split
      · exact ⟨_, rfl⟩
      · exact .refl c
  · exact .refl c

theorem becameUnreported_uplinkOnly (before : Nat) (c : Core) : UplinkOnly c (becameUnreported before c) := by
  unfold becameUnreported startReportTimer
  split
  · split
    · exact .refl c
    · exact ⟨_, rfl⟩
  · exact .refl c

/-- The commit of the group leaves all but the commit queue and its own marks. -/
theorem commitGroup_frame (asked : Bool) (c : Core) : ∃ store free x y,
    commitGroup asked c = { c with store := store, free := free, access := { c.access with groupOwed := x, groupOwedCredit := y } } := by
  cases h : offer (groupItem c (groupCredit asked c)) c with
  | mk a c' =>
    cases a with
    | taken =>
      rw [commitGroup_taken h, (offer_only h).eq_with]
      exact ⟨_, _, _, _, rfl⟩
    | queueFull => exact ⟨_, _, _, _, by rw [commitGroup_full (by rw [h]), setGroupOwed]⟩
    | duringWipe => exact ⟨_, _, _, _, by rw [commitGroup_wipe (by rw [h])]⟩
    | storeFull => exact ⟨_, _, _, _, by rw [commitGroup_refused (.inl (by rw [h])), setGroupOwed]⟩
    | storeFault => exact ⟨_, _, _, _, by rw [commitGroup_refused (.inr (by rw [h])), setGroupOwed]⟩

/-! ## The accepted purchase (R153) -/

/-- The item an accepted purchase offers. -/
def purchaseItem (r : Room) (b : Bid) (c : Core) : Item :=
  .single .purchase c.purchase.nextSeq.toNat
    (.purchase (b.record c.purchase.nextSeq (context c r).active) b.grant (c.purchase.balance - b.price) c.purchase.limit)

theorem commitPurchase_taken {r : Room} {b : Bid} {c c' : Core} (h : offer (purchaseItem r b c) c = (.taken, c')) :
    commitPurchase r b c = (.bare .accepted, { c' with purchase := { c'.purchase with
      inFlight := some ⟨c.purchase.nextSeq, r, b.lcn, b.event, b.price, b.now, (context c r).active, b.finish + 3600⟩ } }) := by
  unfold commitPurchase
  dsimp only
  rw [← purchaseItem, h]
  rfl

theorem commitPurchase_refused {r : Room} {b : Bid} {c : Core} {a : OfferAnswer} (h : (offer (purchaseItem r b c) c).1 = a)
    (ha : a ≠ .taken) : commitPurchase r b c = (.bare a.code, c) := by
  unfold commitPurchase
  dsimp only
  rw [← purchaseItem, offer_unchanged h ha]
  cases a with
  | taken => exact absurd rfl ha
  | queueFull => rfl
  | duringWipe => rfl
  | storeFull => rfl
  | storeFault => rfl

/-! ## Its end (R154, R155) -/

theorem mem_insertBy {α : Type} {lt : α → α → Bool} {x a : α} {l : List α} : x ∈ insertBy lt a l ↔ x = a ∨ x ∈ l := by
  induction l with
  | nil => simp [insertBy]
  | cons y ys ih =>
    unfold insertBy
    split
    · simp
    · simp only [List.mem_cons, ih]
      exact or_left_comm

theorem mem_placeGrant {g x : EventGrant} {l : List EventGrant} : x ∈ placeGrant g l ↔ x = g ∨ (x ∈ l ∧ x.same g = false) := by
  simp [placeGrant, mem_insertBy]

theorem installGrant_holds (g : EventGrant) (l : List EventGrant) :
    ∃ x ∈ installGrant g l, x.lcn = g.lcn ∧ x.event = g.event ∧ x.source = g.source ∧ g.expiry ≤ x.expiry := by
  unfold installGrant
  split
  · exact ⟨_, mem_placeGrant.mpr (.inl rfl), rfl, rfl, rfl, le_max_right _ _⟩
  · exact ⟨_, mem_placeGrant.mpr (.inl rfl), rfl, rfl, rfl, le_rfl⟩

/-- The purchases as a completed purchase leaves them. -/
def purchaseLogged (f : InFlight) (p : Purchase) : Purchase :=
  { p with
    inFlight := none, log := p.log ++ [⟨f.seq, f.lcn, f.event, f.price, f.time, f.profile, false⟩], nextSeq := p.nextSeq + 1
    balance := p.balance - f.price, charged := some f.seq }

/-- The blocks with a completed purchase logged, charged and granted. -/
def purchaseGranted (f : InFlight) (c : Core) : Core :=
  { c with
    purchase := purchaseLogged f c.purchase
    access := { c.access with events := installGrant ⟨f.lcn, f.event, f.expiry, .purchase⟩ c.access.events } }

/-- The blocks with a completed purchase committed and told. -/
def purchaseTold (f : InFlight) (c : Core) : Core :=
  post (.purchaseDone f.seq true f.room f.lcn f.event) (commitGroup true (purchaseGranted f c))

theorem completePurchase_eq (f : InFlight) (c : Core) :
    completePurchase f c = dueTest (becameUnreported (unreported c.purchase).length (reevaluate (purchaseTold f c))) := rfl

theorem purchaseTold_frame (f : InFlight) (c : Core) :
    (purchaseTold f c).purchase = purchaseLogged f c.purchase ∧
      (purchaseTold f c).access.events = installGrant ⟨f.lcn, f.event, f.expiry, .purchase⟩ c.access.events := by
  obtain ⟨_, _, _, _, h⟩ := commitGroup_frame true (purchaseGranted f c)
  rw [purchaseTold, h]
  exact ⟨rfl, rfl⟩

theorem purchaseTold_posted {f : InFlight} {c : Core} (h : c.link.notices.length < 32) :
    ∃ n, Posted n (purchaseTold f c) ∧ n.body = .purchaseDone f.seq true f.room f.lcn f.event := by
  obtain ⟨_, _, _, _, hg⟩ := commitGroup_frame true (purchaseGranted f c)
  rw [purchaseTold, hg]
  refine ⟨_, posted_post h, ?_⟩
  unfold stamped
  split
  · rfl
  · rfl

theorem completePurchase_frame (f : InFlight) (c : Core) : ∃ u, completePurchase f c = { reevaluate (purchaseTold f c) with uplink := u } :=
  (becameUnreported_uplinkOnly _ _).trans (dueTest_uplinkOnly _)

/-- Settles O45: behind the checks and the PIN check the reply follows the commit queue; the completion logs, charges, grants and
tells, and what follows it keeps all four. -/
theorem purchaseIsAccepted : Obligations.PurchaseIsAccepted := by
  unfold Obligations.PurchaseIsAccepted
  refine ⟨?accepted, fun f c hf => ?ends⟩
  case accepted =>
    intro tag n r lcn ev now price pin e rec f c1 c2 s i c p profile expiry body key hh hn h1 h2 h3 hi hcut hfl he hk hrec hpr hev hlog
      ht hlate hcr hlen hroom hexp hpin
    have howned : ¬Owned c lcn ev := by
      rintro (⟨g, hg, h⟩ | ⟨x, hx, h⟩)
      · exact hev g hg h
      · exact hlog x hx h
    let b : Bid := ⟨lcn, ev, price, rec.finish, now⟩
    have honly : PinOnly c c1 := by
      obtain ⟨-, rfl⟩ | ⟨-, hp⟩ := hpin
      · exact .refl c
      · exact hp.only
    have hgoes : purchase ⟨n, .event lcn ev, pin⟩ c = commitPurchase r b c1 := by
      rw [purchase_goesOn (roomOf_of_mem hn) (targetFormed_event h1 h2 h3)
        (purchaseChecks_passes ⟨⟨f, hi⟩, hcut, hfl⟩ ⟨⟨e, he, hk⟩, hrec, hpr⟩ howned ht hlate hcr hlen),
        purchaseRoom_room hexp hroom]
      obtain ⟨hle, rfl⟩ | ⟨hlt, hp⟩ := hpin
      · exact if_neg (Nat.not_lt.mpr hle)
      · exact (if_pos hlt).trans (withPin_passes hp)
    have hitem : purchaseItem r b c1 = ⟨key, [(key, body)], true⟩ := by
      obtain ⟨_, _, _, _, _, _, _, rfl⟩ := honly
      rfl
    have reply : ∀ {code : Code} {c' : Core}, commitPurchase r b c1 = (.bare code, c') → Replies i tag code .none c' s := fun h =>
      replies_of_answeredWith (exec_purchase tag _ s) hh (hgoes.trans h)
    rw [← hitem]
    refine ⟨fun htake => reply ?_, ?_, fun h => reply (commitPurchase_refused h (by decide)),
      fun h => reply (commitPurchase_refused h (by decide))⟩
    · rw [commitPurchase_taken htake, (offer_only htake).purchase]
      obtain ⟨_, _, _, _, _, _, _, rfl⟩ := honly
      rfl
    · rintro (h | h)
      · exact reply (commitPurchase_refused h (by decide))
      · exact reply (commitPurchase_refused h (by decide))
  case ends =>
    have hwritten : purchaseWritten c = completePurchase f c := by
      unfold purchaseWritten
      rw [hf]
    have hfailed : purchaseFailed c = post (.purchaseDone f.seq false f.room f.lcn f.event) { c with purchase := { c.purchase with inFlight := none } } := by
      unfold purchaseFailed
      rw [hf]
      rfl
    obtain ⟨u, hu⟩ := completePurchase_frame f c
    obtain ⟨hpurchase, hevents⟩ := purchaseTold_frame f c
    have hsess := reevaluate_sessions (.refl (purchaseTold f c))
    intro p written
    refine ⟨?purchase, ?grant, fun hroom => ?notice, hfailed⟩
    case purchase =>
      show (purchaseWritten c).purchase = purchaseLogged f c.purchase
      rw [hwritten, hu, ← hpurchase]
      exact hsess.purchase
    case grant =>
      show ∃ g ∈ (purchaseWritten c).access.events, _
      rw [hwritten, hu]
      dsimp only
      rw [hsess.access, hevents]
      exact installGrant_holds ⟨f.lcn, f.event, f.expiry, .purchase⟩ c.access.events
    case notice =>
      obtain ⟨x, hx, hbody⟩ := purchaseTold_posted (f := f) hroom
      refine ⟨x, ?_, hbody⟩
      show x ∈ (purchaseWritten c).link.notices
      rw [hwritten, hu]
      exact hx.reevaluate

end Sys2Proof.Machine
end

section
/-! The uplink: its setting, the due test, the modem's answers, failures and recovery (R161 to R170). -/

namespace Sys2Proof.Machine

open Sys2Proof

/-! ## The due test (R161) -/

theorem dueTest_reported {c : Core} (hs : c.uplink.state = .idle)
    (h : 8 ≤ (unreported c.purchase).length ∨ (c.uplink.pendingFlag = true ∧ c.purchase.log ≠ [])) : dueTest c = sendReport c := by
  have hdue : (decide ((unreported c.purchase).length ≥ 8) || (c.uplink.pendingFlag && !c.purchase.log.isEmpty)) = true := by
    simpa using h
  rw [dueTest, if_pos hs, if_pos hdue]

theorem dueTest_notDue {c : Core} (hs : c.uplink.state = .idle) (h8 : (unreported c.purchase).length < 8)
    (hp : c.uplink.pendingFlag = false) : dueTest c = c := by
  simp [dueTest, hs, hp, Nat.not_le.mpr h8]

/-- What the due test makes of a pending flag over a log that is not empty is the send itself, whatever the flag was. -/
theorem dueTest_flagged {c d : Core} (hs : c.uplink.state = .idle) (hl : c.purchase.log ≠ []) (hd : d = withPendingFlag c) :
    dueTest d = { c with uplink := sendBegun c } := by
  subst hd
  rw [dueTest_pending (c := withPendingFlag c) hs rfl hl, sendReport_withPendingFlag]

theorem unreported_isEmpty_false_iff {p : Purchase} : (!(unreported p).isEmpty) = true ↔ ∃ r ∈ p.log, r.reported = false := by
  simp [unreported]

/-! ## Events of the uplink -/

theorem exec_reportTimer (s : State) : exec .reportTimer s = execReportTimer s := rfl
theorem exec_sendBegin (s : State) : exec .sendBegin s = execSendBegin s := rfl
theorem exec_modemAnswer (attempt answer : Byte) (s : State) : exec (.modemAnswer attempt answer) s = execModemAnswer attempt answer s := rfl
theorem exec_answerWait (s : State) : exec .answerWait s = execAnswerWait s := rfl
theorem exec_retryTimer (s : State) : exec .retryTimer s = execRetryTimer s := rfl
theorem exec_ackWait (s : State) : exec .ackWait s = execAckWait s := rfl
theorem exec_backoffTimer (s : State) : exec .backoffTimer s = execBackoffTimer s := rfl
theorem exec_quietTimer (s : State) : exec .quietTimer s = execQuietTimer s := rfl
theorem exec_setUplink (tag : Byte) (a : Option UplinkReq) (s : State) : exec (.setUplink tag a) s = execSetUplink tag a s := rfl

/-- An event of the uplink gives what its rule leaves of the blocks. -/
theorem next_onCore {f : Core → Core} {c : Core} {s : State} (h : f s.core = c) :
    (Host.Outcome.next (onCore f s) : Host.Outcome State Fault Refusal) = .next { s with core := c } :=
  congrArg Host.Outcome.next (onCore_eq h)

/-! ## SET UPLINK (R170) -/

theorem recoveryOf_none {n : Nat} (h : 1 < n) : recoveryOf n = none := by
  match n, h with
  | _ + 2, _ => rfl

theorem reportInterval_iff {n : Nat} : reportInterval n = true ↔ n = 0 ∨ (15 ≤ n ∧ n ≤ 1440) := by simp [reportInterval]

theorem setUplink_misfit {mode n : Nat} {c : Core} (h : ¬(mode ≤ 1 ∧ (n = 0 ∨ (15 ≤ n ∧ n ≤ 1440)))) :
    setUplink ⟨mode, n⟩ c = (.bare .badRequest, c) := by
  unfold setUplink
  split
  · next m hm hn =>
    refine absurd ⟨?_, reportInterval_iff.mp hn⟩ h
    by_contra hbig
    rw [recoveryOf_none (not_le.mp hbig)] at hm
    cases hm
  · rfl

theorem setUplink_fits {mode n : Nat} {m : Recovery} {c : Core} (hm : recoveryOf mode = some m) (hn : n = 0 ∨ (15 ≤ n ∧ n ≤ 1440)) :
    setUplink ⟨mode, n⟩ c = settle (.single .settings 5 (.uplink m n)) (applyUplink m n) c := by
  simp [setUplink, hm, reportInterval_iff.mpr hn]

/-- The report timer under a new interval (R161, R170). -/
def reportTimerUnder (n : Nat) (c : Core) : Timer :=
  if n = 0 then { c.uplink.reportTimer with reload := 0, running := false }
  else if (∃ r ∈ c.purchase.log, r.reported = false) ∧ c.uplink.reportTimer.running = false then ⟨n * 60000, n * 60000, true⟩
  else { c.uplink.reportTimer with reload := n * 60000 }

theorem applyUplink_eq (m : Recovery) (n : Nat) (c : Core) :
    applyUplink m n c =
      testRecovery { c with uplink := { c.uplink with mode := m, interval := n, reportTimer := reportTimerUnder n c } } := by
  unfold applyUplink reportTimerUnder
  dsimp only
  by_cases h0 : n = 0
  · subst h0
    rw [if_pos rfl, if_pos rfl]
    simp [stopReportTimer, setUplinkState, Uplink.withInterval, Timer.stop]
  · rw [if_neg h0, if_neg h0]
    by_cases hstart : (∃ r ∈ c.purchase.log, r.reported = false) ∧ c.uplink.reportTimer.running = false
    · have hcond : (!(unreported c.purchase).isEmpty && !c.uplink.reportTimer.running) = true := by
        rw [Bool.and_eq_true, unreported_isEmpty_false_iff, Bool.not_eq_true']
        exact hstart
      rw [if_pos hstart]
      refine congrArg testRecovery ((if_pos hcond).trans ?_)
      exact if_neg h0
    · have hcond : ¬(!(unreported c.purchase).isEmpty && !c.uplink.reportTimer.running) = true := by
        rw [Bool.and_eq_true, unreported_isEmpty_false_iff, Bool.not_eq_true']
        exact hstart
      rw [if_neg hstart]
      exact congrArg testRecovery (if_neg hcond)

/-- Settles O47: the ranges, and the table of R15 for the values in force. -/
theorem uplinkSetting : Obligations.UplinkSetting := by
  unfold Obligations.UplinkSetting
  intro tag mode n s i formed hh
  have hexec := exec_setUplink tag (some ⟨mode, n⟩) s
  refine ⟨fun h => replies_of_answeredWith hexec hh (setUplink_misfit h), fun m hform hm => ?_⟩
  have hmode : recoveryOf mode = some m := by
    obtain ⟨rfl, rfl⟩ | ⟨rfl, rfl⟩ := hm
    · rfl
    · rfl
  have htable := settingTable_of_settle hexec hh (setUplink_fits (c := s.core) hmode hform.2)
  exact htable.congr fun c' _ => applyUplink_eq m n c'

/-! ## Due reports (R161, R163) -/

/-- Settles O48: the report timer sets the pending flag for the due test that SEND_BEGIN also makes. -/
theorem dueReportsAreSent : Obligations.DueReportsAreSent := by
  unfold Obligations.DueReportsAreSent
  intro s c u timed goes
  have hrun : u.reportTimer.running = true → reportTimerExpired c = dueTest (withPendingFlag timed) := fun h => if_pos h
  have hstop : u.reportTimer.running = false → reportTimerExpired c = c := fun h => if_neg (Bool.eq_false_iff.mp h)
  refine ⟨fun h => next_onCore (hstop h), fun h hs hl => next_onCore ?sends, fun h hs hl => next_onCore ?empty,
    fun h hs => next_onCore ?waits, fun hs => next_onCore (dueTest_notIdle hs), fun hs h => next_onCore ?begins,
    fun hs hl hp => next_onCore (dueTest_emptyLog hs hp hl), fun hs h8 hp => next_onCore (dueTest_notDue hs h8 hp)⟩
  case sends =>
    rw [hrun h, dueTest_flagged (c := timed) hs hl rfl]
  case empty =>
    rw [hrun h, dueTest_emptyLog (c := withPendingFlag timed) hs rfl hl]
    rfl
  case waits =>
    rw [hrun h, dueTest_notIdle (c := withPendingFlag timed) hs]
    rfl
  case begins => rw [dueTest_reported hs h, sendReport_eq]

end Sys2Proof.Machine
end

section
/-! The uplink's waits: the modem's answers, failures, backoff, silence and recovery (R163 to R167). -/

namespace Sys2Proof.Machine

open Sys2Proof

/-! ## The records of the report in flight (R164, R166) -/

/-- The sequence numbers of the report in flight. -/
def reportSeqs (u : Uplink) : List Seq := match u.report with | some r => r.records.map PurchaseRecord.seq | none => []

theorem inReport_iff {u : Uplink} {y : PurchaseRecord} : inReport u y = true ↔ y.seq ∈ reportSeqs u := by
  unfold inReport reportSeqs
  cases u.report with
  | none => simp
  | some r => simp [List.any_eq_true]

/-- The log with the reported mark of the report's records set or cleared. -/
def markedLog (b : Bool) (u : Uplink) (log : List PurchaseRecord) : List PurchaseRecord :=
  log.map fun y => if y.seq ∈ reportSeqs u then { y with reported := b } else y

theorem markReported_eq (b : Bool) (c : Core) :
    markReported b c = { c with purchase := { c.purchase with log := markedLog b c.uplink c.purchase.log } } := by
  have hlog : (c.purchase.log.map fun r => if inReport c.uplink r then { r with reported := b } else r) =
      markedLog b c.uplink c.purchase.log := List.map_congr_left fun y _ => by simp only [inReport_iff]
  rw [markReported, hlog]
  rfl

/-- Only the report timer may change. -/
def TimerOnly (c c' : Core) : Prop := ∃ t, c' = { c with uplink := { c.uplink with reportTimer := t } }

theorem TimerOnly.refl (c : Core) : TimerOnly c c := ⟨_, rfl⟩

theorem startReportTimer_only (c : Core) : TimerOnly c (startReportTimer c) := by
  unfold startReportTimer
  split
  · exact .refl c
  · exact ⟨_, rfl⟩

theorem becameUnreported_only (before : Nat) (c : Core) : TimerOnly c (becameUnreported before c) := by
  unfold becameUnreported
  split
  · exact startReportTimer_only c
  · exact .refl c

theorem reportTimerSent_only (c : Core) : TimerOnly c (reportTimerSent c) := by
  unfold reportTimerSent
  split
  · exact ⟨_, rfl⟩
  · exact startReportTimer_only c

/-! ## The modem's answers (R164) -/

/-- The uplink waits for the modem's answer to this attempt. -/
def Awaited (attempt : Byte) (u : Uplink) : Prop := u.state = .sending ∧ u.answerWait.running = true ∧ attempt = u.attempt

theorem modemAnswer_unawaited {attempt answer : Byte} {c : Core} (h : ¬Awaited attempt c.uplink) : modemAnswer attempt answer c = c := by
  refine if_neg fun hcond => h ?_
  simpa [Awaited, and_assoc] using hcond

theorem modemAnswer_awaited {attempt answer : Byte} {c : Core} (h : Awaited attempt c.uplink) :
    modemAnswer attempt answer c =
      match modemAnswerOf answer with
      | some .sent => answerSent c
      | some .noSlot =>
        if c.uplink.slotRetries < 4 then
          setUplinkState { c.uplink with answerWait := c.uplink.answerWait.stop, slotRetries := c.uplink.slotRetries + 1,
                                         retry := Timer.start 2000 } c
        else failure c
      | some .noCarrier | some .rejected => failure c
      | none => c := by
  have hcond : (decide (c.uplink.state = .sending) && c.uplink.answerWait.running && decide (attempt = c.uplink.attempt)) = true := by
    simpa [Awaited, and_assoc] using h
  exact if_pos hcond

theorem modemAnswerOf_none {b : Byte} (h : b = 0 ∨ 4 < b.toNat) : modemAnswerOf b = none := by
  have hne : ∀ n : Nat, 1 ≤ n → n ≤ 4 → b ≠ BitVec.ofNat 8 n := by
    rintro n h1 h4 rfl
    obtain h | h := h
    · have := congrArg BitVec.toNat h
      simp at this
      omega
    · simp at h
      omega
  simp [modemAnswerOf, hne 1, hne 2, hne 3, hne 4]

theorem modemAnswer_unknown {attempt answer : Byte} {c : Core} (h : answer = 0 ∨ 4 < answer.toNat) :
    modemAnswer attempt answer c = c := by
  by_cases ha : Awaited attempt c.uplink
  · rw [modemAnswer_awaited ha, modemAnswerOf_none h]
  · exact modemAnswer_unawaited ha

/-- The uplink with the modem's answer taken. -/
def answerTaken (u : Uplink) : Uplink := { u with answerWait := { u.answerWait with running := false } }

theorem modemAnswer_sent {attempt : Byte} {c : Core} (h : Awaited attempt c.uplink)
    (hx : ∃ x ∈ c.purchase.log, x.seq ∈ reportSeqs c.uplink) : ∃ t, modemAnswer attempt 0x01#8 c = { c with
      purchase := { c.purchase with log := markedLog true c.uplink c.purchase.log }
      uplink := { answerTaken c.uplink with state := .waitAck, ackWait := ⟨1800000, 1800000, true⟩, reportTimer := t } } := by
  have hany : c.purchase.log.any (inReport (answerTaken c.uplink)) = true := by
    obtain ⟨x, hx, hseq⟩ := hx
    exact List.any_eq_true.mpr ⟨x, hx, inReport_iff.mpr hseq⟩
  have hanswer : modemAnswer attempt 0x01#8 c = answerSent c := modemAnswer_awaited h
  have hsent : answerSent c = reportTimerSent (setUplinkState
      { (markReported true { c with uplink := answerTaken c.uplink }).uplink with state := .waitAck, ackWait := Timer.start 1800000 }
      (markReported true { c with uplink := answerTaken c.uplink })) := if_pos hany
  obtain ⟨t, ht⟩ := reportTimerSent_only (setUplinkState
      { (markReported true { c with uplink := answerTaken c.uplink }).uplink with state := .waitAck, ackWait := Timer.start 1800000 }
      (markReported true { c with uplink := answerTaken c.uplink }))
  rw [hanswer, hsent, ht, markReported_eq]
  exact ⟨t, rfl⟩

theorem modemAnswer_noSlot {attempt : Byte} {c : Core} (h : Awaited attempt c.uplink) (hr : c.uplink.slotRetries < 4) :
    modemAnswer attempt 0x02#8 c = { c with uplink := { answerTaken c.uplink with
      slotRetries := c.uplink.slotRetries + 1, retry := ⟨2000, 2000, true⟩ } } :=
  (modemAnswer_awaited h).trans (if_pos hr)

theorem modemAnswer_noSlotLeft {attempt : Byte} {c : Core} (h : Awaited attempt c.uplink) (hr : 4 ≤ c.uplink.slotRetries) :
    modemAnswer attempt 0x02#8 c = failure c := (modemAnswer_awaited h).trans (if_neg (Nat.not_lt.mpr hr))

theorem modemAnswer_refused {attempt x : Byte} {c : Core} (h : Awaited attempt c.uplink) (hx : x ∈ [0x03#8, 0x04#8]) :
    modemAnswer attempt x c = failure c := by
  simp only [List.mem_cons, List.not_mem_nil, or_false] at hx
  obtain rfl | rfl := hx
  · exact modemAnswer_awaited h
  · exact modemAnswer_awaited h

theorem retryExpired_report {c : Core} {r : Report} (hrun : c.uplink.retry.running = true) (hr : c.uplink.report = some r) :
    retryExpired c = handReport r.records r.parity { c with uplink := { c.uplink with retry := c.uplink.retry.expired } } := by
  unfold retryExpired
  dsimp only
  rw [if_pos hrun, hr]
  rfl

/-- Settles O49: the answers by the one awaited and its code, the retry timer by its running flag. -/
theorem modemAnswersAct : Obligations.ModemAnswersAct := by
  unfold Obligations.ModemAnswersAct
  intro attempt answer s c u quiet awaited marked
  refine ⟨?discarded, fun r x ha hans hr hx hseq => ?sent, fun ha hans hslot => ?noSlot, fun h => next_onCore (if_neg (Bool.eq_false_iff.mp h)),
    fun r hrun hr => next_onCore ?retry⟩
  case discarded =>
    rintro (h | h)
    · exact next_onCore (modemAnswer_unawaited h)
    · exact next_onCore (modemAnswer_unknown h)
  case sent =>
    subst hans
    have hseqs : reportSeqs c.uplink = r.records.map (·.seq) := by
      unfold reportSeqs
      rw [show c.uplink.report = some r from hr]
    obtain ⟨t, ht⟩ := modemAnswer_sent (c := c) ha ⟨x, hx, by rw [hseqs]; exact hseq⟩
    refine ⟨_, next_onCore ht, ?_, rfl, rfl⟩
    simp only [markedLog, hseqs]
    rfl
  case noSlot =>
    subst hans
    exact next_onCore (modemAnswer_noSlot ha hslot)
  case retry => exact (retryExpired_report hrun hr).trans (handReport_eq _ _ _)

/-! ## Failures (R166, R167) -/

/-- The uplink after a failure, but for its state and the waits of that state. -/
def failedUplink (t : Timer) (u : Uplink) : Uplink :=
  { u with
    reportTimer := t, answerWait := u.answerWait.stop, retry := u.retry.stop, ackWait := u.ackWait.stop, report := none
    failures := u.failures + 1, pendingFlag := true }

/-- The purchases after a failure: the report's records are unreported again. -/
def failedPurchase (c : Core) : Purchase := { c.purchase with log := markedLog false c.uplink c.purchase.log }

theorem failure_unreported (c : Core) : ∃ t, becameUnreported (unreported c.purchase).length (markReported false c) =
    { c with purchase := failedPurchase c, uplink := { c.uplink with reportTimer := t } } := by
  obtain ⟨t, ht⟩ := becameUnreported_only (unreported c.purchase).length (markReported false c)
  rw [ht, markReported_eq]
  exact ⟨t, rfl⟩

theorem failure_backoff {c : Core} (h : c.uplink.failures < 15) : ∃ t, failure c = { c with
    purchase := failedPurchase c
    uplink := { failedUplink t c.uplink with state := .backoff, backoff := ⟨60000, 60000, true⟩ } } := by
  obtain ⟨t, ht⟩ := failure_unreported c
  unfold failure
  dsimp only
  rw [ht]
  exact ⟨t, if_pos (Nat.succ_lt_succ h)⟩

theorem failure_silent {c : Core} (h : 15 ≤ c.uplink.failures) : ∃ t, failure c =
    { post (.uplinkState .silent .failures (some (c.uplink.failures + 1)) c.purchase.log.length) c with
      purchase := failedPurchase c
      uplink := { failedUplink t c.uplink with
        state := .silent, quiet := 0, release := false, quietTimer := ⟨60000, 60000, true⟩ } } := by
  obtain ⟨t, ht⟩ := failure_unreported c
  have hlen : (failedPurchase c).log.length = c.purchase.log.length := List.length_map _
  refine ⟨t, ?_⟩
  unfold failure
  dsimp only
  rw [ht]
  refine (if_neg (Nat.not_lt.mpr (Nat.succ_le_succ h))).trans ?_
  dsimp only
  rw [hlen]
  rfl

/-- What fails a report: a wait that ends, or the modem's refusal of the attempt. -/
def Fails (i : Instr) (u : Uplink) : Prop :=
  (i = .answerWait ∧ u.answerWait.running = true) ∨ (i = .ackWait ∧ u.ackWait.running = true) ∨
    (∃ x, x ∈ [0x03#8, 0x04#8] ∧ i = .modemAnswer u.attempt x ∧ u.state = .sending ∧ u.answerWait.running = true) ∨
    (i = .modemAnswer u.attempt 0x02#8 ∧ u.state = .sending ∧ u.answerWait.running = true ∧ 4 ≤ u.slotRetries)

/-- Each of them is one failure, with the wait that ended run down. -/
theorem exec_fails {i : Instr} {s : State} (h : Fails i s.core.uplink) : ∃ w a, exec i s = .next { s with
    core := failure { s.core with uplink := { s.core.uplink with answerWait := w, ackWait := a } } } := by
  obtain ⟨rfl, hr⟩ | ⟨rfl, hr⟩ | ⟨x, hx, rfl, hs, hr⟩ | ⟨rfl, hs, hr, h4⟩ := h
  · exact ⟨s.core.uplink.answerWait.expired, s.core.uplink.ackWait, next_onCore (if_pos hr)⟩
  · exact ⟨s.core.uplink.answerWait, s.core.uplink.ackWait.expired, next_onCore (if_pos hr)⟩
  · exact ⟨_, _, next_onCore (modemAnswer_refused ⟨hs, hr, rfl⟩ hx)⟩
  · exact ⟨_, _, next_onCore (modemAnswer_noSlotLeft ⟨hs, hr, rfl⟩ h4)⟩

/-- Settles O50: each event is one failure, which backs off below the sixteenth and falls silent at it. -/
theorem failuresBackOffAndFallSilent : Obligations.FailuresBackOffAndFallSilent := by
  unfold Obligations.FailuresBackOffAndFallSilent
  intro i s c u sent unmarked h
  obtain ⟨w, a, hexec⟩ := exec_fails h
  refine ⟨_, hexec, ?_⟩
  by_cases h15 : u.failures < 15
  · obtain ⟨t, ht⟩ := failure_backoff (c := { c with uplink := { u with answerWait := w, ackWait := a } }) h15
    rw [ht]
    exact ⟨rfl, rfl, rfl, rfl, rfl, rfl, rfl, rfl, rfl, fun _ => ⟨rfl, rfl, rfl⟩, fun hge => absurd h15 (Nat.not_lt.mpr hge)⟩
  · obtain ⟨t, ht⟩ := failure_silent (c := { c with uplink := { u with answerWait := w, ackWait := a } }) (Nat.not_lt.mp h15)
    rw [ht]
    exact ⟨rfl, rfl, rfl, rfl, rfl, rfl, rfl, rfl, rfl, fun hlt => absurd hlt h15, fun _ => ⟨rfl, rfl, rfl, rfl, rfl⟩⟩

/-! ## Recovery (R167) -/

theorem recovers_iff {u : Uplink} : recovers u = true ↔ u.state = .silent ∧ u.quiet = 32 ∧ (u.mode = .auto ∨ u.release = true) := by
  unfold recovers
  cases u.mode with
  | auto => simp
  | hold => simp [and_assoc]

theorem testRecovery_ready {c : Core} (h : recovers c.uplink = true) :
    testRecovery c = dueTest (post (.uplinkState .idle .recovered none c.purchase.log.length) { c with uplink := { c.uplink with
      state := .idle, failures := 0, quiet := 0, release := false, quietTimer := c.uplink.quietTimer.stop } }) := if_pos h

theorem testRecovery_unready {c : Core} (h : ¬recovers c.uplink = true) : testRecovery c = c := if_neg h

/-- Settles O51: the waits by their running flags, and the test of recovery by its condition. -/
theorem uplinkWaitsEnd : Obligations.UplinkWaitsEnd := by
  unfold Obligations.UplinkWaitsEnd
  refine ⟨?waits, fun c => ⟨fun h => testRecovery_ready (recovers_iff.mpr h), fun h => testRecovery_unready (mt recovers_iff.mp h)⟩⟩
  intro s c u rested minute
  have hback : u.backoff.running = true → backoffExpired c = dueTest { c with uplink := rested } := fun h => if_pos h
  have hquiet : u.quietTimer.running = true → quietExpired c = testRecovery { c with uplink := minute } := fun h => if_pos h
  refine ⟨fun h => next_onCore (if_neg (Bool.eq_false_iff.mp h)), fun h => next_onCore (if_neg (Bool.eq_false_iff.mp h)),
    fun h => next_onCore (if_neg (Bool.eq_false_iff.mp h)), fun h => next_onCore (if_neg (Bool.eq_false_iff.mp h)),
    fun h hl hp => next_onCore ?sends, fun h hl => next_onCore ?rests, fun h hq => next_onCore ?counts,
    fun h _ => next_onCore (hquiet h)⟩
  case sends => rw [hback h, dueTest_pending (c := { c with uplink := rested }) rfl hp hl, sendReport_eq]
  case rests =>
    rw [hback h]
    by_cases hp : u.pendingFlag = true
    · exact dueTest_emptyLog (c := { c with uplink := rested }) rfl hp hl
    · have hp' : u.pendingFlag = false := Bool.eq_false_iff.mpr hp
      have hnone : (unreported c.purchase).length < 8 := by simp [unreported, hl]
      rw [dueTest_notDue (c := { c with uplink := rested }) rfl hnone hp', ← hp']
  case counts =>
    rw [hquiet h]
    exact testRecovery_of_quiet_lt (c := { c with uplink := minute }) (lt_of_le_of_lt (min_le_left _ _) (by omega))

end Sys2Proof.Machine
end

section
/-! The commit queue: the answers to an offer and the places of a taken item (R177, R178, R184). -/

namespace Sys2Proof.Machine

open Sys2Proof

/-! ## The places of the queue (R177) -/

theorem find_key_none {q : List Item} {k : StoreKey} (h : ∀ x ∈ q, x.key ≠ k) : q.find? (fun x => x.key == k) = none := by
  simpa using h

theorem find_key_some {q : List Item} {old : Item} {k : StoreKey} (hmem : old ∈ q) (hk : old.key = k) (hnd : (q.map (·.key)).Nodup) :
    q.find? (fun x => x.key == k) = some old := by
  cases hf : q.find? (fun x => x.key == k) with
  | none => exact absurd hk (by simpa using List.find?_eq_none.mp hf old hmem)
  | some x =>
    have hx : x.key = k := by simpa using List.find?_some hf
    rw [List.inj_on_of_nodup_map hnd (List.mem_of_find?_eq_some hf) hmem (hx.trans hk.symm)]

theorem enqueue_absent {q : List Item} {it : Item} (h : ∀ x ∈ q, x.key ≠ it.key) :
    enqueue q it = if q.length < 16 then some (if it.urgent then insertUrgent q it else q ++ [it], it.urgent) else none := by
  unfold enqueue
  rw [find_key_none h]

theorem enqueue_present {q : List Item} {it old : Item} (hmem : old ∈ q) (hk : old.key = it.key) (hnd : (q.map (·.key)).Nodup) :
    enqueue q it =
      if it.urgent && !old.urgent then some (insertUrgent (q.filter (fun x => x.key != it.key)) it, true)
      else some (q.map (fun x => if x.key == it.key then { it with urgent := old.urgent } else x), false) := by
  unfold enqueue
  rw [find_key_some hmem hk hnd]

/-! ## The answers (R178) -/

theorem offer_turnedAway {it : Item} {c : Core} {a : OfferAnswer} (h : c.store.state.turnsAway = some a) : offer it c = (a, c) := by
  unfold offer
  rw [h]

theorem offer_noPlace {it : Item} {c : Core} (hs : c.store.state.turnsAway = none) (hq : enqueue c.store.queue it = none) :
    offer it c = (.queueFull, c) := by
  unfold offer
  rw [hs]
  dsimp only
  rw [hq]

/-- The blocks with the commit queue replaced. -/
def withQueue (q : List Item) (c : Core) : Core := { c with store := { c.store with queue := q } }

theorem offer_placed {it : Item} {c : Core} {q : List Item} {arrived : Bool} (hs : c.store.state.turnsAway = none)
    (hq : enqueue c.store.queue it = some (q, arrived)) :
    offer it c = (.taken, if arrived then suspendErase (withQueue q c) else withQueue q c) := by
  unfold offer
  rw [hs]
  dsimp only
  rw [hq]
  rfl

/-- The states in which the commit queue takes items. -/
def workingStates : List StoreState := [.idle, .writing, .compactingCopy, .erasing, .eraseSuspended, .writingInSuspend]

theorem turnsAway_works {st : StoreState} (h : st ∈ workingStates) : st.turnsAway = none := by
  simp only [workingStates, List.mem_cons, List.not_mem_nil, or_false] at h
  obtain rfl | rfl | rfl | rfl | rfl | rfl := h
  all_goals rfl

/-! ## The erase that an urgent item suspends (R184) -/

/-- An erase runs unsuspended. -/
def Suspends (st : Store) : Prop := st.state = .erasing ∧ st.suspended = false

theorem suspendErase_of_not {c : Core} (h : ¬Suspends c.store) : suspendErase c = c := if_neg h

/-- The store with its erase suspended. -/
def eraseSuspended (left : Nat) (st : Store) : Store :=
  { st with state := .eraseSuspended, activity := .none, suspended := true, served := 0, eraseLeft := some left }

theorem suspendErase_suspends {c : Core} (h : Suspends c.store) : ∃ left, (∀ n, c.store.eraseLeft = some n → left ≤ n) ∧
    suspendErase c = { c with store := eraseSuspended left c.store, free := c.free + 1 } := by
  unfold suspendErase drawErase
  rw [if_pos (show c.store.state = .erasing ∧ c.store.suspended = false from h)]
  dsimp only
  cases he : c.store.eraseLeft with
  | none => exact ⟨_, nofun, rfl⟩
  | some x =>
    refine ⟨_, ?_, rfl⟩
    rintro n ⟨⟩
    exact min_le_left _ _

/-- Settles O52: the store's state turns the item away or takes it, and the place follows whether its key waits and which of the two
items is urgent. -/
theorem commitQueueAnswers : Obligations.CommitQueueAnswers := by
  unfold Obligations.CommitQueueAnswers
  intro it c st works behindUrgent leaves suspends arrives absent
  have place : ∀ {q : List Item} {arrived : Bool}, works → enqueue st.queue it = some (q, arrived) →
      offer it c = (.taken, if arrived then suspendErase (withQueue q c) else withQueue q c) := fun hw hq =>
    offer_placed (turnsAway_works hw) hq
  have arrive : ∀ {q : List Item}, works → enqueue st.queue it = some (q, true) → arrives q := by
    intro q hw hq
    refine ⟨fun hs => ?calm, fun hs => ?suspended⟩
    case calm => exact (place hw hq).trans (congrArg (Prod.mk _) (suspendErase_of_not (c := withQueue q c) hs))
    case suspended =>
      obtain ⟨left, hleft, heq⟩ := suspendErase_suspends (c := withQueue q c) hs
      exact ⟨_, left, (place hw hq).trans (congrArg (Prod.mk _) heq), hleft, rfl, rfl⟩
  refine ⟨fun hw ha h16 => ?full, fun hw ha h16 => ⟨fun hu => ?tail, fun hu => ?urgent⟩,
    fun old hw hmem hk hnd => ⟨fun hu ho => ?becomesUrgent, fun hu => ?replaces⟩, ?wipe, fun hs => ?storeFull, fun hs => ?fault⟩
  case full =>
    exact offer_noPlace (turnsAway_works hw) ((enqueue_absent ha).trans (if_neg (Nat.not_lt.mpr h16)))
  case tail =>
    have hq : enqueue st.queue it = some (st.queue ++ [it], false) := by rw [enqueue_absent ha, if_pos h16, hu]; rfl
    exact place hw hq
  case urgent => exact arrive hw (by rw [enqueue_absent ha, if_pos h16, hu]; rfl)
  case becomesUrgent =>
    refine arrive hw ?_
    rw [enqueue_present hmem hk hnd, if_pos (by simp [hu, ho])]
    have hfilter : st.queue.filter (fun x => x.key != it.key) = st.queue.filter fun x => x.key ≠ it.key :=
      List.filter_congr fun x _ => by rw [Bool.eq_iff_iff]; simp
    rw [hfilter]
    rfl
  case replaces =>
    have hq : enqueue st.queue it = some (st.queue.map fun x => if x.key = it.key then { it with urgent := old.urgent } else x, false) := by
      rw [enqueue_present hmem hk hnd, if_neg ?_]
      · simp only [beq_iff_eq]
      · rintro h
        simp only [Bool.and_eq_true, Bool.not_eq_true'] at h
        obtain h' | h' := hu
        · rw [h.1] at h'
          cases h'
        · rw [h.2] at h'
          cases h'
    exact place hw hq
  case wipe =>
    rintro (h | h)
    · exact offer_turnedAway (by rw [h]; rfl)
    · exact offer_turnedAway (by rw [h]; rfl)
  case storeFull => exact offer_turnedAway (by rw [hs]; rfl)
  case fault => exact offer_turnedAway (by rw [hs]; rfl)

end Sys2Proof.Machine
end

section
/-! The Account Store at work: what its steps leave of the pages, and the writes of items (R173, R179 to R181, R186). -/

namespace Sys2Proof.Machine

open Sys2Proof

/-! ## Reports leave the store (R127, R155, R181) -/

theorem clearOwed_store (k : StoreKey) (c : Core) : (clearOwed k c).store = c.store := by
  unfold clearOwed
  dsimp only
  split
  · rfl
  · rfl
  · rfl
  · rfl
  · rfl
  · rfl
  · rfl
  · split
    · rfl
    · rfl
  · rfl
  · rfl

theorem toldEnded_store (writing : Bool) (k : StoreKey) (c : Core) : (toldEnded writing k c).store = c.store := by
  unfold toldEnded
  split
  · split
    · unfold purchaseFailed
      split
      · rfl
      · rfl
    · rfl
  · unfold pinReported
    split
    · rfl
    · rfl
  · rfl

theorem toldFailed_store (writing : Bool) (k : StoreKey) (c : Core) : (toldFailed writing k c).store = c.store :=
  (clearOwed_store k _).trans (toldEnded_store writing k c)

theorem waitingFailed_store (keys : List StoreKey) (c : Core) : (waitingFailed keys c).store = c.store := by
  induction keys generalizing c with
  | nil => rfl
  | cons k ks ih => exact (ih _).trans (toldFailed_store false k c)

theorem writingFailed_store (j : Option Job) (c : Core) : (writingFailed j c).store = c.store := by
  cases j with
  | none => rfl
  | some j => exact toldFailed_store true _ c

theorem toldWritten_pages (k : StoreKey) (c : Core) : (toldWritten k c).store.pages = c.store.pages :=
  (toldWritten_steady (.refl c)).pages

/-! ## The steps of the store leave the pages (R179 to R187) -/

/-- The store in FAULT (R181). -/
def faulted (cause : StoreCause) (p : Option PageNo) (st : Store) : Store :=
  { st with state := .fault, faultCause := some cause, faultPage := p, queue := [], job := none, activity := .none }

theorem enterFault_store (cause : StoreCause) (p : Option PageNo) (c : Core) : (enterFault cause p c).store = faulted cause p c.store := by
  unfold enterFault
  dsimp only
  rw [post_store, waitingFailed_store, writingFailed_store]
  rfl

theorem enterFault_pages (cause : StoreCause) (p : Option PageNo) (c : Core) : (enterFault cause p c).store.pages = c.store.pages := by
  rw [enterFault_store]
  rfl

/-- The store in STORE_FULL (R185). -/
def filledUp (st : Store) : Store :=
  { st with state := .storeFull, queue := [], run := none, activity := .none, suspended := false, served := 0, eraseLeft := none }

/-- What follows the entry of STORE_FULL leaves the pages, the state and the end of the run. -/
theorem enterStoreFull_spec (c : Core) : (enterStoreFull c).store.pages = c.store.pages ∧
    (enterStoreFull c).store.state = .storeFull ∧ (enterStoreFull c).store.run = none := by
  obtain ⟨d, hd, heq⟩ : ∃ d : Core, d.store = filledUp c.store ∧ enterStoreFull c = itemLeft d := by
    refine ⟨_, ?_, rfl⟩
    rw [post_store, waitingFailed_store]
    rfl
  have hsteady := itemLeft_steady (.refl d)
  obtain ⟨hstate, -, -, -, hrun, -⟩ := hsteady.running (by rw [hd]; simp [filledUp])
  rw [heq, hsteady.pages, hstate, hrun, hd]
  exact ⟨rfl, rfl, rfl⟩

theorem enterStoreFull_pages (c : Core) : (enterStoreFull c).store.pages = c.store.pages := (enterStoreFull_spec c).1

theorem beginBanks_pages (l : List (Fin 8)) (st : Store) : (beginBanks l st).pages = st.pages := by
  cases l with
  | nil => rfl
  | cons b bs => rfl

theorem pursueWipe_pages (c : Core) : (pursueWipe c).store.pages = c.store.pages := by
  unfold pursueWipe
  split
  · rfl
  · split
    · rfl
    · exact beginBanks_pages _ _
  · exact beginBanks_pages _ _

theorem noteWhole_pages (j : Job) (st : Store) : (noteWhole j st).pages = st.pages := by
  unfold noteWhole
  split
  · rfl
  · rfl

theorem toldInWipe_pages (e : WriteEnd) (j : Job) (c : Core) : (toldInWipe e j c).store.pages = c.store.pages := by
  unfold toldInWipe
  split
  · split
    · exact (toldWritten_pages _ _).trans (noteWhole_pages j c.store)
    · exact congrArg Store.pages (toldFailed_store _ _ _)
    · exact congrArg Store.pages (toldEnded_store _ _ _)
  · exact congrArg Store.pages (toldEnded_store _ _ _)

theorem endInWipe_pages (e : WriteEnd) (c : Core) : (endInWipe e c).store.pages = c.store.pages := by
  unfold endInWipe
  dsimp only
  rw [pursueWipe_pages]
  split
  · rfl
  · exact toldInWipe_pages _ _ _

theorem noRoom_pages (second : Bool) (c : Core) : (noRoom second c).store.pages = c.store.pages := by
  unfold noRoom
  split
  · exact endInWipe_pages _ _
  · exact enterFault_pages _ _ _

theorem pursue_pages (n : Need) (c : Core) : (pursue n c).store.pages = c.store.pages := by
  unfold pursue
  split
  · split
    · rfl
    · rfl
    · exact noRoom_pages _ _
  · split
    · rfl
    · rfl
    · split
      · exact endInWipe_pages _ _
      · exact enterStoreFull_pages _
  · split
    · rfl
    · rfl
  · exact pursueWipe_pages _

theorem copyNext_pages (p : PageNo) (c : Core) : (copyNext p c).store.pages = c.store.pages := by
  unfold copyNext
  dsimp only
  split
  · exact pursue_pages _ _
  · exact pursue_pages _ _

theorem continueRun_pages (force : Bool) (c : Core) : (continueRun force c).store.pages = c.store.pages := by
  unfold continueRun
  split
  · rfl
  · split
    · rfl
    · split
      · exact copyNext_pages _ _
      · split
        · exact copyNext_pages _ _
        · exact enterStoreFull_pages _

theorem startRun_pages (force : Bool) (c : Core) : (startRun force c).store.pages = c.store.pages := continueRun_pages _ _

theorem settleIdle_pages (c : Core) : (settleIdle c).store.pages = c.store.pages := by
  unfold settleIdle
  dsimp only
  split
  · exact startRun_pages _ _
  · rfl

theorem resumeErase_pages (c : Core) : (resumeErase c).store.pages = c.store.pages := by
  unfold resumeErase
  split
  · rfl
  · rfl

theorem afterWrite_pages (c : Core) : (afterWrite c).store.pages = c.store.pages := by
  unfold afterWrite
  split
  · split
    · exact resumeErase_pages _
    · rfl
  · dsimp only
    split
    · exact continueRun_pages _ _
    · exact settleIdle_pages _
  · rfl

theorem itemWritten_pages (j : Job) (c : Core) : (itemWritten j c).store.pages = c.store.pages := by
  unfold itemWritten
  dsimp only
  rw [afterWrite_pages, toldWritten_pages]
  exact noteWhole_pages _ _

/-! ## Pages whose state stands (R173) -/

theorem erasedCount_setPage {p : PageNo} {x : Page} {st : Store} (h : x.state = (page st p).state) :
    erasedCount (setPage p x st) = erasedCount st := by
  have hcount : ∀ st' : Store, erasedCount st' = (st'.pages.toList.map Page.state).countP (· == .erased) := fun st' => by
    rw [List.countP_map]
    rfl
  have hset : (setPage p x st).pages.toList.map Page.state = st.pages.toList.map Page.state := by
    show (st.pages.set p.val x p.isLt).toList.map Page.state = _
    have hget : (page st p).state = (st.pages.toList.map Page.state)[p.val]'(by simp) := by
      rw [List.getElem_map, Vector.getElem_toList]
      rfl
    rw [Vector.toList_set, List.map_set, h, hget]
    exact List.set_getElem_self _
  rw [hcount, hcount, hset]

theorem openPage_setPage {p : PageNo} {x : Page} {st : Store} (h : x.state = (page st p).state) :
    openPage (setPage p x st) = openPage st := by
  unfold openPage
  congr 1
  funext q
  rw [page_setPage]
  split
  · next hq => rw [hq, h]
  · rfl

/-- A record joins the open page. -/
def entered (p : PageNo) (r : Record) (voided : Bool) (st : Store) : Store := addEntry p (.record { r with voided := voided }) st

theorem openPage_entered (p : PageNo) (r : Record) (voided : Bool) (st : Store) : openPage (entered p r voided st) = openPage st :=
  openPage_setPage rfl

theorem erasedCount_entered (p : PageNo) (r : Record) (voided : Bool) (st : Store) : erasedCount (entered p r voided st) = erasedCount st :=
  erasedCount_setPage rfl

theorem roomFor'_here {st : Store} {p : PageNo} {size : Nat} (hp : openPage st = some p) (hf : size ≤ pageFree (page st p)) :
    roomFor' st size = .here := by
  unfold roomFor'
  rw [hp]
  exact if_pos hf

end Sys2Proof.Machine
end

section
/-! Writing items: ITEM_WRITE_BEGIN and ITEM_WRITE_DONE (R179 to R181). -/

namespace Sys2Proof.Machine

open Sys2Proof

/-! ## An item leaves a queue that owes nothing (R179) -/

theorem offerOwed_nothing {c : Core} (h : nothingOwed c) : offerOwed c = c := by
  obtain ⟨hbook, hday, hdir, hgroup, hack, hlimits⟩ := h
  have hclock : offerOwedClock c = c := by simp [offerOwedClock, hbook, hday]
  have hsnap : offerSnapshot c = c := by simp [offerSnapshot, hdir]
  have hg : offerOwedGroup c = c := by simp [offerOwedGroup, hgroup]
  have ha : offerOwedAck c = c := by simp [offerOwedAck, hack]
  have hl : offerOwedLimits c = c := by simp [offerOwedLimits, hlimits]
  rw [offerOwed, hclock, hsnap, hg, ha, hl]

theorem retestKept_noneKept {c : Core} (h : noneKept c) : retestKept c = c :=
  foldl_retestOne_inert allSlots fun i _ => h i

theorem itemLeft_nothing {c : Core} (ho : nothingOwed c) (hk : noneKept c) : itemLeft c = c := by
  rw [itemLeft, offerOwed_nothing ho, retestKept_noneKept hk]

/-! ## ITEM_WRITE_BEGIN (R179, R180) -/

theorem exec_itemWriteBegin (lengths : List Nat) (s : State) : exec (.itemWriteBegin lengths) s = execItemWriteBegin lengths s := rfl
theorem exec_itemWriteDone (ok : Bool) (s : State) : exec (.itemWriteDone ok) s = execItemWriteDone ok s := rfl

theorem itemWriteBegin_empty {lengths : List Nat} {c : Core} (h : c.store.queue = []) : itemWriteBegin lengths c = c := by
  unfold itemWriteBegin
  rw [h]

theorem itemWriteBegin_elsewhere {lengths : List Nat} {c : Core} (h : c.store.state ∉ [StoreState.idle, .eraseSuspended]) :
    itemWriteBegin lengths c = c := by
  unfold itemWriteBegin
  split
  · rfl
  · dsimp only
    split
    · next hs => exact absurd (by rw [hs]; decide) h
    · next hs => exact absurd (by rw [hs]; decide) h
    · rfl

theorem itemWriteBegin_fits {lengths : List Nat} {c : Core} {it : Item} {rest : List Item} (hs : c.store.state = .idle)
    (hr : c.store.run = none) (hq : c.store.queue = it :: rest) (hf : itemFits c.store (clipLengths it.records.length lengths) = true) :
    itemWriteBegin lengths c = beginItem it (clipLengths it.records.length lengths) .writing c := by
  unfold itemWriteBegin
  rw [hq]
  dsimp only
  rw [hs, hr]
  exact if_pos hf

theorem clipLengths_one {n : Nat} (h1 : 1 ≤ n) (h2 : n ≤ 480) : clipLengths 1 [n] = [n] := by
  simp [clipLengths, h1, h2]

theorem itemFits_one {st : Store} {p : PageNo} {n : Nat} (hp : openPage st = some p) (hf : recordSize n ≤ pageFree (page st p)) :
    itemFits st [n] = true := by
  unfold itemFits
  rw [hp]
  exact if_pos hf

/-- The blocks when the write of an item of one record has begun, before the owed commits are offered. -/
def itemBegun (it : Item) (n : Nat) (rest : List Item) (c : Core) : Core :=
  let st := c.store
  { c with
    store := { st with
      queue := rest, job := some ⟨it, [n], st.nextSerial, 0⟩, nextSerial := st.nextSerial + 1, state := .writing, activity := .item false }
    limits := { c.limits with failWriting := if it.key.kind = .pin then c.limits.failFlag else c.limits.failWriting } }

theorem pinBegun_eq (k : StoreKey) (c : Core) :
    pinBegun k c = { c with limits := { c.limits with
      failWriting := if k.kind = .pin then c.limits.failFlag else c.limits.failWriting } } := by
  unfold pinBegun
  split
  · rfl
  · rfl

theorem pursue_item_here {second : Bool} {c : Core} (h : roomFor' c.store (recordSize (jobLength c.store)) = .here) :
    pursue (.item second) c = setActivity (.item second) c := by
  simp only [pursue, h]

theorem beginItem_one {it : Item} {rest : List Item} {n : Nat} {p : PageNo} {c : Core} (hq : c.store.queue = it :: rest)
    (hp : openPage c.store = some p) (hf : recordSize n ≤ pageFree (page c.store p)) :
    beginItem it [n] .writing c = itemLeft (itemBegun it n rest c) := by
  unfold beginItem
  dsimp only
  rw [pinBegun_eq, hq]
  exact congrArg itemLeft (pursue_item_here (roomFor'_here hp hf))

/-! ## ITEM_WRITE_DONE (R180, R181, R186) -/

theorem itemWriteDone_idle {ok : Bool} {c : Core} (h : ∀ second, c.store.activity ≠ .item second) : itemWriteDone ok c = c := by
  unfold itemWriteDone
  split
  · next second _ _ hact _ _ => exact absurd hact (h second)
  · rfl

/-- A record of the job in progress is being written on the open page. -/
structure WritesOn (c : Core) (second : Bool) (j : Job) (r : Record) (p : PageNo) : Prop where
  activity : c.store.activity = .item second
  job : c.store.job = some j
  next : j.next = some r
  opened : openPage c.store = some p

/-- The blocks with the record on its page. -/
def recordEntered (p : PageNo) (r : Record) (voided : Bool) (c : Core) : Core := setStore (entered p r voided c.store) c

section
variable {c : Core} {second : Bool} {j : Job} {r : Record} {p : PageNo}

theorem itemWriteDone_written (h : WritesOn c second j r p) :
    itemWriteDone true c =
      if c.store.state = .wiping then endInWipe .written (recordEntered p r false c)
      else if j.item.records.length ≤ j.done + 1 then itemWritten j (recordEntered p r false c)
      else pursue (.item false) (setStore { entered p r false c.store with job := some { j with done := j.done + 1 } }
        (recordEntered p r false c)) := by
  unfold itemWriteDone
  rw [h.activity, h.job, h.opened]
  dsimp only
  rw [h.next]
  rfl

theorem itemWriteDone_voided (h : WritesOn c second j r p) :
    itemWriteDone false c =
      if second then
        if c.store.state = .wiping then endInWipe .failed (recordEntered p r true c)
        else enterFault .write (some p) (recordEntered p r true c)
      else pursue (.item true) (recordEntered p r true c) := by
  unfold itemWriteDone
  rw [h.activity, h.job, h.opened]
  dsimp only
  rw [h.next]
  rfl

theorem itemWriteDone_written_pages (h : WritesOn c second j r p) :
    (itemWriteDone true c).store.pages = (entered p r false c.store).pages := by
  rw [itemWriteDone_written h]
  split
  · exact endInWipe_pages _ _
  · split
    · exact itemWritten_pages _ _
    · exact pursue_pages _ _

end

/-- A written item whose poster is not told, in a store that neither runs nor is short of pages, leaves the store in IDLE (R179, R180). -/
theorem itemWritten_rests {j : Job} {c : Core} (hone : j.item.records.length ≤ 1) (hs : c.store.state = .writing)
    (hr : c.store.run = none) (he : 4 ≤ erasedCount c.store) (hpurchase : j.item.key.kind ≠ .purchase) (hpin : j.item.key.kind ≠ .pin) :
    itemWritten j c = setStore { c.store with job := none, activity := .none, state := .idle } c := by
  have htold : ∀ d, toldWritten j.item.key d = d := fun d => by
    unfold toldWritten
    split
    · next hk => exact absurd hk hpurchase
    · next hk => exact absurd hk hpin
    · rfl
  have hnote : ∀ st, noteWhole j st = st := fun st => if_neg (Nat.not_lt.mpr hone)
  unfold itemWritten
  dsimp only
  rw [htold, hnote, if_neg (by rw [hs]; decide)]
  unfold afterWrite
  rw [show (setStore { c.store with job := none, activity := .none, served := c.store.served } c).store.state = .writing from hs]
  dsimp only
  rw [if_neg (by simp [setStore, hr])]
  exact if_neg (Nat.not_lt.mpr he)

/-- Settles O53: the begin by the queue, the state and the room of the open page; the done by what is written, whether it verified and
whether it was the rewrite. -/
theorem itemsAreWritten : Obligations.ItemsAreWritten := by
  unfold Obligations.ItemsAreWritten
  intro lengths s c0 st begin'
  refine ⟨?nothing, ?begins, fun ok h => next_onCore (itemWriteDone_idle h), ?done⟩
  case nothing =>
    rintro (h | h)
    · exact next_onCore (itemWriteBegin_empty h)
    · exact next_onCore (itemWriteBegin_elsewhere h)
  case begins =>
    intro it rest k b p n hs hr hq hrec hlen h1 h2 hp hf
    subst hlen
    have hclip : clipLengths it.records.length [n] = [n] := by
      rw [hrec]
      exact clipLengths_one h1 h2
    have hbegin : itemWriteBegin [n] c0 = itemLeft (itemBegun it n rest c0) := by
      rw [itemWriteBegin_fits hs hr hq (by rw [hclip]; exact itemFits_one hp hf), hclip, beginItem_one hq hp hf]
    have hsteady := itemLeft_steady (.refl (itemBegun it n rest c0))
    obtain ⟨hstate, hjob, hactivity, hserial, -⟩ := hsteady.running (by simp [itemBegun])
    refine ⟨_, next_onCore hbegin, hstate, hactivity, hjob, hserial, hsteady.pages, fun ho hk => ?_⟩
    rw [itemLeft_nothing (c := itemBegun it n rest c0) ho hk]
    rfl
  case done =>
    intro second j k b p hact hjob hrec hdone hp r entered'
    have hnext : j.next = some r := by
      unfold Job.next
      rw [hrec, hdone]
      rfl
    have hw : WritesOn c0 second j r p := ⟨hact, hjob, hnext, hp⟩
    have hone : j.item.records.length = 1 := by rw [hrec]; rfl
    refine ⟨fun hs hrun he hpurchase hpin => next_onCore ?rests, ⟨_, next_onCore rfl, itemWriteDone_written_pages hw⟩,
      fun h2 hf => next_onCore ?again, fun h2 hs => ⟨_, next_onCore rfl, ?fault⟩⟩
    case rests =>
      rw [itemWriteDone_written hw, if_neg (by rw [show c0.store.state = .writing from hs]; decide), if_pos (by omega)]
      exact itemWritten_rests hone.le hs hrun ((erasedCount_entered p r false st).symm ▸ he) hpurchase hpin
    case again =>
      subst h2
      rw [itemWriteDone_voided hw]
      refine pursue_item_here (c := recordEntered p r true c0) (roomFor'_here ((openPage_entered p r true st).trans hp) ?_)
      have hlen : jobLength (entered p r true st) = r.length := by
        show ((st.job.map fun j => j.lengths.getD j.done 1).getD 1) = _
        rw [hjob]
        show j.lengths.getD j.done 1 = _
        rw [hdone]
      show recordSize (jobLength (entered p r true st)) ≤ _
      rw [hlen]
      exact hf
    case fault =>
      subst h2
      rw [itemWriteDone_voided hw, if_pos rfl, if_neg hs, enterFault_store]
      rfl

end Sys2Proof.Machine
end

section
/-! Marks, copies and erases (R173, R181 to R185). -/

namespace Sys2Proof.Machine

open Sys2Proof

theorem exec_markWriteDone (ok : Bool) (s : State) : exec (.markWriteDone ok) s = execMarkWriteDone ok s := rfl
theorem exec_copyWriteDone (ok : Bool) (s : State) : exec (.copyWriteDone ok) s = execCopyWriteDone ok s := rfl
theorem exec_pageEraseDone (blank : Bool) (s : State) : exec (.pageEraseDone blank) s = execPageEraseDone blank s := rfl

/-! ## The pages a write can go to (R173) -/

theorem openPage_none {st : Store} (h : ∀ x, (page st x).state ≠ .opened) : openPage st = none := by
  simpa [openPage] using fun x _ => h x

theorem openPage_unique {st : Store} {p : PageNo} (hp : (page st p).state = .opened) (h : ∀ x, (page st x).state = .opened → x = p) :
    openPage st = some p := by
  cases ho : openPage st with
  | none => exact absurd (by simpa using hp) (List.find?_eq_none.mp ho p (List.mem_finRange p))
  | some q => rw [h q (by simpa using List.find?_some ho)]

theorem nextErased_setPage {st : Store} {p : PageNo} {x : Page} (hx : x.state ≠ .erased) (hp : (page st p).state ≠ .erased) :
    nextErased (setPage p x st) = nextErased st := by
  show (pagesAfter st.lastOpened).find? _ = (pagesAfter st.lastOpened).find? _
  congr 1
  funext q
  rw [page_setPage]
  split
  · next hq =>
    rw [hq]
    simp [hx, hp]
  · rfl

theorem mem_pagesAfter (last : Option PageNo) (p : PageNo) : p ∈ pagesAfter last := by
  cases last with
  | none => exact List.mem_finRange p
  | some q =>
    have hp : p ∈ allPages.take (q.val + 1) ++ allPages.drop (q.val + 1) := by
      rw [List.take_append_drop]
      exact List.mem_finRange p
    exact List.mem_append.mpr (List.mem_append.mp hp).symm

theorem nextErased_of_erased {st : Store} {p : PageNo} (h : (page st p).state = .erased) : ∃ q, nextErased st = some q := by
  cases hn : nextErased st with
  | none => exact absurd (by simpa using h) (List.find?_eq_none.mp hn p (mem_pagesAfter st.lastOpened p))
  | some q => exact ⟨q, rfl⟩

/-- An ERASED page gives every write a next step. -/
theorem roomFor'_of_erased {st : Store} {p : PageNo} (size : Nat) (h : (page st p).state = .erased) : roomFor' st size ≠ .nowhere := by
  obtain ⟨q, hq⟩ := nextErased_of_erased h
  unfold roomFor'
  split
  · split
    · nofun
    · nofun
  · rw [hq]
    nofun

/-! ## Mark writes (R173) -/

theorem markWriteDone_idle {ok : Bool} {c : Core} (h : ∀ m b n, c.store.activity ≠ .mark m b n) : markWriteDone ok c = c := by
  unfold markWriteDone
  split
  · next m b n hact => exact absurd hact (h m b n)
  · rfl

section
variable {c : Core} {m : PageMark} {b : Bool} {n : Need}

theorem markWriteDone_again (h : c.store.activity = .mark m false n) : markWriteDone false c = setActivity (.mark m true n) c := by
  unfold markWriteDone
  rw [h]
  rfl

theorem markWriteDone_fault (h : c.store.activity = .mark m true n) (hw : c.store.state ≠ .wiping) :
    markWriteDone false c = enterFault .write (some (markPage m)) c := by
  unfold markWriteDone
  rw [h]
  exact if_neg (by simpa using hw)

/-- The blocks with the mark in effect. -/
def markTaken (m : PageMark) (c : Core) : Core := setStore { applyMark m true c.store with activity := .none } c

theorem markWriteDone_retiring {p : PageNo} (h : c.store.activity = .mark (.retiring p) b .retire) (hw : c.store.state ≠ .wiping) :
    markWriteDone true c = beginErase p (markTaken (.retiring p) c) := by
  unfold markWriteDone
  rw [h]
  exact if_neg (by simpa using hw)

theorem markWriteDone_item {w : Bool} (h : c.store.activity = .mark m b (.item w)) (hw : c.store.state ≠ .wiping) :
    markWriteDone true c = pursue (.item w) (markTaken m c) := by
  unfold markWriteDone
  rw [h]
  exact if_neg (by simpa using hw)

end

theorem pursue_item_mark {second : Bool} {c : Core} {m : PageMark} (h : roomFor' c.store (recordSize (jobLength c.store)) = .mark m) :
    pursue (.item second) c = setActivity (.mark m false (.item second)) c := by
  simp only [pursue, h]

theorem roomFor'_opening {st : Store} {q : PageNo} {size : Nat} (ho : openPage st = none) (hq : nextErased st = some q) :
    roomFor' st size = .mark (.opening q) := by
  unfold roomFor'
  rw [ho]
  dsimp only
  rw [hq]

/-! ## Copies (R183) -/

theorem copyWriteDone_idle {ok : Bool} {c : Core} (h : ∀ r b, c.store.activity ≠ .copy r b) : copyWriteDone ok c = c := by
  unfold copyWriteDone
  split
  · next r b _ hact _ => exact absurd hact (h r b)
  · rfl

section
variable {c : Core} {r : Record} {b : Bool} {p : PageNo}

theorem copyWriteDone_written (h : c.store.activity = .copy r b) (hp : openPage c.store = some p) :
    copyWriteDone true c =
      if c.store.state = .wiping then pursueWipe (setActivity .none (recordEntered p r false c))
      else continueRun false (setActivity .none (recordEntered p r false c)) := by
  unfold copyWriteDone
  rw [h, hp]
  rfl

theorem copyWriteDone_voided (h : c.store.activity = .copy r b) (hp : openPage c.store = some p) :
    copyWriteDone false c =
      if b then
        if c.store.state = .wiping then pursueWipe (setActivity .none (recordEntered p r true c))
        else enterFault .write (some p) (recordEntered p r true c)
      else pursue (.copy r true) (recordEntered p r true c) := by
  unfold copyWriteDone
  rw [h, hp]
  rfl

theorem copyWriteDone_pages (ok : Bool) (h : c.store.activity = .copy r b) (hp : openPage c.store = some p) :
    (copyWriteDone ok c).store.pages = (entered p r (!ok) c.store).pages := by
  cases ok with
  | true =>
    rw [copyWriteDone_written h hp]
    split
    · exact pursueWipe_pages _
    · exact continueRun_pages _ _
  | false =>
    rw [copyWriteDone_voided h hp]
    split
    · split
      · exact pursueWipe_pages _
      · exact enterFault_pages _ _ _
    · exact pursue_pages _ _

end

theorem pursue_copy_here {r : Record} {second : Bool} {c : Core} (h : roomFor' c.store (recordSize r.length) = .here) :
    pursue (.copy r second) c = setActivity (.copy r second) c := by
  simp only [pursue, h]

/-! ## The run (R179, R182, R183) -/

theorem urgentWaits_iff {st : Store} : urgentWaits st = true ↔ ∃ it, st.queue.head? = some it ∧ it.urgent = true := by
  simp [urgentWaits, Option.any_eq_true]

theorem continueRun_urgent {c : Core} {run : Run} (hr : c.store.run = some run) (hu : urgentWaits c.store = true) :
    continueRun false c = setStore { c.store with state := .idle, activity := .none } c := by
  unfold continueRun
  rw [hr]
  exact if_pos (by simp [hu])

theorem continueRun_page {c : Core} {run : Run} {q : PageNo} (hr : c.store.run = some run) (hu : ¬urgentWaits c.store = true)
    (hq : run.page = some q) : continueRun false c = copyNext q c := by
  unfold continueRun
  rw [hr]
  dsimp only
  rw [if_neg (by simp [hu]), hq]

theorem continueRun_oldest {c : Core} {run : Run} {q : PageNo} (hr : c.store.run = some run) (hu : ¬urgentWaits c.store = true)
    (hp : run.page = none) (hq : oldestFull c.store = some q) :
    continueRun false c = copyNext q (setStore { c.store with run := some { run with page := some q } } c) := by
  unfold continueRun
  rw [hr]
  dsimp only
  rw [if_neg (by simp [hu]), hp]
  dsimp only
  rw [hq]

/-- The blocks in COMPACTING_COPY. -/
def copying (c : Core) : Core := setStore { c.store with state := .compactingCopy } c

theorem copyNext_some {q : PageNo} {x : Record} {c : Core} (h : nextCopy c.store q = some x) :
    copyNext q c = pursue (.copy x false) (copying c) := by
  unfold copyNext
  dsimp only
  rw [show nextCopy (setStore { c.store with state := .compactingCopy } c).store q = some x from h]
  rfl

theorem copyNext_none {q : PageNo} {c : Core} (h : nextCopy c.store q = none) : copyNext q c = pursue .retire (copying c) := by
  unfold copyNext
  dsimp only
  rw [show nextCopy (setStore { c.store with state := .compactingCopy } c).store q = none from h]
  rfl

theorem pursue_retire {c : Core} {p : PageNo} (h : c.store.run.bind (·.page) = some p) :
    pursue .retire c = setActivity (.mark (.retiring p) false .retire) c := by
  unfold pursue
  dsimp only
  rw [h]

/-- A run with an ERASED page left goes on to a copy or a mark. -/
theorem copyNext_of_erased {q p : PageNo} {run : Run} {c : Core} (hr : c.store.run = some run) (hq : run.page = some q)
    (he : (page c.store p).state = .erased) : (copyNext q c).store.state = .compactingCopy ∧ (copyNext q c).store.run = c.store.run := by
  cases hn : nextCopy c.store q with
  | none =>
    rw [copyNext_none hn, pursue_retire (p := q) (by show c.store.run.bind _ = _; rw [hr]; exact hq)]
    exact ⟨rfl, rfl⟩
  | some x =>
    have hroom : roomFor' (copying c).store (recordSize x.length) ≠ .nowhere := roomFor'_of_erased (p := p) _ he
    rw [copyNext_some hn]
    unfold pursue
    dsimp only
    split
    · exact ⟨rfl, rfl⟩
    · exact ⟨rfl, rfl⟩
    · next h => exact absurd h hroom

/-- The blocks with a copy verified on its page. -/
def copied (p : PageNo) (r : Record) (c : Core) : Core := setActivity .none (recordEntered p r false c)

theorem nextCopy_of_pages {st st' : Store} (hp : st'.pages = st.pages) (hw : st'.whole = st.whole) (hf : st'.floor = st.floor)
    (q : PageNo) : nextCopy st' q = nextCopy st q := by
  have hrecords : allRecords st' = allRecords st := by unfold allRecords page; rw [hp]
  have hlive : liveIn st' = liveIn st := by unfold liveIn newer validIn page; rw [hp, hw, hf]
  have hacked : liveAcked st' = liveAcked st := by unfold liveAcked liveBody liveRecord; rw [hlive, hrecords]
  have hcharged : liveCharged st' = liveCharged st := by unfold liveCharged liveBody liveRecord; rw [hlive, hrecords]
  have hneeded : needed st' = needed st := by unfold needed; rw [hacked, hcharged]
  unfold nextCopy liveNeededAt
  rw [hrecords, hlive, hneeded]

section
variable {c : Core} {r : Record} {b : Bool} {p q : PageNo} {run : Run}

theorem copyWriteDone_urgent (h : c.store.activity = .copy r b) (hp : openPage c.store = some p) (hw : c.store.state ≠ .wiping)
    (hr : c.store.run = some run) (hu : urgentWaits c.store = true) :
    copyWriteDone true c = setStore { entered p r false c.store with state := .idle, activity := .none } c := by
  rw [copyWriteDone_written h hp, if_neg hw]
  exact continueRun_urgent (c := copied p r c) hr hu

theorem copyWriteDone_goesOn (h : c.store.activity = .copy r b) (hp : openPage c.store = some p) (hw : c.store.state ≠ .wiping)
    (hr : c.store.run = some run) (hq : run.page = some q) (hu : ¬urgentWaits c.store = true) :
    copyWriteDone true c = copyNext q (copied p r c) := by
  rw [copyWriteDone_written h hp, if_neg hw]
  exact continueRun_page (c := copied p r c) hr hu hq

theorem copyNext_copied_none (hr : c.store.run = some run) (hq : run.page = some q)
    (hn : nextCopy (entered p r false c.store) q = none) : copyNext q (copied p r c) =
      setStore { entered p r false c.store with state := .compactingCopy, activity := .mark (.retiring q) false .retire } c := by
  have hn' : nextCopy (copied p r c).store q = none := (nextCopy_of_pages rfl rfl rfl q).trans hn
  have hpage : (copying (copied p r c)).store.run.bind (·.page) = some q := by
    show c.store.run.bind (·.page) = some q
    rw [hr]
    exact hq
  rw [copyNext_none hn', pursue_retire hpage]
  rfl

theorem copyNext_copied_some {x : Record} (hp : openPage c.store = some p) (hn : nextCopy (entered p r false c.store) q = some x)
    (hf : recordSize x.length ≤ pageFree (page (entered p r false c.store) p)) : copyNext q (copied p r c) =
      setStore { entered p r false c.store with state := .compactingCopy, activity := .copy x false } c := by
  have hn' : nextCopy (copied p r c).store q = some x := (nextCopy_of_pages rfl rfl rfl q).trans hn
  have hroom : roomFor' (copying (copied p r c)).store (recordSize x.length) = .here :=
    roomFor'_here ((openPage_entered p r false c.store).trans hp) hf
  rw [copyNext_some hn', pursue_copy_here hroom]
  rfl

end

/-! ## Erases (R184) -/

theorem pageEraseDone_idle {blank : Bool} {c : Core} (h : ∀ p, c.store.activity ≠ .erase p) : pageEraseDone blank c = c := by
  unfold pageEraseDone
  split
  · next p hact => exact absurd hact (h p)
  · rfl

/-- The store when an erase has ended. -/
def eraseEnded (st : Store) : Store := { st with activity := .none, suspended := false, served := 0, eraseLeft := none }

/-- The blocks when the page's erase has ended with the page blank. -/
def pageErased (p : PageNo) (c : Core) : Core := setStore (setPage p .blank (eraseEnded c.store)) c

section
variable {c : Core} {p : PageNo} {run : Run}

theorem pageEraseDone_blank (h : c.store.activity = .erase p) : pageEraseDone true c = afterErase (pageErased p c) := by
  unfold pageEraseDone
  rw [h]
  rfl

theorem pageEraseDone_fault (h : c.store.activity = .erase p) :
    pageEraseDone false c = enterFault .erase (some p) (setStore (eraseEnded c.store) c) := by
  unfold pageEraseDone
  rw [h]
  rfl

/-- The blocks with the run one page further. -/
def runFurther (run : Run) (c : Core) : Core :=
  setStore { c.store with run := some { run with compacted := run.compacted + 1, page := none } } c

theorem afterErase_run (h : c.store.run = some run) :
    afterErase c =
      if 4 ≤ erasedCount c.store then setStore { c.store with run := none, state := .idle } c
      else if run.compacted + 1 < run.fullAtStart then continueRun false (runFurther run c)
      else enterStoreFull (runFurther run c) := by
  unfold afterErase
  rw [h]
  rfl

end

/-- Settles O54: marks, copies and erases by their outcome, and the run by the urgent head, the next copy and the ERASED pages. -/
theorem pagesAreCompacted : Obligations.PagesAreCompacted := by
  unfold Obligations.PagesAreCompacted
  intro s c0 st goes put marked urgentHead
  refine ⟨fun h ok => next_onCore (markWriteDone_idle h), fun m n h => next_onCore (markWriteDone_again h),
    fun m n h hw => ⟨_, next_onCore rfl, ?markFault⟩, fun p q b w h hw ho hu hq => next_onCore ?full,
    fun q b w j h hw hno hblank hj hsize => next_onCore ?opening, fun p b h hw => ⟨_, next_onCore (markWriteDone_retiring h hw)⟩,
    fun h ok => next_onCore (copyWriteDone_idle h), ?copy, fun h blank => next_onCore (pageEraseDone_idle h), ?erase⟩
  case markFault =>
    rw [markWriteDone_fault h hw, enterFault_store]
    exact ⟨rfl, rfl, rfl⟩
  case full =>
    have hne : ∀ x, (page (setPage p { page st p with state := .full } st) x).state ≠ .opened := fun x => by
      rw [page_setPage]
      split
      · nofun
      · next hx => exact fun h => hx (hu x h)
    have herased : nextErased (setPage p { page st p with state := .full } st) = some q := by
      rw [nextErased_setPage (by nofun) (by rw [ho]; nofun), hq]
    exact (markWriteDone_item h hw).trans (pursue_item_mark (roomFor'_opening (openPage_none hne) herased))
  case opening =>
    have hopen : openPage (markTaken (.opening q) c0).store = some q := by
      refine openPage_unique (st := setPage q { page st q with state := .opened, serial := st.nextPageSerial } st) ?_ fun x hx => ?_
      · rw [page_setPage, if_pos rfl]
      · by_contra hne
        rw [page_setPage, if_neg hne] at hx
        exact hno x hx
    have hfree : pageFree (page (markTaken (.opening q) c0).store q) = 496 := by
      have hpage : page (markTaken (.opening q) c0).store q = { page st q with state := .opened, serial := st.nextPageSerial } :=
        (page_setPage q q _ st).trans (if_pos rfl)
      rw [hpage, hblank]
      rfl
    have hlen : jobLength (markTaken (.opening q) c0).store = j.lengths.getD j.done 1 := by
      show ((st.job.map fun j => j.lengths.getD j.done 1).getD 1) = _
      rw [hj]
      rfl
    rw [markWriteDone_item h hw, pursue_item_here (roomFor'_here hopen (by rw [hfree, hlen]; exact hsize))]
    have hentries : (page c0.store q).entries = [] := by
      rw [show page c0.store q = .blank from hblank]
      rfl
    simp only [markTaken, applyMark, setActivity, setStore, hentries]
    rfl
  case copy =>
    intro r b p hact hp entered'
    have hop : ∀ v, openPage (entered p r v st) = some p := fun v => (openPage_entered p r v st).trans hp
    refine ⟨fun ok => ⟨_, next_onCore rfl, copyWriteDone_pages ok hact hp⟩, fun hb hf => next_onCore ?again,
      fun run q hw hr hq => ⟨fun hu => next_onCore ?urgent, fun hu hn => next_onCore ?retires, fun x hu hn hf => next_onCore ?copies⟩⟩
    case again =>
      subst hb
      rw [copyWriteDone_voided hact hp]
      exact pursue_copy_here (c := recordEntered p r true c0) (roomFor'_here (hop true) hf)
    case urgent => exact copyWriteDone_urgent hact hp hw hr (urgentWaits_iff.mpr hu)
    case retires => exact (copyWriteDone_goesOn hact hp hw hr hq (mt urgentWaits_iff.mp hu)).trans (copyNext_copied_none hr hq hn)
    case copies => exact (copyWriteDone_goesOn hact hp hw hr hq (mt urgentWaits_iff.mp hu)).trans (copyNext_copied_some hp hn hf)
  case erase =>
    intro p run hact hr st'
    refine ⟨fun h4 => next_onCore ?ends, fun q h4 hmore hu hq => ⟨_, next_onCore rfl, ?further⟩,
      fun h4 hmore => ⟨_, next_onCore rfl, ?storeFull⟩, ⟨_, next_onCore rfl, ?fault⟩⟩
    case ends => exact (pageEraseDone_blank hact).trans ((afterErase_run (c := pageErased p c0) hr).trans (if_pos h4))
    case further =>
      have hsteps : pageEraseDone true c0 = copyNext q
          (setStore { (runFurther run (pageErased p c0)).store with
            run := some ⟨run.fullAtStart, run.compacted + 1, some q⟩ } (runFurther run (pageErased p c0))) :=
        (pageEraseDone_blank hact).trans ((afterErase_run (c := pageErased p c0) hr).trans
          ((if_neg (Nat.not_le.mpr h4)).trans ((if_pos hmore).trans
            (continueRun_oldest (c := runFurther run (pageErased p c0)) rfl (mt urgentWaits_iff.mp hu) rfl hq))))
      have herased : (page (setPage p .blank (eraseEnded st)) p).state = .erased := by
        rw [page_setPage, if_pos rfl]
        rfl
      obtain ⟨hstate, hrun⟩ := copyNext_of_erased (q := q) (p := p)
        (c := setStore { (runFurther run (pageErased p c0)).store with
          run := some ⟨run.fullAtStart, run.compacted + 1, some q⟩ } (runFurther run (pageErased p c0))) rfl rfl herased
      rw [hsteps, hstate, hrun, copyNext_pages]
      exact ⟨rfl, rfl, rfl⟩
    case storeFull =>
      have hsteps : pageEraseDone true c0 = enterStoreFull (runFurther run (pageErased p c0)) :=
        (pageEraseDone_blank hact).trans ((afterErase_run (c := pageErased p c0) hr).trans
          ((if_neg (Nat.not_le.mpr h4)).trans (if_neg (Nat.not_lt.mpr hmore))))
      obtain ⟨hpages, hstate, hrun⟩ := enterStoreFull_spec (runFurther run (pageErased p c0))
      rw [hsteps, hpages, hstate, hrun]
      exact ⟨rfl, rfl, rfl⟩
    case fault =>
      rw [pageEraseDone_fault hact, enterFault_store]
      exact ⟨rfl, rfl, rfl, rfl⟩

end Sys2Proof.Machine
end

section
/-! The guide: records, the present event, and present/next segments (R105 to R109, R117 to R120, R203). -/

namespace Sys2Proof.Machine

open Sys2Proof

/-! ## The marker in use (R118) -/

theorem usedMarker_eq_some_iff {c : Core} {lcn : Nat} {m : Marker} :
    usedMarker c lcn = some m ↔ c.guide.markers.find? (·.lcn == lcn) = some m ∧ channelCarrier c m.lcn = some m.carrier := by
  simp [usedMarker, markerOf, markerInUse, Option.filter_eq_some_iff]

theorem usedMarker_eq_none_iff {c : Core} {lcn : Nat} :
    usedMarker c lcn = none ↔ ∀ m, c.guide.markers.find? (·.lcn == lcn) = some m → channelCarrier c m.lcn ≠ some m.carrier := by
  rw [Option.eq_none_iff_forall_ne_some]
  exact forall_congr' fun m => (not_congr usedMarker_eq_some_iff).trans not_and

/-- A marker in use names the record. -/
def Named (c : Core) (r : EventRecord) : Prop :=
  ∃ m, c.guide.markers.find? (·.lcn == r.lcn) = some m ∧ channelCarrier c m.lcn = some m.carrier ∧ m.event = r.event

theorem namedByMarker_iff {c : Core} {r : EventRecord} : namedByMarker c r = true ↔ Named c r := by
  unfold namedByMarker
  cases hm : usedMarker c r.lcn with
  | none =>
    exact ⟨nofun, fun ⟨m, hf, hc, _⟩ => absurd hc (usedMarker_eq_none_iff.mp hm m hf)⟩
  | some m =>
    obtain ⟨hf, hc⟩ := usedMarker_eq_some_iff.mp hm
    constructor
    · intro h
      exact ⟨m, hf, hc, by simpa using h⟩
    · rintro ⟨m', hf', -, he⟩
      rw [hf] at hf'
      cases hf'
      simpa using he

theorem presentEvent_marked {c : Core} {lcn : Nat} {m : Marker} (h : usedMarker c lcn = some m) :
    presentEvent c lcn = some ⟨m.event, true⟩ := by
  unfold presentEvent
  rw [h]

theorem presentEvent_noTime {c : Core} {lcn : Nat} (h : usedMarker c lcn = none) (ht : c.clock.time = none) :
    presentEvent c lcn = none := by
  unfold presentEvent
  rw [h, ht]

theorem presentEvent_recorded {c : Core} {lcn now : Nat} (h : usedMarker c lcn = none) (ht : c.clock.time = some now) :
    presentEvent c lcn = (recordAt c lcn now).map fun r => ⟨r.event, false⟩ := by
  unfold presentEvent
  rw [h, ht]

/-- The record's span contains the time. -/
def Spans (r : EventRecord) (now : Nat) : Prop := r.start ≤ now ∧ now < r.start + r.duration * 60

theorem recordAt_some {c : Core} {lcn now : Nat} {r : EventRecord} (h : recordAt c lcn now = some r) :
    r ∈ c.guide.records ∧ r.lcn = lcn ∧ Spans r now := by
  refine ⟨List.mem_of_find?_eq_some h, ?_⟩
  have hr := List.find?_some h
  simp only [Bool.and_eq_true, beq_iff_eq, decide_eq_true_eq] at hr
  obtain ⟨⟨hl, hs⟩, hf⟩ := hr
  exact ⟨hl, hs, hf⟩

theorem recordAt_none {c : Core} {lcn now : Nat} (h : recordAt c lcn now = none) {r : EventRecord} (hr : r ∈ c.guide.records)
    (hl : r.lcn = lcn) : ¬Spans r now := by
  have hno := List.find?_eq_none.mp h r hr
  simp only [Bool.and_eq_true, beq_iff_eq, decide_eq_true_eq, not_and] at hno
  exact fun hs => hno ⟨hl, hs.1⟩ hs.2

/-! ## A record that is inserted is followed by the bookings linked to it (R108, R203) -/

/-- All but the bookings and the commit queue stands as it was. -/
def BookingsOnly (c c' : Core) : Prop := ∃ store free clock, c' = { c with store := store, free := free, clock := clock }

theorem BookingsOnly.refl (c : Core) : BookingsOnly c c := ⟨_, _, _, rfl⟩

theorem BookingsOnly.trans {a b c : Core} (h : BookingsOnly a b) (h' : BookingsOnly b c) : BookingsOnly a c := by
  obtain ⟨_, _, _, rfl⟩ := h
  obtain ⟨_, _, _, rfl⟩ := h'
  exact ⟨_, _, _, rfl⟩

theorem BookingsOnly.foldl {α : Type} {f : Core → α → Core} (hf : ∀ c x, BookingsOnly c (f c x)) (l : List α) (c : Core) :
    BookingsOnly c (l.foldl f c) := by
  induction l generalizing c with
  | nil => exact .refl c
  | cons x xs ih => exact (hf c x).trans (ih _)

theorem commitBooking_only (id : Nat) (c : Core) : BookingsOnly c (commitBooking id c) := by
  unfold commitBooking
  split
  · next c' h =>
    rw [(offer_only h).eq_with]
    exact ⟨_, _, _, rfl⟩
  · next c' h =>
    rw [(offer_only h).eq_with]
    exact ⟨_, _, _, rfl⟩
  · next c' _ _ h =>
    rw [(offer_only h).eq_with]
    exact ⟨_, _, _, rfl⟩

theorem commitBooking_bookings (id : Nat) (c : Core) : (commitBooking id c).clock.bookings = c.clock.bookings := by
  have howe : ∀ k : Clock, (oweBooking id k).bookings = k.bookings := fun k => by
    unfold oweBooking
    split
    · rfl
    · rfl
  unfold commitBooking
  split
  · next c' h => exact (howe _).trans (congrArg Clock.bookings (offer_only h).clock)
  · next c' h => exact congrArg Clock.bookings (offer_only h).clock
  · next c' _ _ h => exact (congrArg Clock.bookings (offer_only h).clock : c'.clock.bookings = c.clock.bookings)

theorem followRecord_only (r : EventRecord) (c : Core) (id : Nat) : BookingsOnly c (followRecord r c id) := by
  unfold followRecord
  split
  · exact .refl c
  · split
    · exact .refl c
    · exact .trans ⟨_, _, _, rfl⟩ (commitBooking_only _ _)

theorem recordInserted_only (r : EventRecord) (c : Core) : BookingsOnly c (recordInserted r c) :=
  .foldl (followRecord_only r) _ c

theorem followRecord_noneExtended {r : EventRecord} {c : Core} {id : Nat} (h : noneExtended c) : noneExtended (followRecord r c id) := by
  unfold followRecord
  split
  · exact h
  · next b hb =>
    split
    · exact h
    · intro x hx
      rw [commitBooking_bookings] at hx
      obtain rfl | hx := placeBooking_extended hx
      · exact h b (List.mem_of_find?_eq_some hb)
      · exact h x hx

theorem recordInserted_noneExtended {r : EventRecord} {c : Core} (h : noneExtended c) : noneExtended (recordInserted r c) := by
  have hfold : ∀ (l : List Nat) (c : Core), noneExtended c → noneExtended (l.foldl (followRecord r) c) := by
    intro l
    induction l with
    | nil => exact fun c h => h
    | cons id l ih => exact fun c h => ih _ (followRecord_noneExtended h)
  exact hfold _ c h

theorem recordInserted_records (r : EventRecord) (l : List EventRecord) (c : Core) :
    (recordInserted r (setRecords l c)).guide = { c.guide with records := l } := by
  obtain ⟨_, _, _, h⟩ := recordInserted_only r (setRecords l c)
  rw [h]
  rfl

theorem linkedTo_eq (r : EventRecord) (b : Booking) :
    linkedTo r b = decide (b.lcn = r.lcn ∧ b.link = some r.event ∧ b.state ≠ .done ∧ b.state ≠ .missed ∧ b.state ≠ .conflict) := by
  unfold linkedTo
  rw [Bool.eq_iff_iff]
  cases b.state with
  | waiting => simp
  | due => simp
  | active => simp
  | done => simp
  | missed => simp
  | conflict => simp

theorem followRecord_stays {r : EventRecord} {c : Core} {b : Booking} (hb : findBooking c b.id = some b) (hs : b.start = r.start)
    (hf : b.finish = r.finish) : followRecord r c b.id = c := by
  unfold followRecord
  rw [hb]
  exact if_pos ⟨hs, hf⟩

theorem followRecord_moves {r : EventRecord} {c : Core} {b : Booking} (hb : findBooking c b.id = some b)
    (h : b.start ≠ r.start ∨ b.finish ≠ r.finish) :
    followRecord r c b.id = commitBooking b.id (setBooking { b with start := r.start, finish := r.finish } c) := by
  unfold followRecord
  rw [hb]
  exact if_neg (by tauto)

/-! ## Inserting a record (R107) -/

/-- A record that the new one displaces. -/
def Displaced (n r : EventRecord) : Prop :=
  r.lcn = n.lcn ∧ (r.event = n.event ∨ (n.start < r.start + r.duration * 60 ∧ r.start < n.start + n.duration * 60))

theorem displaces_iff {n r : EventRecord} : n.displaces r = true ↔ Displaced n r := by
  unfold EventRecord.displaces EventRecord.overlaps
  simp only [Bool.and_eq_true, Bool.or_eq_true, beq_iff_eq, decide_eq_true_eq]
  exact Iff.rfl

/-- The records that stay beside the new one. -/
def keptBeside (n : EventRecord) (l : List EventRecord) : List EventRecord := l.filter fun r => !n.displaces r

theorem mem_keptBeside {n r : EventRecord} {l : List EventRecord} : r ∈ keptBeside n l ↔ r ∈ l ∧ ¬Displaced n r := by
  rw [keptBeside, List.mem_filter, Bool.not_eq_true', ← Bool.not_eq_true, displaces_iff]

theorem insertRecord_fits {n : EventRecord} {c : Core} (h : (keptBeside n c.guide.records).length ≤ 2047) :
    insertRecord n c = recordInserted n (setRecords (insertBy EventRecord.before n (keptBeside n c.guide.records)) c) := if_pos h

theorem insertRecord_late {n x : EventRecord} {c : Core} (h : 2048 ≤ (keptBeside n c.guide.records).length)
    (hx : evictionCandidate c = some x) (hl : x.start < n.start) : insertRecord n c = c := by
  refine (if_neg (by rw [← keptBeside]; omega)).trans ?_
  rw [hx]
  exact if_pos hl

theorem insertRecord_evicts {n x : EventRecord} {c : Core} (h : 2048 ≤ (keptBeside n c.guide.records).length)
    (hx : evictionCandidate c = some x) (hl : n.start ≤ x.start) :
    insertRecord n c = recordInserted n (setRecords (insertBy EventRecord.before n
      ((keptBeside n c.guide.records).filter fun r => !(r.lcn == x.lcn && r.event == x.event))) c) := by
  refine (if_neg (by rw [← keptBeside]; omega)).trans ?_
  rw [hx]
  exact if_neg (Nat.not_lt.mpr hl)

/-- A record is refused, or inserted with a new list of records. -/
theorem insertRecord_cases (n : EventRecord) (c : Core) :
    insertRecord n c = c ∨ ∃ l, insertRecord n c = recordInserted n (setRecords l c) := by
  unfold insertRecord
  dsimp only
  split
  · exact .inr ⟨_, rfl⟩
  · split
    · exact .inl rfl
    · split
      · exact .inl rfl
      · exact .inr ⟨_, rfl⟩

theorem insertRecord_noneExtended {n : EventRecord} {c : Core} (h : noneExtended c) : noneExtended (insertRecord n c) := by
  obtain he | ⟨l, he⟩ := insertRecord_cases n c
  · rw [he]
    exact h
  · rw [he]
    exact recordInserted_noneExtended (c := setRecords l c) h

/-- All but the records, the bookings and the commit queue stands as it was. -/
def RecordsOnly (c c' : Core) : Prop := ∃ store free clock records,
  c' = { c with store := store, free := free, clock := clock, guide := { c.guide with records := records } }

theorem insertRecord_only (n : EventRecord) (c : Core) : RecordsOnly c (insertRecord n c) := by
  obtain he | ⟨l, he⟩ := insertRecord_cases n c
  · rw [he]
    exact ⟨_, _, _, _, rfl⟩
  · obtain ⟨_, _, _, hb⟩ := recordInserted_only n (setRecords l c)
    rw [he, hb]
    exact ⟨_, _, _, _, rfl⟩

/-- The fold of the eviction candidate. -/
def laterOf (best : Option EventRecord) (r : EventRecord) : Option EventRecord :=
  match best with
  | none => some r
  | some b => if b.start < r.start || (b.start == r.start && b.lcn ≤ r.lcn) then some r else best

/-- Of records of which one is later than all the others, that one is the candidate. -/
theorem foldl_laterOf {x : EventRecord} : ∀ (l : List EventRecord) (best : Option EventRecord), (∀ b, best = some b → b = x ∨
      b.start < x.start ∨ (b.start = x.start ∧ b.lcn < x.lcn)) → (x ∈ l ∨ best = some x) →
    (∀ r ∈ l, r = x ∨ r.start < x.start ∨ (r.start = x.start ∧ r.lcn < x.lcn)) → l.foldl laterOf best = some x
  | [], best, _, hx, _ => by simpa using hx
  | r :: l, best, hb, hx, hl => by
    have hr := hl r List.mem_cons_self
    rw [List.foldl_cons]
    refine foldl_laterOf l _ ?_ ?_ fun y hy => hl y (List.mem_cons_of_mem _ hy)
    · intro b h
      cases best with
      | none =>
        cases h
        exact hr
      | some b' =>
        unfold laterOf at h
        dsimp only at h
        split at h
        · cases h
          exact hr
        · exact hb b h
    · by_cases hrx : r = x
      · subst hrx
        right
        cases best with
        | none => rfl
        | some b' =>
          unfold laterOf
          dsimp only
          refine if_pos ?_
          obtain rfl | h | ⟨h, h'⟩ := hb b' rfl
          · simp
          · simp [h]
          · simp [h, h'.le]
      · obtain hx | rfl := hx
        · exact .inl ((List.mem_cons.mp hx).resolve_left fun e => hrx e.symm)
        · right
          unfold laterOf
          dsimp only
          refine if_neg ?_
          simp only [Bool.or_eq_true, Bool.and_eq_true, decide_eq_true_eq, beq_iff_eq]
          obtain h | h | ⟨h, h'⟩ := hr
          · exact absurd h hrx
          · omega
          · omega

theorem evictionCandidate_eq {x : EventRecord} {c : Core} (hx : x ∈ c.guide.records) (hn : ¬Named c x)
    (hmax : ∀ r ∈ c.guide.records, ¬Named c r → r = x ∨ r.start < x.start ∨ (r.start = x.start ∧ r.lcn < x.lcn)) :
    evictionCandidate c = some x := by
  have hun : ∀ r, (!namedByMarker c r) = true ↔ ¬Named c r := fun r => by
    rw [Bool.not_eq_true', ← Bool.not_eq_true, namedByMarker_iff]
  refine foldl_laterOf _ none nofun (.inl (List.mem_filter.mpr ⟨hx, (hun x).mpr hn⟩)) fun r hr => ?_
  obtain ⟨hr, hr'⟩ := List.mem_filter.mp hr
  exact hmax r hr ((hun r).mp hr')

/-! ## Offered records (R106) -/

/-- The fields of an offered record are in range. -/
def RecordFits (r : OfferedRecord) : Prop :=
  1 ≤ r.lcn ∧ r.lcn ≤ 9999 ∧ 1 ≤ r.duration ∧ r.duration ≤ 1440 ∧ r.rating ≤ 7 ∧ r.title.length ≤ 40 ∧
    ∀ p, r.price = some p → 1 ≤ p ∧ p ≤ 1000000

theorem recordFits_iff {r : OfferedRecord} : OfferedRecord.formed r = true ↔ RecordFits r := by
  unfold OfferedRecord.formed RecordFits
  cases r.price with
  | none => simp [lcnInRange, and_assoc]
  | some p => simp [lcnInRange, and_assoc]

theorem offerRecord_only (source : Source) (c : Core) (r : OfferedRecord) : RecordsOnly c (offerRecord source c r) := by
  unfold offerRecord
  split
  · exact insertRecord_only _ c
  · exact ⟨_, _, _, _, rfl⟩

theorem offerRecord_noneExtended {source : Source} {c : Core} {r : OfferedRecord} (h : noneExtended c) :
    noneExtended (offerRecord source c r) := by
  unfold offerRecord
  split
  · exact insertRecord_noneExtended h
  · exact h

/-! ## Present/next (R117) -/

/-- What an entry offers, its next event first. -/
def entryOffered (e : PresentNextEntry) (c : Core) : Core :=
  let c1 := match e.next with | some r => offerRecord .now c r | none => c
  match e.present with | some r => offerRecord .now c1 r | none => c1

theorem RecordsOnly.trans {a b c : Core} (h : RecordsOnly a b) (h' : RecordsOnly b c) : RecordsOnly a c := by
  obtain ⟨_, _, _, _, rfl⟩ := h
  obtain ⟨_, _, _, _, rfl⟩ := h'
  exact ⟨_, _, _, _, rfl⟩

theorem RecordsOnly.refl (c : Core) : RecordsOnly c c := ⟨_, _, _, _, rfl⟩

theorem entryOffered_spec (e : PresentNextEntry) (c : Core) :
    RecordsOnly c (entryOffered e c) ∧ (noneExtended c → noneExtended (entryOffered e c)) := by
  have step : ∀ (o : Option OfferedRecord) (c : Core), RecordsOnly c (match o with | some r => offerRecord .now c r | none => c) ∧
      (noneExtended c → noneExtended (match o with | some r => offerRecord .now c r | none => c)) := by
    intro o c
    cases o with
    | none => exact ⟨.refl c, fun h => h⟩
    | some r => exact ⟨offerRecord_only _ c r, offerRecord_noneExtended⟩
  obtain ⟨h1, h1'⟩ := step e.next c
  obtain ⟨h2, h2'⟩ := step e.present _
  exact ⟨h1.trans h2, fun h => h2' (h1' h)⟩

/-- The blocks with the markers replaced. -/
def withMarkers (l : List Marker) (c : Core) : Core := { c with guide := { c.guide with markers := l } }

theorem takePresentEntry_elsewhere {x : Carrier} {c : Core} {e : PresentNextEntry} (h : channelCarrier c e.lcn ≠ some x) :
    takePresentEntry x c e = c := if_neg h

theorem takePresentEntry_present {x : Carrier} {c : Core} {e : PresentNextEntry} {r : OfferedRecord}
    (h : channelCarrier c e.lcn = some x) (hp : e.present = some r) (hn : noneExtended c) :
    takePresentEntry x c e =
      withMarkers (⟨e.lcn, r.event, x⟩ :: (entryOffered e c).guide.markers.filter fun m => m.lcn != e.lcn) (entryOffered e c) := by
  have hoffered : noneExtended (entryOffered e c) := (entryOffered_spec e c).2 hn
  have hmarked : takePresentEntry x c e = putMarker ⟨e.lcn, r.event, x⟩ (entryOffered e c) := by
    unfold takePresentEntry entryOffered
    rw [if_pos h, hp] <;> rfl
  rw [hmarked]
  exact markerChanged_noneExtended (c := withMarkers _ (entryOffered e c)) hoffered

theorem takePresentEntry_noPresent {x : Carrier} {c : Core} {e : PresentNextEntry} (h : channelCarrier c e.lcn = some x)
    (hp : e.present = none) (hn : noneExtended c) :
    takePresentEntry x c e = withMarkers ((entryOffered e c).guide.markers.filter fun m => !(m.lcn == e.lcn)) (entryOffered e c) := by
  have hoffered : noneExtended (entryOffered e c) := (entryOffered_spec e c).2 hn
  have hremoved : takePresentEntry x c e = removeMarkers stopSession (·.lcn == e.lcn) (entryOffered e c) := by
    unfold takePresentEntry entryOffered
    rw [if_pos h, hp] <;> rfl
  rw [hremoved]
  exact removeMarkers_noneExtended hoffered

theorem takePresentNext_carrier {t : Fin 4} {x : Carrier} {es : List PresentNextEntry} {c : Core} (h : (tuner c t).carrier = some x) :
    takePresentNext t es c = testPresent (es.foldl (takePresentEntry x) c) := by
  unfold takePresentNext
  rw [h]

/-! ## The test for event changes (R120, R132) -/

theorem Session.evaluated_iff {x : Session} : x.evaluated = true ↔
    x.state = .checking ∨ x.state = .presenting ∨ x.state = .dark ∨ (x.state = .held ∧ x.reasons.terminal = false) := by
  unfold Session.evaluated
  cases x.state with
  | idle => simp
  | tuning => simp
  | opening => simp
  | checking => simp
  | presenting => simp
  | held => simp
  | dark => simp

theorem testSession_untested {c : Core} {o : Output} (h : ¬(session c o).evaluated = true ∨ (session c o).lcn = none) :
    testSession c o = c := by
  unfold testSession
  dsimp only
  split
  · next he hl =>
    obtain h | h := h
    · exact absurd he h
    · rw [hl] at h
      cases h
  · rfl

/-- The room's unlock grant names an event. -/
def eventUnlocked (c : Core) (r : Room) : Bool := ((context c r).grant.bind (·.event)).isSome

theorem endEventGrant_room {o : Output} {r : Room} (c : Core) (h : Output.room o = some r) :
    endEventGrant o c = if eventUnlocked c r = true then setContext r { context c r with grant := none } c else c := by
  unfold endEventGrant eventUnlocked
  rw [h]
  dsimp only
  cases (context c r).grant with
  | none => rfl
  | some g => rfl

theorem endEventGrant_record {o : Output} (c : Core) (h : Output.room o = none) : endEventGrant o c = c := by
  unfold endEventGrant
  rw [h]

/-- The blocks with the session's present event replaced and the change told. -/
def eventReplaced (o : Output) (lcn : Nat) (c : Core) : Core :=
  let now := presentEvent c lcn
  let event := now.map (·.event)
  setSession o { session c o with event := event }
    (post (.eventChanged o lcn (session c o).event event ((now.map (·.byMarker)).getD false)) c)

theorem testSession_same {c : Core} {o : Output} {lcn : Nat} (he : (session c o).evaluated = true) (hl : (session c o).lcn = some lcn)
    (h : (presentEvent c lcn).map (·.event) = (session c o).event) : testSession c o = c := by
  unfold testSession
  dsimp only
  rw [he, hl]
  exact if_pos h

theorem and_decide_iff (p q : Bool) (P Q : Prop) [Decidable P] [Decidable Q] :
    (decide P && p && decide Q && q) = true ↔ P ∧ p = true ∧ Q ∧ q = true := by
  simp [and_assoc]

theorem testSession_changed {c : Core} {o : Output} {lcn : Nat} (he : (session c o).evaluated = true)
    (hl : (session c o).lcn = some lcn) (h : (presentEvent c lcn).map (·.event) ≠ (session c o).event) :
    testSession c o =
      let renewed := reevaluate (endEventGrant o (eventReplaced o lcn c))
      if (session c o).state = .held ∧ (session c o).reasons.noGrant = true ∧ (session renewed o).state = .held ∧
          (session renewed o).reasons.noGrant = true then purchaseOffer o renewed
      else renewed := by
  unfold testSession
  dsimp only
  rw [he, hl]
  refine (if_neg h).trans ?_
  refine ite_congr ?_ (fun _ => rfl) fun _ => rfl
  exact propext (and_decide_iff _ _ _ _)

/-- Settles O36: the records by what a new one displaces or evicts, the bookings that follow it, the present event by the marker in
use or the clock, its test at each session, and the markers that a present/next segment sets. -/
theorem presentEventIsDecided : Obligations.PresentEventIsDecided := by
  unfold Obligations.PresentEventIsDecided
  refine ⟨?insert, ?follow, ?test, ?offer, ?entry, fun t x es c h => takePresentNext_carrier h, ?present⟩
  case insert =>
    intro n c l after displaced held named
    have hheld : held = (keptBeside n l).length := by
      refine congrArg List.length (List.filter_congr fun r _ => ?_)
      rw [Bool.eq_iff_iff, decide_eq_true_eq, Bool.not_eq_true', ← Bool.not_eq_true, displaces_iff]
      exact Iff.rfl
    have hinserted : ∀ l', insertRecord n c = recordInserted n (setRecords l' c) → after = l' := fun l' h => by
      show (insertRecord n c).guide.records = l'
      rw [h, recordInserted_records]
    have hafter : ∀ l', insertRecord n c = recordInserted n (setRecords l' c) →
        insertRecord n c = recordInserted n { c with guide := { c.guide with records := after } } := fun l' h => by
      rw [hinserted l' h]
      exact h
    refine ⟨?cases, fun h => ?fits, fun h r => ?mem, fun x h hx hn hone hmax => ⟨fun hl => ?late, fun hl r => ?evicts⟩⟩
    case cases => exact (insertRecord_cases n c).imp_right fun ⟨l', h⟩ => hafter l' h
    case fits => exact hafter _ (insertRecord_fits (hheld ▸ h))
    case mem => rw [hinserted _ (insertRecord_fits (hheld ▸ h)), mem_insertBy, mem_keptBeside]; exact Iff.rfl
    case late => exact insertRecord_late (hheld ▸ h) (evictionCandidate_eq hx hn hmax) hl
    case evicts =>
      rw [hinserted _ (insertRecord_evicts (hheld ▸ h) (evictionCandidate_eq hx hn hmax) hl), mem_insertBy, List.mem_filter,
        mem_keptBeside, and_assoc]
      refine or_congr_right (and_congr_right fun hr => and_congr_right fun _ => ?_)
      simp only [Bool.not_eq_true', Bool.and_eq_false_iff, beq_eq_false_iff_ne]
      constructor
      · rintro (hne | hne) rfl
        · exact hne rfl
        · exact hne rfl
      · intro hne
        by_contra hboth
        push Not at hboth
        exact hne (hone r hr hboth.1 hboth.2)
  case follow =>
    intro r c stop linked
    refine ⟨?inserted, fun b hb => ⟨fun hs hf => followRecord_stays hb hs hf, fun h => followRecord_moves hb h⟩⟩
    have hlinked : linkedTo r = linked := funext (linkedTo_eq r)
    rw [recordInserted, hlinked]
  case test =>
    intro o c x tested after
    have htested : tested ↔ x.evaluated = true := Session.evaluated_iff.symm
    refine ⟨rfl, fun h => testSession_untested (h.imp_left (mt htested.mpr)), ?evaluated⟩
    intro l ht hl now event told replaced ended renewed y
    have he : x.evaluated = true := htested.mp ht
    have hended : endEventGrant o (eventReplaced o l c) = ended := by
      cases o with
      | roomA => exact endEventGrant_room (r := .a) _ rfl
      | roomB => exact endEventGrant_room (r := .b) _ rfl
      | record1 => exact endEventGrant_record _ rfl
      | record2 => exact endEventGrant_record _ rfl
    refine ⟨fun h => testSession_same he hl h, fun h => (testSession_changed he hl h).trans ?_⟩
    rw [hended]
  case offer =>
    intro r source c formed
    exact ⟨fun h => if_pos (recordFits_iff.mpr h), fun h => if_neg (mt recordFits_iff.mp h)⟩
  case entry =>
    intro x e c after c1 c2
    refine ⟨takePresentEntry_elsewhere, fun h hn => ?_⟩
    obtain ⟨⟨_, _, _, records, honly⟩, -⟩ := entryOffered_spec e c
    cases hp : e.present with
    | none =>
      have hafter : after = _ := takePresentEntry_noPresent h hp hn
      refine ⟨?_, ?_, nofun, fun _ m => ?_⟩
      · rw [hafter]
        rfl
      · rw [hafter, honly]
        rfl
      · rw [hafter, honly]
        show m ∈ c.guide.markers.filter _ ↔ _
        simp
    | some r =>
      have hafter : after = _ := takePresentEntry_present h hp hn
      refine ⟨?_, ?_, ?_, nofun⟩
      · rw [hafter]
        rfl
      · rw [hafter, honly]
        rfl
      · rintro r' ⟨⟩ m
        rw [hafter, honly]
        show m ∈ _ :: c.guide.markers.filter _ ↔ _
        simp
  case present =>
    intro c lcn
    refine ⟨fun m hf hc => presentEvent_marked (usedMarker_eq_some_iff.mpr ⟨hf, hc⟩), fun hno => ?_⟩
    have hunused : usedMarker c lcn = none := usedMarker_eq_none_iff.mpr hno
    refine ⟨presentEvent_noTime hunused, fun now ht => ?_⟩
    have hrecorded := presentEvent_recorded hunused ht
    refine ⟨fun p hp => ?_, fun hp r hr hl => ?_⟩
    · rw [hrecorded] at hp
      obtain ⟨r, hr, rfl⟩ := Option.map_eq_some_iff.mp hp
      obtain ⟨hmem, hl, hspans⟩ := recordAt_some hr
      exact ⟨rfl, r, hmem, hl, rfl, hspans⟩
    · rw [hrecorded] at hp
      exact recordAt_none (Option.map_eq_none_iff.mp hp) hr hl

end Sys2Proof.Machine
end

section
/-! STANDBY and RESUME (R208 to R210). -/

namespace Sys2Proof.Machine

open Sys2Proof

/-- A part past its scan whose room A has a session of origin BOOKING, with two bookings of that id: the one that runs, and one that is
DUE. -/
def dueBehindRoom : State :=
  { bookedRoom with core := { bookedRoom.core with clock := { bookedRoom.core.clock with
      bookings := [runningBooking, { runningBooking with state := .due }] } } }

theorem exec_standby (tag : Byte) (a : Option Unit) (s : State) : exec (.standby tag a) s = execStandby tag a s := rfl

theorem handled_dueBehindRoom : Handled (.standby 1 (some ())) dueBehindRoom := ⟨by decide, by decide⟩

/-- The stop of room A puts the booking that runs back as MISSED in place of both bookings of its id. -/
theorem stopSession_dueBehindRoom :
    (stopSession .roomA dueBehindRoom.core).clock.bookings = [{ runningBooking with state := .missed }] := by decide

theorem standby_dueBehindRoom : (standby () dueBehindRoom.core).1 = .bare .ok ∧ (standby () dueBehindRoom.core).2.clock.wake = false := by
  decide

/-- Refutes O59: a stop on the way into STANDBY may take a DUE booking of the same id from the list, and WAKE is then not asserted for
the booking that was DUE. -/
theorem not_powerStateChanges : ¬ Obligations.PowerStateChanges := by
  unfold Obligations.PowerStateChanges
  intro h
  obtain ⟨hdown, -⟩ := h 1 dueBehindRoom
  obtain ⟨-, henter⟩ := hdown handled_dueBehindRoom
  obtain ⟨c, hreplies, -, -, -, -, -, hwake, -⟩ := henter rfl (by unfold noneExtended; decide)
  have hmodel : Replies (.standby 1 (some ())) 1 .ok .none (standby () dueBehindRoom.core).2 dueBehindRoom :=
    replies_of_answeredWith (exec_standby 1 (some ()) dueBehindRoom) handled_dueBehindRoom
      (Prod.ext standby_dueBehindRoom.1 rfl)
  have hnext : replied (.reply 1 .ok .none) c dueBehindRoom =
      replied (.reply 1 .ok .none) (standby () dueBehindRoom.core).2 dueBehindRoom :=
    Host.Outcome.next.inj (hreplies.symm.trans hmodel)
  have hsame : c = (standby () dueBehindRoom.core).2 := congrArg State.core hnext
  have hdue : ∃ b ∈ dueBehindRoom.core.clock.bookings, b.state = .due :=
    ⟨{ runningBooking with state := .due }, by decide, rfl⟩
  have hasserted : c.clock.wake = true := (hwake hdue).1
  rw [hsame, standby_dueBehindRoom.2] at hasserted
  cases hasserted

end Sys2Proof.Machine
end

section
/-! The booking list (R197 to R207). -/

namespace Sys2Proof.Machine

open Sys2Proof

/-! ## Judgement of one booking (R200, R202) -/

theorem runsOn_iff {c : Core} {b : Booking} {now : Nat} :
    runsOn c b now = true ↔ now < b.finish + 7200 ∧ ∃ e, b.link = some e ∧ presentEvent c b.lcn = some ⟨e, true⟩ := by
  unfold runsOn
  rw [Bool.and_eq_true, decide_eq_true_eq]
  refine and_congr_right fun _ => ?_
  cases hl : b.link with
  | none => exact ⟨nofun, fun ⟨_, h, _⟩ => nomatch h⟩
  | some e =>
    cases hp : presentEvent c b.lcn with
    | none => exact ⟨nofun, fun ⟨_, _, h⟩ => nomatch h⟩
    | some p =>
      obtain ⟨event, byMarker⟩ := p
      simp only [Bool.and_eq_true, beq_iff_eq, Option.some.injEq, PresentEvent.mk.injEq]
      exact ⟨fun ⟨hm, he⟩ => ⟨event, he.symm, rfl, hm⟩, fun ⟨_, he, he', hm⟩ => ⟨hm, he'.trans he.symm⟩⟩

section
variable {now : Nat} {b : Booking} {c : Core}

theorem judgeBooking_settled (hf : findBooking c b.id = some b) (hs : b.settled = true) :
    judgeBooking now c b.id = if b.finish + 86400 ≤ now then commitBooking b.id (dropFromList b.id c) else c := by
  unfold judgeBooking
  rw [hf]
  exact if_pos hs

theorem judgeBooking_recording (hf : findBooking c b.id = some b) (hk : b.kind = .recording) (hs : b.settled = false) :
    judgeBooking now c b.id = judgeRecording b now c := by
  unfold judgeBooking
  rw [hf]
  dsimp only
  rw [hk, hs]
  rfl

theorem judgeBooking_reminder (hf : findBooking c b.id = some b) (hk : b.kind = .reminder) (hs : b.settled = false) :
    judgeBooking now c b.id = judgeReminder b now c := by
  unfold judgeBooking
  rw [hf]
  dsimp only
  rw [hk, hs]
  rfl

theorem Booking.settled_iff : b.settled = true ↔ b.state = .done ∨ b.state = .missed ∨ b.state = .conflict := by
  unfold Booking.settled
  cases b.state with
  | waiting => simp
  | due => simp
  | active => simp
  | done => simp
  | missed => simp
  | conflict => simp

theorem Booking.settled_of_waiting (h : b.state = .waiting) : b.settled = false := by unfold Booking.settled; rw [h]
theorem Booking.settled_of_due (h : b.state = .due) : b.settled = false := by unfold Booking.settled; rw [h]
theorem Booking.settled_of_active (h : b.state = .active) : b.settled = false := by unfold Booking.settled; rw [h]

theorem judgeRecording_waiting (h : b.state = .waiting) : judgeRecording b now c =
    if b.finish ≤ now then missBooking b .time c
    else if b.start ≤ now + c.clock.wakeLead then
      if b.start ≤ now then
        startAction { b with state := .due }
          (assertWake (fun w => { w with booking := true }) (changeBooking { b with state := .due } none c))
      else assertWake (fun w => { w with booking := true }) (changeBooking { b with state := .due } none c)
    else c := by
  unfold judgeRecording
  rw [h]

theorem judgeRecording_due (h : b.state = .due) : judgeRecording b now c =
    if b.finish ≤ now then missBooking b .time c else if b.start ≤ now then startAction b c else c := by
  unfold judgeRecording
  rw [h]

theorem judgeRecording_running {o : Output} (h : b.state = .active) (ho : b.inUse = some o) : judgeRecording b now c =
    if b.extended || b.finish ≤ now then judgeEnd b now c else c := by
  unfold judgeRecording
  rw [h, ho]

theorem judgeRecording_lost (h : b.state = .active) (ho : b.inUse = none) : judgeRecording b now c =
    if b.finish ≤ now then missBooking b .reset c else startAction b c := by
  unfold judgeRecording
  rw [h, ho]

theorem judgeEnd_runs (h : runsOn c b now = true) :
    judgeEnd b now c = if b.extended then c else changeBooking { b with extended := true } none c := if_pos h

theorem judgeEnd_ends (h : ¬runsOn c b now = true) : judgeEnd b now c = endRecording stopSession b c := if_neg h

theorem endRecording_output {o : Output} (stop : Output → Core → Core) (h : b.inUse = some o) : endRecording stop b c =
    commitBooking b.id (post (.bookingState b.id b.kind b.lcn .done none false none)
      (stop o (setBooking { b with state := .done, inUse := none, extended := false } c))) := by
  unfold endRecording
  rw [h]
  rfl

theorem judgeReminder_waiting (h : b.state = .waiting) : judgeReminder b now c =
    if b.finish ≤ now then missBooking b .time c
    else if b.start ≤ now + b.lead * 60 then
      if b.start ≤ now then
        changeBooking { b with state := .done } none (assertWake (fun w => { w with booking := true })
          (commitBooking b.id (setBooking { b with state := .due } (post (.bookingDue b.id b.lcn b.link b.start) c))))
      else assertWake (fun w => { w with booking := true })
        (commitBooking b.id (setBooking { b with state := .due } (post (.bookingDue b.id b.lcn b.link b.start) c)))
    else c := by
  unfold judgeReminder
  rw [h]

theorem judgeReminder_due (h : b.state = .due) :
    judgeReminder b now c = if b.start ≤ now then changeBooking { b with state := .done } none c else c := by
  unfold judgeReminder
  rw [h]

end

/-! ## The start action (R201) -/

theorem isHosts_iff {c : Core} {o : Output} : isHosts c o = true ↔ (session c o).origin = .host := by
  unfold isHosts
  cases (session c o).origin with
  | host => simp [Origin.isBooking]
  | booking id => simp [Origin.isBooking]

theorem isIdle_iff {c : Core} {o : Output} : isIdle c o = true ↔ (session c o).state = .idle := beq_iff_eq

/-- The output a recording takes. -/
def Chosen (c : Core) (w : RecordOutput) (o : Output) : Prop :=
  (w = .record1 ∧ o = .record1 ∧ (session c o).origin = .host) ∨ (w = .record2 ∧ o = .record2 ∧ (session c o).origin = .host) ∨
    (w = .any ∧ ((o = .record1 ∧ (session c o).state = .idle) ∨
      (o = .record2 ∧ (session c o).state = .idle ∧ ¬(session c .record1).state = .idle) ∨
      (¬(session c .record1).state = .idle ∧ ¬(session c .record2).state = .idle ∧
        ((o = .record1 ∧ (session c o).origin = .host) ∨
          (o = .record2 ∧ (session c o).origin = .host ∧ ¬(session c .record1).origin = .host)))))

theorem find_pair_eq_some_iff {p : Output → Bool} {o : Output} : [Output.record1, .record2].find? p = some o ↔
    (o = .record1 ∧ p o = true) ∨ (o = .record2 ∧ p o = true ∧ ¬p .record1 = true) := by
  cases h1 : p .record1 with
  | true =>
    rw [List.find?_cons_of_pos h1, Option.some.injEq]
    constructor
    · rintro rfl
      exact .inl ⟨rfl, h1⟩
    · rintro (⟨rfl, -⟩ | ⟨-, -, h⟩)
      · rfl
      · exact absurd rfl h
  | false =>
    have hn : ¬p .record1 = true := by rw [h1]; nofun
    rw [List.find?_cons_of_neg hn]
    constructor
    · intro h
      have ho : o = .record2 := List.mem_singleton.mp (List.mem_of_find?_eq_some h)
      exact .inr ⟨ho, List.find?_some h, nofun⟩
    · rintro (⟨rfl, h⟩ | ⟨rfl, h, -⟩)
      · exact absurd h hn
      · exact List.find?_cons_of_pos h

theorem find_pair_eq_none_iff {p : Output → Bool} : [Output.record1, .record2].find? p = none ↔
    ¬p .record1 = true ∧ ¬p .record2 = true := by simp

theorem chooseOutput_eq_some_iff {c : Core} {w : RecordOutput} {o : Output} : chooseOutput c w = some o ↔ Chosen c w o := by
  have hone : ∀ x : Output, (if isHosts c x then some x else none) = some o ↔ o = x ∧ (session c o).origin = .host := fun x => by
    rw [Option.ite_none_right_eq_some, isHosts_iff, Option.some.injEq]
    exact ⟨fun ⟨h, e⟩ => ⟨e.symm, e ▸ h⟩, fun ⟨e, h⟩ => ⟨e ▸ h, e.symm⟩⟩
  cases w with
  | record1 => exact (hone .record1).trans (by simp [Chosen])
  | record2 => exact (hone .record2).trans (by simp [Chosen])
  | any =>
    have hany : Chosen c .any o ↔ (o = .record1 ∧ (session c o).state = .idle) ∨
        (o = .record2 ∧ (session c o).state = .idle ∧ ¬(session c .record1).state = .idle) ∨
        (¬(session c .record1).state = .idle ∧ ¬(session c .record2).state = .idle ∧
          ((o = .record1 ∧ (session c o).origin = .host) ∨
            (o = .record2 ∧ (session c o).origin = .host ∧ ¬(session c .record1).origin = .host))) := by simp [Chosen]
    have hidle : ∀ x, isIdle c x = true ↔ (session c x).state = .idle := fun _ => isIdle_iff
    have hhosts : ∀ x, isHosts c x = true ↔ (session c x).origin = .host := fun _ => isHosts_iff
    rw [hany]
    unfold chooseOutput
    dsimp only
    split
    · next x hx =>
      have hchosen := find_pair_eq_some_iff.mp hx
      simp only [hidle] at hchosen
      constructor
      · rintro ⟨⟩
        exact hchosen.imp_right .inl
      · rintro (h | h | ⟨h1, h2, -⟩)
        · exact hx.symm.trans (find_pair_eq_some_iff.mpr (.inl ⟨h.1, (hidle o).mpr h.2⟩))
        · exact hx.symm.trans (find_pair_eq_some_iff.mpr (.inr ⟨h.1, (hidle o).mpr h.2.1, mt (hidle _).mp h.2.2⟩))
        · obtain ⟨rfl, h⟩ | ⟨rfl, h, -⟩ := hchosen
          · exact absurd h h1
          · exact absurd h h2
    · next hx =>
      obtain ⟨h1, h2⟩ := find_pair_eq_none_iff.mp hx
      rw [hidle] at h1 h2
      rw [find_pair_eq_some_iff]
      simp only [hhosts]
      constructor
      · exact fun h => .inr (.inr ⟨h1, h2, h⟩)
      · rintro (⟨rfl, h⟩ | ⟨rfl, h, -⟩ | ⟨-, -, h⟩)
        · exact absurd h h1
        · exact absurd h h2
        · exact h

section
variable {b : Booking} {c : Core}

theorem startAction_conflict (h : ∀ o, ¬Chosen c b.output o) : startAction b c = changeBooking { b with state := .conflict } none c := by
  have hnone : chooseOutput c b.output = none :=
    Option.eq_none_iff_forall_ne_some.mpr fun o ho => h o (chooseOutput_eq_some_iff.mp ho)
  unfold startAction
  rw [hnone]

theorem startAction_noChannel {o : Output} (h : Chosen c b.output o) (hc : findChannel c b.lcn = none) :
    startAction b c = missBooking b .noSuch c := by
  unfold startAction
  rw [chooseOutput_eq_some_iff.mpr h]
  dsimp only
  rw [hc]

theorem startAction_begins {o : Output} {e : ChannelEntry} (h : Chosen c b.output o) (hc : findChannel c b.lcn = some e) :
    startAction b c = beginChange o b.lcn e .untagged (.booking b.id) (.booking b.takesRoom) (session c o).change.inFlight
      (changeBooking { b with state := .active, inUse := some o, extended := false } none (supersede o c)) := by
  unfold startAction
  rw [chooseOutput_eq_some_iff.mpr h]
  dsimp only
  rw [hc]

end

theorem bookingOutcome_active {id : Nat} {b : Booking} {c : Core} (outcome : ChangeOutcome) (hf : findBooking c id = some b)
    (hs : b.state = .active) : bookingOutcome id outcome c = match outcome with
      | .noTuner => missBooking b .noTuner c
      | .noSignal => missBooking b .noSignal c
      | .superseded | .stopped => missBooking b .stopped c
      | .presenting | .held | .noService => c := by
  unfold bookingOutcome
  rw [hf]
  exact if_pos hs

theorem bookingOutcome_other {id : Nat} {c : Core} (outcome : ChangeOutcome) (h : ∀ b, findBooking c id = some b → b.state ≠ .active) :
    bookingOutcome id outcome c = c := by
  unfold bookingOutcome
  split
  · rfl
  · next b hb => exact if_neg (h b hb)

end Sys2Proof.Machine
end

section
/-! ADD BOOKING by its times, and DROP BOOKING (R199, R206). -/

namespace Sys2Proof.Machine

open Sys2Proof

theorem exec_addBooking (tag : Byte) (a : Option AddBookingReq) (s : State) : exec (.addBooking tag a) s = execAddBooking tag a s := rfl
theorem exec_dropBooking (tag : Byte) (a : Option Nat) (s : State) : exec (.dropBooking tag a) s = execDropBooking tag a s := rfl

/-! ## The form of the request -/

/-- The fields of a recording, or of a reminder, are in range. -/
def BookingFormed (a : AddBookingReq) : Prop :=
  ((a.kind = 1 ∧ (a.output = 2 ∨ a.output = 3 ∨ a.output = 4)) ∨ (a.kind = 0 ∧ a.lead ≤ 30)) ∧ 1 ≤ a.lcn ∧ a.lcn ≤ 9999

/-- The booking asks for an event. -/
def ByEvent (a : AddBookingReq) (e : Nat) : Prop := a.event = some e ∧ a.start = none ∧ a.finish = none

/-- The booking asks for a span of time. -/
def ByTimes (a : AddBookingReq) (b e : Nat) : Prop := a.event = none ∧ a.start = some b ∧ a.finish = some e ∧ b < e

theorem whenOf_event {a : AddBookingReq} {e : Nat} (h : ByEvent a e) : whenOf a = some (.event e) := by
  obtain ⟨he, hs, hf⟩ := h
  unfold whenOf
  rw [he, hs, hf]

theorem whenOf_times {a : AddBookingReq} {b e : Nat} (h : ByTimes a b e) : whenOf a = some (.times b e) := by
  obtain ⟨he, hs, hf, hlt⟩ := h
  unfold whenOf
  rw [he, hs, hf]
  exact if_pos hlt

theorem whenOf_none {a : AddBookingReq} (he : ∀ e, ¬ByEvent a e) (ht : ∀ b e, ¬ByTimes a b e) : whenOf a = none := by
  unfold whenOf
  split
  · next e h1 h2 h3 => exact absurd ⟨h1, h2, h3⟩ (he e)
  · next b e h1 h2 h3 => exact if_neg fun hlt => ht b e ⟨h1, h2, h3, hlt⟩
  · rfl

/-- The output the request names for a recording. -/
def askedOutput (a : AddBookingReq) : RecordOutput :=
  if a.kind = 1 then (if a.output = 2 then .record1 else if a.output = 3 then .record2 else .any) else .any

theorem bookingForm_formed {a : AddBookingReq} {w : When} (h : BookingFormed a) (hw : whenOf a = some w) :
    bookingForm a = some (if a.kind = 1 then .recording else .reminder, askedOutput a, w) := by
  obtain ⟨hkind, h1, h2⟩ := h
  unfold bookingForm askedOutput
  obtain ⟨hk, ho⟩ | ⟨hk, hl⟩ := hkind
  · obtain ho | ho | ho := ho
    all_goals simp [hk, ho, hw, kindOf, recordOutputOf, lcnInRange_true h1 h2]
  · simp [hk, hl, hw, kindOf, lcnInRange_true h1 h2]

theorem bookingForm_misfit {a : AddBookingReq} (h : ¬BookingFormed a ∨ ((∀ e, ¬ByEvent a e) ∧ ∀ b e, ¬ByTimes a b e)) :
    bookingForm a = none := by
  obtain h | ⟨he, ht⟩ := h
  · unfold bookingForm
    split
    · next k w hk hw =>
      cases hr : lcnInRange a.lcn with
      | false => rfl
      | true =>
        have hkind : ¬((a.kind = 1 ∧ (a.output = 2 ∨ a.output = 3 ∨ a.output = 4)) ∨ (a.kind = 0 ∧ a.lead ≤ 30)) :=
          fun hkind => h ⟨hkind, lcnInRange_iff.mp hr⟩
        unfold kindOf at hk
        split at hk
        · next hz =>
          cases hk
          exact if_neg fun hl => hkind (.inr ⟨hz, hl⟩)
        · next hone =>
          cases hk
          have hout : recordOutputOf a.output = none := by
            unfold recordOutputOf
            split
            · next ho => exact absurd (.inl ⟨hone, .inl ho⟩) hkind
            · next ho => exact absurd (.inl ⟨hone, .inr (.inl ho)⟩) hkind
            · next ho => exact absurd (.inl ⟨hone, .inr (.inr ho)⟩) hkind
            · rfl
          exact congrArg (Option.map fun o => (BookingKind.recording, o, w)) hout
        · cases hk
    · rfl
  · unfold bookingForm
    rw [whenOf_none he ht]
    split
    · next h => cases h
    · rfl

/-! ## The CONFLICT test (R199) -/

/-- A recording stands at the instant. -/
def Stands (c : Core) (b : Booking) (t : Nat) : Prop :=
  b.kind = .recording ∧ (b.state = .waiting ∨ b.state = .due ∨ b.state = .active) ∧ b.start ≤ t ∧ t < spanEnd c b

/-- Two recordings stand at some instant of the span. -/
def StandTwice (c : Core) (start finish : Nat) : Prop :=
  ∃ t, start ≤ t ∧ t < finish ∧ ∃ x y, x ∈ c.clock.bookings ∧ y ∈ c.clock.bookings ∧ x.id ≠ y.id ∧ Stands c x t ∧ Stands c y t

theorem Booking.counts_iff {b : Booking} :
    b.counts = true ↔ b.kind = .recording ∧ (b.state = .waiting ∨ b.state = .due ∨ b.state = .active) := by
  unfold Booking.counts
  cases b.state with
  | waiting => simp
  | due => simp
  | active => simp
  | done => simp
  | missed => simp
  | conflict => simp

/-- The recordings that stand at the instant, as the model counts them. -/
def standing (c : Core) (t : Nat) : List Booking :=
  (c.clock.bookings.filter (·.counts)).filter fun b => b.start ≤ t && t < spanEnd c b

theorem mem_standing {c : Core} {t : Nat} {b : Booking} : b ∈ standing c t ↔ b ∈ c.clock.bookings ∧ Stands c b t := by
  unfold standing Stands
  rw [List.mem_filter, List.mem_filter, Booking.counts_iff, Bool.and_eq_true, decide_eq_true_eq, decide_eq_true_eq]
  tauto

theorem conflicts_iff {c : Core} {start finish : Nat} : conflicts c start finish = true ↔
    ∃ t, (t = start ∨ ∃ b ∈ c.clock.bookings, b.counts = true ∧ b.start = t) ∧ start ≤ t ∧ t < finish ∧ 2 ≤ (standing c t).length := by
  unfold conflicts standing
  simp only [List.any_eq_true, List.mem_filter, List.mem_cons, List.mem_map, Bool.and_eq_true, decide_eq_true_eq,
    List.countP_eq_length_filter, and_assoc]

theorem two_le_length_of_mem {α : Type} {x y : α} {l : List α} (hx : x ∈ l) (hy : y ∈ l) (hne : x ≠ y) : 2 ≤ l.length := by
  cases l with
  | nil => cases hx
  | cons a l =>
    cases l with
    | nil =>
      rw [List.mem_singleton] at hx hy
      exact absurd (hx.trans hy.symm) hne
    | cons b l => simp

/-- Two recordings that stand at one instant also stand at the latest of the span's start and their own. -/
theorem conflicts_of_standTwice {c : Core} {start finish : Nat} (h : StandTwice c start finish) : conflicts c start finish = true := by
  obtain ⟨t, hs, hf, x, y, hx, hy, hne, hxt, hyt⟩ := h
  obtain ⟨hxk, hxs, hx1, hx2⟩ := hxt
  obtain ⟨hyk, hys, hy1, hy2⟩ := hyt
  have hinstant : ∃ u, (u = start ∨ ∃ b ∈ c.clock.bookings, b.counts = true ∧ b.start = u) ∧
      start ≤ u ∧ x.start ≤ u ∧ y.start ≤ u ∧ u ≤ t := by
    by_cases h1 : x.start ≤ start ∧ y.start ≤ start
    · exact ⟨start, .inl rfl, le_rfl, h1.1, h1.2, hs⟩
    · by_cases h2 : y.start ≤ x.start
      · exact ⟨x.start, .inr ⟨x, hx, Booking.counts_iff.mpr ⟨hxk, hxs⟩, rfl⟩, by omega, le_rfl, h2, hx1⟩
      · exact ⟨y.start, .inr ⟨y, hy, Booking.counts_iff.mpr ⟨hyk, hys⟩, rfl⟩, by omega, by omega, le_rfl, hy1⟩
  obtain ⟨u, hu, hsu, hxu, hyu, hut⟩ := hinstant
  have hmx : x ∈ standing c u := mem_standing.mpr ⟨hx, hxk, hxs, hxu, hut.trans_lt hx2⟩
  have hmy : y ∈ standing c u := mem_standing.mpr ⟨hy, hyk, hys, hyu, hut.trans_lt hy2⟩
  exact conflicts_iff.mpr ⟨u, hu, hsu, hut.trans_lt hf, two_le_length_of_mem hmx hmy fun e => hne (congrArg Booking.id e)⟩

/-- Of bookings whose ids differ, two that are counted at an instant stand there under two ids. -/
theorem standTwice_of_conflicts {c : Core} {start finish : Nat} (hn : (c.clock.bookings.map (·.id)).Nodup)
    (h : conflicts c start finish = true) : StandTwice c start finish := by
  obtain ⟨t, -, hs, hf, htwo⟩ := conflicts_iff.mp h
  have hsub : ((standing c t).map (·.id)).Nodup :=
    hn.sublist ((List.filter_sublist.trans List.filter_sublist).map _)
  obtain ⟨x, y, l, hl⟩ : ∃ x y l, standing c t = x :: y :: l := by
    match hl : standing c t, htwo with
    | x :: y :: l, _ => exact ⟨x, y, l, rfl⟩
  rw [hl] at hsub
  obtain ⟨hx, hxt⟩ := mem_standing.mp (hl ▸ List.mem_cons_self : x ∈ standing c t)
  obtain ⟨hy, hyt⟩ := mem_standing.mp (hl ▸ List.mem_cons_of_mem x List.mem_cons_self : y ∈ standing c t)
  refine ⟨t, hs, hf, x, y, hx, hy, fun e => ?_, hxt, hyt⟩
  simp [e] at hsub

/-! ## The booking that joins the list (R197) -/

theorem nextId_first {k : Clock} (h : ∀ x ∈ k.bookings, x.id ≠ k.lastId % 255 + 1) : nextId k = k.lastId % 255 + 1 := by
  have hrange : List.range 255 = 0 :: (List.range 254).map Nat.succ := List.range_succ_eq_map
  have hfree : (!k.bookings.any (·.id == (k.lastId + 0) % 255 + 1)) = true := by
    rw [Bool.not_eq_true', List.any_eq_false]
    exact fun x hx => by simpa using h x hx
  unfold nextId
  rw [hrange, List.map_cons, List.find?_cons_of_pos (p := fun i => !k.bookings.any (·.id == i)) hfree]
  rfl

theorem find_insertBy {α : Type} {before : α → α → Bool} {p : α → Bool} {x : α} (hx : p x = true) :
    ∀ {l : List α}, (∀ y ∈ l, p y = false) → (insertBy before x l).find? p = some x
  | [], _ => List.find?_cons_of_pos hx
  | y :: l, h => by
    unfold insertBy
    split
    · exact List.find?_cons_of_pos hx
    · rw [List.find?_cons_of_neg (by rw [h y List.mem_cons_self]; nofun)]
      exact find_insertBy hx fun z hz => h z (List.mem_cons_of_mem y hz)

theorem findBooking_setBooking (b : Booking) (c : Core) : findBooking (setBooking b c) b.id = some b :=
  find_insertBy (p := fun x : Booking => x.id == b.id) (beq_self_eq_true b.id) fun y hy => by
    have hne := (List.mem_filter.mp hy).2
    simpa using hne

/-- A booking that is not yet to be DUE stays as it is. -/
theorem judgeBooking_waits {now : Nat} {b : Booking} {c : Core} (hf : findBooking c b.id = some b) (hs : b.state = .waiting)
    (hlt : b.start < b.finish) (h : now + (if b.kind = .recording then c.clock.wakeLead else b.lead * 60) < b.start) :
    judgeBooking now c b.id = c := by
  cases hk : b.kind with
  | recording =>
    rw [hk, if_pos rfl] at h
    rw [judgeBooking_recording hf hk (Booking.settled_of_waiting hs), judgeRecording_waiting hs, if_neg (by omega), if_neg (by omega)]
  | reminder =>
    rw [hk, if_neg nofun] at h
    rw [judgeBooking_reminder hf hk (Booking.settled_of_waiting hs), judgeReminder_waiting hs, if_neg (by omega), if_neg (by omega)]

theorem joinBooking_waits {b : Booking} {c : Core} (hs : b.state = .waiting) (hlt : b.start < b.finish)
    (h : ∀ now, c.clock.time = some now → now + (if b.kind = .recording then c.clock.wakeLead else b.lead * 60) < b.start) :
    joinBooking b c = setBooking b (setClock { c.clock with lastId := b.id } c) := by
  unfold joinBooking
  dsimp only
  split
  · next now ht => exact judgeBooking_waits (findBooking_setBooking b _) hs hlt (h now ht)
  · rfl

/-! ## The checks of ADD BOOKING -/

section
variable {a : AddBookingReq} {c : Core} {kind : BookingKind} {output : RecordOutput} {w : When}

theorem addBooking_misfit (h : bookingForm a = none) : addBooking a c = (.bare .badRequest, c) := by
  unfold addBooking
  rw [h]

theorem addBooking_noChannel (h : bookingForm a = some (kind, output, w)) (hc : findChannel c a.lcn = none) :
    addBooking a c = (.bare .noSuch, c) := by
  unfold addBooking
  rw [h]
  exact if_pos (by rw [hc]; rfl)

theorem addBooking_noRecord (h : bookingForm a = some (kind, output, w)) (hs : spanOf c a.lcn w = none) :
    addBooking a c = (.bare .noSuch, c) := by
  unfold addBooking
  rw [h]
  dsimp only
  rw [hs]
  split
  · rfl
  · rfl

/-- The booking that ADD BOOKING would let join the list. -/
def asked (a : AddBookingReq) (kind : BookingKind) (output : RecordOutput) (start finish : Nat) (link : Option Nat) (c : Core) : Booking :=
  { id := nextId c.clock, kind := kind, lcn := a.lcn, link := link, start := start, finish := finish,
    lead := if kind = .reminder then a.lead else 0, output := output, inUse := none,
    takesRoom := kind == .recording && a.takesRoom, extended := false, state := .waiting }

/-- The commit of a booking that joins the list. -/
def addCommit (b : Booking) (c : Core) : Answer × Core :=
  match offer (.single .booking b.id (.booking (some b))) c with
  | (.taken, c) => ({ code := .ok, body := .bookingId b.id }, joinBooking b (setClock (clearOwedBooking b.id c.clock) c))
  | (x, c) => (.bare x.code, c)

theorem addBooking_spanned {start finish : Nat} {link : Option Nat} (h : bookingForm a = some (kind, output, w))
    (hc : (findChannel c a.lcn).isSome = true) (hs : spanOf c a.lcn w = some (start, finish, link)) :
    addBooking a c =
      if c.clock.time.any fun now => finish ≤ now then (.bare .badRequest, c)
      else if c.clock.bookings.length ≥ 32 then (.bare .full, c)
      else if kind = .recording && conflicts c start finish then (.bare .conflict, c)
      else addCommit (asked a kind output start finish link c) c := by
  unfold addBooking
  rw [h]
  dsimp only
  rw [if_neg (by rw [Option.isNone_iff_eq_none]; intro hn; rw [hn] at hc; cases hc), hs]
  rfl

end

theorem addCommit_taken {b : Booking} {c c' : Core} (h : offer (.single .booking b.id (.booking (some b))) c = (.taken, c')) :
    addCommit b c = ({ code := .ok, body := .bookingId b.id }, joinBooking b (setClock (clearOwedBooking b.id c'.clock) c')) := by
  unfold addCommit
  rw [h]

theorem addCommit_refused {b : Booking} {c : Core} {x : OfferAnswer} (hx : x ≠ .taken)
    (h : (offer (.single .booking b.id (.booking (some b))) c).1 = x) : addCommit b c = (.bare x.code, c) := by
  unfold addCommit
  rw [offer_unchanged h hx]
  cases x with
  | taken => exact absurd rfl hx
  | queueFull => rfl
  | duringWipe => rfl
  | storeFull => rfl
  | storeFault => rfl

/-! ## DROP BOOKING (R206) -/

theorem dropBooking_outOfRange {n : Nat} (c : Core) (h : n < 1 ∨ 255 < n) : dropBooking n c = (.bare .badRequest, c) :=
  if_pos (by simpa using h)

theorem dropBooking_inRange {n : Nat} {c : Core} (h1 : 1 ≤ n) (h2 : n ≤ 255) : dropBooking n c =
    match findBooking c n with
    | none => (.bare .noSuch, c)
    | some b =>
      match offer (.single .booking n (.booking none)) c with
      | (.taken, c) => (.bare .ok, removeBooking b c)
      | (.storeFull, c) => (.bare .storeFull, setClock (clearOwedBooking n c.clock) c)
      | (.storeFault, c) => (.bare .storeFault, setClock (clearOwedBooking n c.clock) c)
      | (x, c) => (.bare x.code, c) := if_neg (by simp; omega)

/-- The commit of a booking's removal. -/
def dropCommit (b : Booking) (c : Core) : Answer × Core :=
  match offer (.single .booking b.id (.booking none)) c with
  | (.taken, c) => (.bare .ok, removeBooking b c)
  | (.storeFull, c) => (.bare .storeFull, setClock (clearOwedBooking b.id c.clock) c)
  | (.storeFault, c) => (.bare .storeFault, setClock (clearOwedBooking b.id c.clock) c)
  | (x, c) => (.bare x.code, c)

theorem dropBooking_found {b : Booking} {c : Core} (h1 : 1 ≤ b.id) (h2 : b.id ≤ 255) (hf : findBooking c b.id = some b) :
    dropBooking b.id c = dropCommit b c := by
  rw [dropBooking_inRange h1 h2, hf]
  rfl

theorem dropBooking_absent {n : Nat} {c : Core} (h1 : 1 ≤ n) (h2 : n ≤ 255) (hf : findBooking c n = none) :
    dropBooking n c = (.bare .noSuch, c) := by
  rw [dropBooking_inRange h1 h2, hf]

theorem dropCommit_taken {b : Booking} {c c' : Core} (h : offer (.single .booking b.id (.booking none)) c = (.taken, c')) :
    dropCommit b c = (.bare .ok, removeBooking b c') := by
  unfold dropCommit
  rw [h]

theorem dropCommit_busy {b : Booking} {c : Core} {x : OfferAnswer} (hx : x = .queueFull ∨ x = .duringWipe)
    (h : (offer (.single .booking b.id (.booking none)) c).1 = x) : dropCommit b c = (.bare .busy, c) := by
  unfold dropCommit
  rw [offer_unchanged h (by rintro rfl; simp at hx)]
  obtain rfl | rfl := hx
  · rfl
  · rfl

theorem dropCommit_storeRefused {b : Booking} {c : Core} {x : OfferAnswer} (hx : x = .storeFull ∨ x = .storeFault)
    (h : (offer (.single .booking b.id (.booking none)) c).1 = x) :
    dropCommit b c = (.bare x.code, setClock (clearOwedBooking b.id c.clock) c) := by
  unfold dropCommit
  rw [offer_unchanged h (by rintro rfl; simp at hx)]
  obtain rfl | rfl := hx
  · rfl
  · rfl

theorem owedTable_of_dropCommit {tag : Byte} {b : Booking} {s : State} (hh : Handled (.dropBooking tag (some b.id)) s)
    (hf : dropBooking b.id s.core = dropCommit b s.core) :
    OwedSettingTable (.dropBooking tag (some b.id)) tag ⟨⟨.booking, b.id⟩, [(⟨.booking, b.id⟩, .booking none)], false⟩
      (removeBooking b) (fun c => setClock (clearOwedBooking b.id c.clock) c) s.core s :=
  have answers : ∀ {code : Code} {c : Core}, dropCommit b s.core = (.bare code, c) →
      Replies (.dropBooking tag (some b.id)) tag code .none c s :=
    fun hd => replies_of_answeredWith (exec_dropBooking tag _ s) hh (hf.trans hd)
  { taken := fun _ h => answers (dropCommit_taken h)
    full := fun h => answers (dropCommit_busy (.inl rfl) h)
    wipe := fun h => answers (dropCommit_busy (.inr rfl) h)
    storeFull := fun h => answers (dropCommit_storeRefused (.inl rfl) h)
    fault := fun h => answers (dropCommit_storeRefused (.inr rfl) h) }

end Sys2Proof.Machine
end

section
/-! The booking list settles O58 (R197 to R207). -/

namespace Sys2Proof.Machine

open Sys2Proof

/-- A recording that is judged. -/
theorem recordingJudged {now : Nat} {b : Booking} {c : Core} (hf : findBooking c b.id = some b) (hk : b.kind = .recording) :
    (b.state = .waiting →
      (b.finish ≤ now → judgeBooking now c b.id = missBooking b .time c) ∧
      (now < b.finish → b.start ≤ now + c.clock.wakeLead → now < b.start → judgeBooking now c b.id =
        assertWake (fun w => { w with booking := true }) (changeBooking { b with state := .due } none c)) ∧
      (now < b.finish → b.start ≤ now → judgeBooking now c b.id = startAction { b with state := .due }
        (assertWake (fun w => { w with booking := true }) (changeBooking { b with state := .due } none c))) ∧
      (now < b.finish → now + c.clock.wakeLead < b.start → judgeBooking now c b.id = c)) ∧
    (b.state = .due →
      (b.finish ≤ now → judgeBooking now c b.id = missBooking b .time c) ∧
      (now < b.finish → b.start ≤ now → judgeBooking now c b.id = startAction b c) ∧
      (now < b.finish → now < b.start → judgeBooking now c b.id = c)) ∧
    (b.state = .active → b.inUse = none →
      (b.finish ≤ now → judgeBooking now c b.id = missBooking b .reset c) ∧
      (now < b.finish → judgeBooking now c b.id = startAction b c)) := by
  refine ⟨fun hs => ?waiting, fun hs => ?due, fun hs ho => ?lost⟩
  case waiting =>
    rw [judgeBooking_recording hf hk (Booking.settled_of_waiting hs), judgeRecording_waiting hs]
    refine ⟨fun h => if_pos h, fun h1 h2 h3 => ?_, fun h1 h2 => ?_, fun h1 h2 => ?_⟩
    · rw [if_neg (by omega), if_pos h2, if_neg (by omega)]
    · rw [if_neg (by omega), if_pos (by omega), if_pos h2]
    · rw [if_neg (by omega), if_neg (by omega)]
  case due =>
    rw [judgeBooking_recording hf hk (Booking.settled_of_due hs), judgeRecording_due hs]
    refine ⟨fun h => if_pos h, fun h1 h2 => ?_, fun h1 h2 => ?_⟩
    · rw [if_neg (by omega), if_pos h2]
    · rw [if_neg (by omega), if_neg (by omega)]
  case lost =>
    rw [judgeBooking_recording hf hk (Booking.settled_of_active hs), judgeRecording_lost hs ho]
    exact ⟨fun h => if_pos h, fun h => if_neg (by omega)⟩

/-- A recording that runs on an output runs on past its end, or ends. -/
theorem runningJudged {now : Nat} {b : Booking} {c : Core} {o : Output} (hf : findBooking c b.id = some b) (hk : b.kind = .recording)
    (hs : b.state = .active) (ho : b.inUse = some o) :
    (b.extended = false → now < b.finish → judgeBooking now c b.id = c) ∧
    (runsOn c b now = true → b.extended = false → b.finish ≤ now →
      judgeBooking now c b.id = changeBooking { b with extended := true } none c) ∧
    (runsOn c b now = true → b.extended = true → judgeBooking now c b.id = c) ∧
    (¬runsOn c b now = true → b.extended = true ∨ b.finish ≤ now → judgeBooking now c b.id = endRecording stopSession b c) := by
  rw [judgeBooking_recording hf hk (Booking.settled_of_active hs), judgeRecording_running hs ho]
  refine ⟨fun he hn => ?_, fun hr he hn => ?_, fun hr he => ?_, fun hr he => ?_⟩
  · rw [he, if_neg (by simpa using hn)]
  · rw [if_pos (by simp [hn]), judgeEnd_runs hr, he]
    rfl
  · rw [if_pos (by simp [he]), judgeEnd_runs hr, if_pos he]
  · rw [if_pos (by simpa using he), judgeEnd_ends hr]

/-- A reminder that is judged. -/
theorem reminderJudged {now : Nat} {b : Booking} {c : Core} (hf : findBooking c b.id = some b) (hk : b.kind = .reminder) :
    (b.state = .waiting →
      let woken := assertWake (fun w => { w with booking := true })
        (commitBooking b.id (setBooking { b with state := .due } (post (.bookingDue b.id b.lcn b.link b.start) c)))
      (b.finish ≤ now → judgeBooking now c b.id = missBooking b .time c) ∧
      (now < b.finish → now + b.lead * 60 < b.start → judgeBooking now c b.id = c) ∧
      (now < b.finish → b.start ≤ now + b.lead * 60 → (now < b.start → judgeBooking now c b.id = woken) ∧
        (b.start ≤ now → judgeBooking now c b.id = changeBooking { b with state := .done } none woken))) ∧
    (b.state = .due →
      (b.start ≤ now → judgeBooking now c b.id = changeBooking { b with state := .done } none c) ∧
      (now < b.start → judgeBooking now c b.id = c)) := by
  refine ⟨fun hs => ?waiting, fun hs => ?due⟩
  case waiting =>
    intro woken
    rw [judgeBooking_reminder hf hk (Booking.settled_of_waiting hs), judgeReminder_waiting hs]
    refine ⟨fun h => if_pos h, fun h1 h2 => ?_, fun h1 h2 => ⟨fun h3 => ?_, fun h3 => ?_⟩⟩
    · rw [if_neg (by omega), if_neg (by omega)]
    · rw [if_neg (by omega), if_pos h2, if_neg (by omega)]
    · rw [if_neg (by omega), if_pos h2, if_pos h3]
  case due =>
    rw [judgeBooking_reminder hf hk (Booking.settled_of_due hs), judgeReminder_due hs]
    exact ⟨fun h => if_pos h, fun h => if_neg (by omega)⟩

/-- The instant is not past the end the booking asks for. -/
theorem any_finish_iff {t : Option Nat} {e : Nat} :
    (t.any fun now => decide (e ≤ now)) = true ↔ ¬∀ now, t = some now → now < e := by
  cases t with
  | none => simp
  | some now => simp

/-- A booking by its times whose channel is mapped. -/
theorem addBooking_times {a : AddBookingReq} {c : Core} {b e : Nat} (hform : BookingFormed a) (ht : ByTimes a b e)
    (hc : (findChannel c a.lcn).isSome = true) : addBooking a c =
      if c.clock.time.any fun now => e ≤ now then (.bare .badRequest, c)
      else if c.clock.bookings.length ≥ 32 then (.bare .full, c)
      else if (if a.kind = 1 then BookingKind.recording else .reminder) = .recording && conflicts c b e then (.bare .conflict, c)
      else addCommit (asked a (if a.kind = 1 then .recording else .reminder) (askedOutput a) b e none c) c :=
  addBooking_spanned (bookingForm_formed hform (whenOf_times ht)) hc rfl

/-- The booking that a well-formed request by times lets join the list under the next id. -/
theorem asked_times {a : AddBookingReq} {c : Core} {b e n : Nat} (hform : BookingFormed a) (hn : n = c.clock.lastId % 255 + 1)
    (hfree : ∀ x ∈ c.clock.bookings, x.id ≠ n) :
    asked a (if a.kind = 1 then .recording else .reminder) (askedOutput a) b e none c =
      { id := n, kind := if a.kind = 1 then .recording else .reminder, lcn := a.lcn, link := none, start := b, finish := e
        lead := if a.kind = 1 then 0 else a.lead
        output := if a.kind = 1 then (if a.output = 2 then .record1 else if a.output = 3 then .record2 else .any) else .any
        inUse := none, takesRoom := if a.kind = 1 then a.takesRoom else false, extended := false, state := .waiting } := by
  have hid : nextId c.clock = n := by
    subst hn
    exact nextId_first hfree
  obtain ⟨⟨hk, -⟩ | ⟨hk, -⟩, -⟩ := hform
  · simp [asked, askedOutput, hid, hk]
  · simp [asked, askedOutput, hid, hk]

theorem booking_answers {c c' : Core} {x : Booking} (hs : x.state = .waiting) (hlt : x.start < x.finish)
    (hwaits : ∀ now, c.clock.time = some now → now + (if x.kind = .recording then c.clock.wakeLead else x.lead * 60) < x.start)
    (ho : offer (.single .booking x.id (.booking (some x))) c = (.taken, c')) :
    addCommit x c = (⟨.ok, .bookingId x.id⟩, { c' with clock := { c.clock with
      bookings := placeBooking x c.clock.bookings, lastId := x.id, owedBookings := c.clock.owedBookings.filter (· != x.id)
      owedBeforeDay := c.clock.owedBeforeDay.filter (· != x.id) } }) := by
  have hclock : c'.clock = c.clock := (offer_only ho).clock
  have hjoin := joinBooking_waits (c := setClock (clearOwedBooking x.id c.clock) c') hs hlt hwaits
  rw [addCommit_taken ho, hclock, hjoin]
  rfl

theorem findBooking_of_mem {b : Booking} {c : Core} (hn : (c.clock.bookings.map (·.id)).Nodup) (hb : b ∈ c.clock.bookings) :
    findBooking c b.id = some b := by
  cases hf : findBooking c b.id with
  | none =>
    have hno := List.find?_eq_none.mp hf b hb
    simp at hno
  | some x =>
    have hx : x.id = b.id := by simpa using List.find?_some hf
    exact congrArg some (List.inj_on_of_nodup_map hn (List.mem_of_find?_eq_some hf) hb hx)

/-- Settles O58: each judgement by the branch of the model it takes, the CONFLICT test by the latest start at the instant, and both
requests by what the queue answers. -/
theorem bookingListChanges : Obligations.BookingListChanges := by
  unfold Obligations.BookingListChanges
  refine ⟨?judged, ?starts, ?outcomes, ?inOrder, ?requests⟩
  case judged =>
    intro now b c hf k after put missed woken due recording reminder runs
    refine ⟨fun h => ?recWaiting, fun h => ?recDue, fun o h ho => ?recRuns, fun h ho => ?recLost, fun h => ?remWaiting,
      fun h => ?remDue, fun h => ?settled⟩
    case recWaiting => exact (recordingJudged hf h.1).1 h.2
    case recDue => exact (recordingJudged hf h.1).2.1 h.2
    case recRuns =>
      obtain ⟨hsoon, hon, hstays, hends⟩ := runningJudged (now := now) hf h.1 h.2 ho
      refine ⟨hsoon, fun hr => hon (runsOn_iff.mpr hr), fun hr => hstays (runsOn_iff.mpr hr), fun hr he => ?_⟩
      exact (hends (mt runsOn_iff.mp hr) he).trans (endRecording_output stopSession ho)
    case recLost => exact (recordingJudged hf h.1).2.2 h.2 ho
    case remWaiting => exact (reminderJudged hf h.1).1 h.2
    case remDue => exact (reminderJudged hf h.1).2 h.2
    case settled =>
      have hjudge := judgeBooking_settled (now := now) hf (Booking.settled_iff.mpr h)
      exact ⟨fun hn => hjudge.trans (if_neg (by omega)), fun hn => hjudge.trans (if_pos hn)⟩
  case starts =>
    intro b c put hosts idle chosen
    exact ⟨fun h => startAction_conflict h, fun o ho => ⟨fun hc => startAction_noChannel ho hc, fun e hc => startAction_begins ho hc⟩⟩
  case outcomes =>
    intro id c
    refine ⟨fun outcome b hf hs => ?_, fun outcome h => bookingOutcome_other outcome h⟩
    rw [bookingOutcome_active outcome hf hs]
    refine ⟨?_, ?_, ?_, ?_⟩
    · rintro rfl
      rfl
    · rintro rfl
      rfl
    · rintro (rfl | rfl)
      · rfl
      · rfl
    · rintro (rfl | rfl | rfl)
      · rfl
      · rfl
      · rfl
  case inOrder =>
    refine fun c => ⟨fun ht => ?_, fun now ht => ?_⟩
    · rw [judgeBookings, ht]
    · rw [judgeBookings, ht]
  case requests =>
    intro tag s c0 k
    refine ⟨fun a hh => ?add, fun n hh => ?drop⟩
    case add =>
      intro i answers recording reminder formed byEvent byTimes spans
      have reply : ∀ {code : Code} {body : ReplyBody} {c : Core}, addBooking a c0 = (⟨code, body⟩, c) → Replies i tag code body c s :=
        fun h => replies_of_answeredWith (exec_addBooking tag (some a) s) hh h
      refine ⟨fun h => reply (addBooking_misfit (bookingForm_misfit h)), fun hform hw hc => ?noChannel, fun e hform hw hr => ?noRecord,
        fun b e hform ht hc => ?byTimes⟩
      case noChannel =>
        obtain ⟨b, e, ht⟩ | ⟨e, he⟩ := hw
        · exact reply (addBooking_noChannel (bookingForm_formed hform (whenOf_times ht)) hc)
        · exact reply (addBooking_noChannel (bookingForm_formed hform (whenOf_event he)) hc)
      case noRecord =>
        refine reply (addBooking_noRecord (bookingForm_formed hform (whenOf_event hw)) ?_)
        exact congrArg (Option.map fun r : EventRecord => (r.start, r.finish, some e)) hr
      case byTimes =>
        intro future twice
        have hadd := addBooking_times hform ht hc
        have hany : future → ¬(k.time.any fun now => decide (e ≤ now)) = true := fun hf h => any_finish_iff.mp h hf
        refine ⟨fun hf => reply (hadd.trans (if_pos (any_finish_iff.mpr hf))), fun hf hl => reply ?full,
          fun hf hl hk htwice => reply ?conflict, fun n hf hl hk hnodup hn hfree hwaits => ?joins⟩
        case full => exact hadd.trans ((if_neg (hany hf)).trans (if_pos hl))
        case conflict =>
          refine hadd.trans ((if_neg (hany hf)).trans ((if_neg (Nat.not_le.mpr hl)).trans (if_pos ?_)))
          rw [if_pos hk.1, conflicts_of_standTwice htwice]
          rfl
        case joins =>
          intro x item
          have hclear : ¬((decide ((if a.kind = 1 then BookingKind.recording else .reminder) = .recording) && conflicts c0 b e) = true) := by
            intro hboth
            obtain ⟨hrec, hconflicts⟩ := (Bool.and_eq_true _ _).mp hboth
            obtain ⟨hzero, -⟩ | hnot := hk
            · simp [hzero] at hrec
            · exact hnot (standTwice_of_conflicts hnodup hconflicts)
          have hcommit : addBooking a c0 = addCommit x c0 := by
            rw [hadd, if_neg (hany hf), if_neg (Nat.not_le.mpr hl), if_neg hclear, asked_times hform hn hfree]
          have hlead : ∀ now, c0.clock.time = some now →
              now + (if x.kind = .recording then c0.clock.wakeLead else x.lead * 60) < x.start := fun now hnow => by
            have h := hwaits now hnow
            obtain ⟨⟨hone, -⟩ | ⟨hzero, -⟩, -⟩ := hform
            · simpa [x, hone] using h
            · simpa [x, hzero] using h
          have refused : ∀ {y : OfferAnswer}, y ≠ .taken → (offer item c0).1 = y → Replies i tag y.code .none c0 s := fun hy h =>
            reply (hcommit.trans (addCommit_refused (b := x) hy h))
          refine ⟨fun c htakes => reply (hcommit.trans (booking_answers rfl ht.2.2.2 hlead htakes)), fun h => ?busy,
            fun h => refused (by decide) h, fun h => refused (by decide) h⟩
          obtain h | h := h
          · exact refused (by decide) h
          · exact refused (by decide) h
    case drop =>
      intro i
      have reply : ∀ {code : Code} {c : Core}, dropBooking n c0 = (.bare code, c) → Replies i tag code .none c s :=
        fun h => replies_of_answeredWith (exec_dropBooking tag (some n) s) hh h
      refine ⟨fun h => reply (dropBooking_outOfRange c0 h), fun h1 h2 h => reply (dropBooking_absent h1 h2 ?absent),
        fun b h1 h2 hb hid hnodup => ?found⟩
      case absent => exact List.find?_eq_none.mpr fun b hb => by simpa using h b hb
      case found =>
        intro unowed
        subst hid
        exact owedTable_of_dropCommit hh (dropBooking_found h1 h2 (findBooking_of_mem hnodup hb))

end Sys2Proof.Machine
end

section
/-! What re-evaluation, tuning and the booking notices leave alone: values read off the blocks that they do not write. -/

namespace Sys2Proof.Machine

open Sys2Proof

/-- Values that no stop of a session changes: today, the wake state and the alarm, the sweep interval with the sweep timer's reload, the
records, the attention settings and the acquisition limit. -/
structure Base where
  today : Option Int
  wake : Bool
  causes : WakeCauses
  alarm : Option Nat
  interval : Nat
  reload : Nat
  records : List EventRecord
  mode : AttnMode
  gap : Nat
  powerKey : Byte
  acqLimit : Nat

/-- The same with the room contexts, which a stop changes by the end of an event grant alone. -/
structure Kept where
  base : Base
  contexts : Vector RoomContext 2

def kept (c : Core) : Kept :=
  ⟨⟨c.clock.today, c.clock.wake, c.clock.causes, c.clock.alarm, c.guide.interval, c.guide.sweep.timer.reload, c.guide.records,
    c.link.mode, c.link.gap, c.link.powerKey, c.arb.acqLimit⟩, c.rooms.contexts⟩

section
variable {c : Core}

@[simp] theorem kept_mk (dir : Directory) (arb : Arbiter) (slots : Vector Slot 16) (rooms : Rooms) (keys : Vector KeySlot 4)
    (access : Access) (guide : Guide) (limits : Limits) (purchase : Purchase) (uplink : Uplink) (store : Store) (clock : Clock)
    (link : Link) (free : Nat) : kept ⟨dir, arb, slots, rooms, keys, access, guide, limits, purchase, uplink, store, clock, link,
      free⟩ = ⟨⟨clock.today, clock.wake, clock.causes, clock.alarm, guide.interval, guide.sweep.timer.reload, guide.records,
        link.mode, link.gap, link.powerKey, arb.acqLimit⟩, rooms.contexts⟩ := rfl

@[simp] theorem kept_eta (c : Core) : (⟨⟨c.clock.today, c.clock.wake, c.clock.causes, c.clock.alarm, c.guide.interval,
    c.guide.sweep.timer.reload, c.guide.records, c.link.mode, c.link.gap, c.link.powerKey, c.arb.acqLimit⟩, c.rooms.contexts⟩ : Kept) =
      kept c := rfl

theorem foldl_kept {α : Type} {f : Core → α → Core} (hf : ∀ c x, kept (f c x) = kept c) (l : List α) (c : Core) :
    kept (l.foldl f c) = kept c := by
  induction l generalizing c with
  | nil => rfl
  | cons x xs ih => exact (ih _).trans (hf c x)

theorem ite_kept {P : Prop} [Decidable P] {d : Core} (h : kept d = kept c) : kept (if P then d else c) = kept c := by
  split
  · exact h
  · rfl

theorem offer_kept {it : Item} {a : OfferAnswer} {c' : Core} (h : offer it c = (a, c')) : kept c' = kept c := by
  rw [(offer_only h).eq_with]
  rfl

/-! ## The setters -/

@[simp] theorem setSession_kept {o : Output} {x : Session} : kept (setSession o x c) = kept c := rfl
@[simp] theorem setLaneMap_kept {t : Fin 4} {x : LaneMap} : kept (setLaneMap t x c) = kept c := rfl
@[simp] theorem setTuner_kept {t : Fin 4} {x : Tuner} : kept (setTuner t x c) = kept c := rfl
@[simp] theorem setSlot_kept {i : Fin 16} {x : Slot} : kept (setSlot i x c) = kept c := rfl
@[simp] theorem setKeySlot_kept {k : Fin 4} {x : KeySlot} : kept (setKeySlot k x c) = kept c := rfl
@[simp] theorem setBooking_kept {b : Booking} : kept (setBooking b c) = kept c := rfl
@[simp] theorem setDir_kept {x : Directory} : kept (setDir x c) = kept c := rfl
@[simp] theorem setLimits_kept {x : Limits} : kept (setLimits x c) = kept c := rfl
@[simp] theorem setUplinkState_kept {x : Uplink} : kept (setUplinkState x c) = kept c := rfl
@[simp] theorem setPurchase_kept {x : Purchase} : kept (setPurchase x c) = kept c := rfl

/-! ## The operations -/

theorem join_kept (l : Link) (n : Notice) :
    (l.join n).mode = l.mode ∧ (l.join n).gap = l.gap ∧ (l.join n).powerKey = l.powerKey := by
  unfold Link.join
  split
  · dsimp only
    split
    · exact ⟨rfl, rfl, rfl⟩
    · split
      · exact ⟨rfl, rfl, rfl⟩
      · exact ⟨rfl, rfl, rfl⟩
  · exact ⟨rfl, rfl, rfl⟩

@[simp] theorem post_kept {b : NoticeBody} : kept (post b c) = kept c := by
  obtain ⟨hmode, hgap, hkey⟩ := join_kept c.link (stamped c b)
  simp [post, hmode, hgap, hkey]

@[simp] theorem openFilter_kept {f : Filter} : kept (openFilter f c) = kept c := by
  unfold openFilter
  dsimp only
  repeat' split
  all_goals simp

@[simp] theorem closeWhere_kept {p : Slot → Bool} : kept (closeWhere p c) = kept c := by
  unfold closeWhere
  exact foldl_kept (fun c i => ite_kept setSlot_kept) _ _

@[simp] theorem closeTunerSlots_kept {t : Fin 4} : kept (closeTunerSlots t c) = kept c := by
  unfold closeTunerSlots
  exact (foldl_kept (fun c k => ite_kept setKeySlot_kept) _ _).trans closeWhere_kept

@[simp] theorem settleControl_kept : kept (settleControl c) = kept c := by
  unfold settleControl
  dsimp only
  repeat' split
  all_goals simp

@[simp] theorem discardAssembly_kept {t : Fin 4} : kept (discardAssembly t c) = kept c := by
  unfold discardAssembly
  exact foldl_kept (fun c i => ite_kept setSlot_kept) _ _

@[simp] theorem ensureKeyFilter_kept {k : Fin 4} {t : Fin 4} : kept (ensureKeyFilter k t c) = kept c := by
  unfold ensureKeyFilter
  dsimp only
  repeat' split
  all_goals simp

@[simp] theorem closeKeyFilter_kept {k : Fin 4} : kept (closeKeyFilter k c) = kept c := by
  unfold closeKeyFilter
  dsimp only
  split <;> simp

@[simp] theorem dropRef_kept {k : Fin 4} : kept (dropRef k c) = kept c := by
  unfold dropRef
  simp [apply_ite kept]

@[simp] theorem setSessionSlot_kept {o : Output} {k : Option (Fin 4)} : kept (setSessionSlot o k c) = kept c := by
  unfold setSessionSlot
  simp

@[simp] theorem unbindKey_kept {o : Output} : kept (unbindKey o c) = kept c := by
  unfold unbindKey
  split <;> simp

@[simp] theorem dropOld_kept {old : Option (Fin 4)} : kept (dropOld old c) = kept c := by
  unfold dropOld
  split <;> simp

@[simp] theorem bindKey_kept {o : Output} {x : Carrier} {lane : Nat} {t : Fin 4} : kept (bindKey o x lane t c) = kept c := by
  unfold bindKey
  dsimp only
  repeat' split
  all_goals simp
theorem oweBooking_kept (id : Nat) (k : Clock) : (oweBooking id k).today = k.today ∧ (oweBooking id k).wake = k.wake ∧
    (oweBooking id k).causes = k.causes ∧ (oweBooking id k).alarm = k.alarm := by
  unfold oweBooking
  split
  · exact ⟨rfl, rfl, rfl, rfl⟩
  · exact ⟨rfl, rfl, rfl, rfl⟩

@[simp] theorem commitBooking_kept {id : Nat} : kept (commitBooking id c) = kept c := by
  unfold commitBooking
  split
  · next c' h =>
    obtain ⟨htoday, hwake, hcauses, halarm⟩ := oweBooking_kept id c'.clock
    rw [← offer_kept h]
    simp [htoday, hwake, hcauses, halarm]
  · next c' h => exact offer_kept h
  · next c' _ _ h =>
    rw [← offer_kept h]
    simp [clearOwedBooking]

@[simp] theorem postBookingState_kept {b : Booking} {cause : Option MissedCause} : kept (postBookingState b cause c) = kept c := by
  unfold postBookingState
  simp

@[simp] theorem changeBooking_kept {b : Booking} {cause : Option MissedCause} : kept (changeBooking b cause c) = kept c := by
  unfold changeBooking
  simp

@[simp] theorem missBooking_kept {b : Booking} {cause : MissedCause} : kept (missBooking b cause c) = kept c := by
  unfold missBooking
  simp

@[simp] theorem bookingOutcome_kept {id : Nat} {outcome : ChangeOutcome} : kept (bookingOutcome id outcome c) = kept c := by
  unfold bookingOutcome
  split
  · rfl
  · split
    · split <;> simp
    · rfl

@[simp] theorem endChange_kept {o : Output} {old : Session} {outcome : ChangeOutcome} {reasons : Option Reasons} :
    kept (endChange o old outcome reasons c) = kept c := by
  unfold endChange
  split <;> simp

@[simp] theorem postSession_kept {o : Output} : kept (postSession o c) = kept c := by
  unfold postSession
  simp

@[simp] theorem purchaseOffer_kept {o : Output} : kept (purchaseOffer o c) = kept c := by
  unfold purchaseOffer
  dsimp only
  repeat' split
  all_goals simp

@[simp] theorem arrive_kept {o : Output} {old : Session} {s : Session} {entering : Bool} : kept (arrive o old s entering c) = kept c := by
  unfold arrive
  dsimp only
  repeat' split
  all_goals simp

@[simp] theorem bindService_kept {o : Output} {e : LaneEntry} : kept (bindService o e c) = kept c := by
  unfold bindService
  dsimp only
  repeat' split
  all_goals simp

@[simp] theorem enterChecking_kept {o : Output} {e : LaneEntry} : kept (enterChecking o e c) = kept c := by
  unfold enterChecking
  simp [apply_ite kept]

@[simp] theorem tryChecking_kept {o : Output} {old : Session} : kept (tryChecking o old c) = kept c := by
  unfold tryChecking
  dsimp only
  repeat' split
  all_goals simp

@[simp] theorem reopen_kept {o : Output} : kept (reopen o c) = kept c := by
  unfold reopen
  simp

@[simp] theorem reevalOne_kept {o : Output} : kept (reevalOne c o) = kept c := by
  unfold reevalOne
  dsimp only
  repeat' split
  all_goals simp
@[simp] theorem reevaluate_kept : kept (reevaluate c) = kept c := foldl_kept (fun _ _ => reevalOne_kept) _ _

@[simp] theorem signalLost_kept {o : Output} : kept (signalLost o c) = kept c := by
  unfold signalLost
  dsimp only
  repeat' split
  all_goals simp

@[simp] theorem signalRegained_kept {o : Output} : kept (signalRegained o c) = kept c := by
  unfold signalRegained
  dsimp only
  repeat' split
  all_goals simp

@[simp] theorem carry_kept {o : Output} {x : OutCell} : kept (carry o x c) = kept c := by
  unfold carry
  simp

@[simp] theorem sendCommand_kept {t : Fin 4} {x : Option Carrier} : kept (sendCommand t x c) = kept c := by
  unfold sendCommand
  simp

@[simp] theorem tune_kept {t : Fin 4} {x : Carrier} {holders : Holders} : kept (tune t x holders c) = kept c := by
  unfold tune
  simp

@[simp] theorem turnOff_kept {t : Fin 4} : kept (turnOff t c) = kept c := by
  unfold turnOff
  simp

@[simp] theorem setHolder_kept {t : Fin 4} {x : Claimant} {b : Bool} : kept (setHolder t x b c) = kept c := by
  unfold setHolder
  simp

@[simp] theorem startHold_kept : kept (startHold c) = kept c := by
  unfold startHold
  split <;> simp

@[simp] theorem stopHold_kept : kept (stopHold c) = kept c := by
  unfold stopHold
  simp

@[simp] theorem handStop_kept {origin : Origin} : kept (handStop origin c) = kept c := by
  unfold handStop
  split <;> simp

@[simp] theorem watchTest_kept : kept (watchTest c) = kept c := by
  unfold watchTest
  split
  · rfl
  · split
    · split <;> simp
    · rfl

end

end Sys2Proof.Machine
end

section
/-! What a stop leaves alone: every value of `Base`, and the room contexts while no event grant stands (R52, R118). -/

namespace Sys2Proof.Machine

open Sys2Proof

/-- No room holds an unlock grant for an event. -/
def Kept.eventless (k : Kept) : Prop := ∀ i g, (k.contexts.get i).grant = some g → g.event.isSome = false

/-- The values of `Base` stand, and with no event grant the room contexts as well. -/
structure Rested (c c' : Core) : Prop where
  base : (kept c').base = (kept c).base
  all : (kept c).eventless → kept c' = kept c

theorem Rested.of_kept {c c' : Core} (h : kept c' = kept c) : Rested c c' := ⟨congrArg Kept.base h, fun _ => h⟩

theorem Rested.refl (c : Core) : Rested c c := .of_kept rfl

theorem Rested.trans {a b c : Core} (h : Rested a b) (h' : Rested b c) : Rested a c where
  base := h'.base.trans h.base
  all he := by
    have hab := h.all he
    exact (h'.all (hab ▸ he)).trans hab

theorem Rested.foldl {α : Type} {f : Core → α → Core} (hf : ∀ c x, Rested c (f c x)) (l : List α) (c : Core) :
    Rested c (l.foldl f c) := by
  induction l generalizing c with
  | nil => exact .refl c
  | cons x xs ih => exact (hf c x).trans (ih _)

theorem Rested.ite {P : Prop} [Decidable P] {c a b : Core} (ha : Rested c a) (hb : Rested c b) : Rested c (if P then a else b) := by
  split
  · exact ha
  · exact hb

/-! ## The present event (R120) -/

theorem endEventGrant_rested (o : Output) (c : Core) : Rested c (endEventGrant o c) := by
  unfold endEventGrant
  split
  · exact .refl c
  · next r _ =>
    dsimp only
    split
    · next g hg =>
      split
      · next hev =>
        refine ⟨rfl, fun he => ?_⟩
        rw [he _ g hg] at hev
        cases hev
      · exact .refl c
    · exact .refl c

theorem testSession_rested (c : Core) (o : Output) : Rested c (testSession c o) := by
  unfold testSession
  dsimp only
  split
  · split
    · exact .refl c
    · next lcn _ _ =>
      have hpost : ∀ (b : NoticeBody) (x : Session), Rested c (setSession o x (post b c)) := fun _ _ => .of_kept (by simp)
      have hend : ∀ d, Rested c d → Rested c (reevaluate (endEventGrant o d)) := fun d hd =>
        (hd.trans (endEventGrant_rested o d)).trans (.of_kept reevaluate_kept)
      exact .ite ((hend _ (hpost _ _)).trans (.of_kept purchaseOffer_kept)) (hend _ (hpost _ _))
  · exact .refl c

theorem testPresent_rested (c : Core) : Rested c (testPresent c) := .foldl testSession_rested _ c

/-! ## Markers that go end the recordings that run on (R118, R202) -/

section
variable {stop : Output → Core → Core} (hstop : ∀ o c, Rested c (stop o c))
include hstop

theorem endRecording_rested (b : Booking) (c : Core) : Rested c (endRecording stop b c) := by
  unfold endRecording
  dsimp only
  have hset : ∀ x : Booking, Rested c (setBooking x c) := fun x => .of_kept setBooking_kept
  have hpost : ∀ (x : Booking) (d : Core), Rested d (commitBooking b.id (postBookingState x none d)) := fun x d => .of_kept (by simp)
  split
  · exact ((hset _).trans (hstop _ _)).trans (hpost _ _)
  · exact (hset _).trans (hpost _ _)

theorem judgeExtended_rested (c : Core) (id : Nat) : Rested c (judgeExtended stop c id) := by
  unfold judgeExtended
  split
  · exact .ite (endRecording_rested hstop _ c) (.refl c)
  · exact .refl c

theorem markerChanged_rested (lcn : Nat) (c : Core) : Rested c (markerChanged stop lcn c) := .foldl (judgeExtended_rested hstop) _ c

theorem removeMarkers_rested (p : Marker → Bool) (c : Core) : Rested c (removeMarkers stop p c) := by
  have hgone : Rested c { c with guide := { c.guide with markers := c.guide.markers.filter (fun m => !p m) } } := .of_kept rfl
  exact hgone.trans (.foldl (fun d lcn => markerChanged_rested hstop lcn d) _ _)

theorem carrierUnlocked_rested (x : Option Carrier) (c : Core) : Rested c (carrierUnlocked stop x c) := by
  unfold carrierUnlocked
  split
  · exact .refl c
  · exact (removeMarkers_rested hstop _ c).trans (testPresent_rested _)

/-! ## A tuner that is left (R27) -/

theorem handLeft_rested (t : Fin 4) (u : Tuner) (c : Core) : Rested c (handLeft stop t u c) := by
  unfold handLeft
  dsimp only
  have hclosed : Rested c (setLaneMap t .empty (settleControl (closeTunerSlots t c))) := .of_kept (by simp)
  have hunlocked := Rested.ite (P := (u.state = .locked || u.state = .lost) = true)
    (hclosed.trans (carrierUnlocked_rested hstop u.carrier _)) hclosed
  exact .ite (hunlocked.trans (.of_kept watchTest_kept)) hunlocked

theorem goOff_rested (t : Fin 4) (c : Core) : Rested c (goOff stop t c) :=
  (Rested.of_kept turnOff_kept).trans (handLeft_rested hstop t _ _)

theorem releaseFrom_rested (x : Claimant) (t : Fin 4) (c : Core) : Rested c (releaseFrom stop x t c) :=
  .ite (goOff_rested hstop t c) (.of_kept setHolder_kept)

theorem releaseWith_rested (x : Claimant) (c : Core) : Rested c (releaseWith stop x c) := by
  unfold releaseWith
  split
  · exact .refl c
  · exact releaseFrom_rested hstop x _ c

end

/-! ## Stops (R52) -/

theorem stopBody_rested {rel : Claimant → Core → Core} (hrel : ∀ x c, Rested c (rel x c)) (o : Output) (c : Core) :
    Rested c (stopBody rel o c) := by
  unfold stopBody
  dsimp only
  have hidle : Rested c (setSession o .idle (unbindKey o c)) := .of_kept (by simp)
  have hleft := hidle.trans (hrel (.out o) _)
  have hhand : ∀ {d : Core}, Rested c d → Rested c (handStop (session c o).origin d) := fun hd => hd.trans (.of_kept handStop_kept)
  exact hhand (.ite (hleft.trans (.of_kept post_kept)) (.ite (hleft.trans (.of_kept postSession_kept)) hleft))

theorem stopN_rested : ∀ (n : Nat) (o : Output) (c : Core), Rested c (stopN n o c)
  | 0, _, c => .refl c
  | n + 1, o, c => stopBody_rested (releaseWith_rested (stopN_rested n)) o c

theorem stopSession_rested (o : Output) (c : Core) : Rested c (stopSession o c) := stopN_rested 33 o c

theorem release_rested (x : Claimant) (c : Core) : Rested c (release x c) := releaseWith_rested stopSession_rested x c

end Sys2Proof.Machine
end

section
/-! Today: every operation but the rollover leaves it alone (R195). -/

namespace Sys2Proof.Machine

open Sys2Proof

/-- Today stands. -/
def SameDay (c c' : Core) : Prop := c'.clock.today = c.clock.today

theorem SameDay.of_rested {c c' : Core} (h : Rested c c') : SameDay c c' := congrArg Base.today h.base

theorem SameDay.of_kept {c c' : Core} (h : kept c' = kept c) : SameDay c c' := .of_rested (.of_kept h)

theorem SameDay.refl (c : Core) : SameDay c c := rfl

theorem SameDay.trans {a b c : Core} (h : SameDay a b) (h' : SameDay b c) : SameDay a c := Eq.trans h' h

theorem SameDay.of_guide (c : Core) (x : Guide) : SameDay c { c with guide := x } := rfl

theorem SameDay.foldl {α : Type} {f : Core → α → Core} (hf : ∀ c x, SameDay c (f c x)) (l : List α) (c : Core) :
    SameDay c (l.foldl f c) := by
  induction l generalizing c with
  | nil => exact .refl c
  | cons x xs ih => exact (hf c x).trans (ih _)

theorem SameDay.ite {P : Prop} [Decidable P] {c a b : Core} (ha : SameDay c a) (hb : SameDay c b) : SameDay c (if P then a else b) := by
  split
  · exact ha
  · exact hb

theorem SameDay.offer {it : Item} {a : OfferAnswer} {c c' : Core} (h : offer it c = (a, c')) : SameDay c c' := .of_kept (offer_kept h)

/-! ## Claims (R22 to R29) -/

theorem watchEnds_sameDay (c : Core) : SameDay c (watchEnds c) :=
  (SameDay.of_rested (release_rested .watch c)).trans (.of_kept stopHold_kept)

theorem endSweep_sameDay (c : Core) : SameDay c (endSweep c) := by
  unfold endSweep
  dsimp only
  have hclosed : SameDay c (closeSchedule c) := .of_kept closeWhere_kept
  exact (hclosed.trans (.of_guide _ _)).trans (.of_rested (release_rested .sweep _))

theorem holdTerminal_sameDay (o : Output) (r : Reasons) (outcome : ChangeOutcome) (reasons : Option Reasons) (c : Core) :
    SameDay c (holdTerminal o r outcome reasons c) := by
  unfold holdTerminal
  dsimp only
  have hheld : ∀ x, SameDay c (setSession o x (unbindKey o c)) := fun x => .of_kept (by simp)
  exact (SameDay.ite ((hheld _).trans (.of_kept endChange_kept)) ((hheld _).trans (.of_kept postSession_kept))).trans
    (.of_rested (release_rested _ _))

theorem tellTaken_sameDay (c : Core) (x : Claimant) : SameDay c (tellTaken c x) := by
  unfold tellTaken
  split
  · exact holdTerminal_sameDay _ _ _ _ c
  · exact endSweep_sameDay c
  · exact .of_kept startHold_kept

theorem leaveOld_sameDay (x : Claimant) (old : Option (Fin 4)) (t : Fin 4) (c : Core) : SameDay c (leaveOld x old t c) := by
  unfold leaveOld
  split
  · exact .refl c
  · exact .ite (.refl c) (.of_rested (releaseFrom_rested stopSession_rested x _ c))

theorem carryOut_sameDay (x : Claimant) (car : Carrier) (p : Plan) (c : Core) : SameDay c (carryOut x car p c) := by
  have htune : ∀ t, SameDay c (tune t car (Holders.none.put x true) c) := fun t => .of_kept tune_kept
  have hhand : ∀ t u d, SameDay d (handLeft stopSession t u d) := fun t u d => .of_rested (handLeft_rested stopSession_rested t u d)
  unfold carryOut
  dsimp only
  split
  · exact .refl c
  · exact .refl c
  · next t =>
    have hjoin := (SameDay.of_kept (setHolder_kept (c := c) (t := t) (x := x) (b := true))).trans (leaveOld_sameDay x (heldTuner c x) t _)
    exact .ite (hjoin.trans (watchEnds_sameDay _)) hjoin
  · exact (htune _).trans (leaveOld_sameDay _ _ _ _)
  · exact (htune _).trans (hhand _ _ _)
  · exact (((htune _).trans (.foldl tellTaken_sameDay _ _)).trans (hhand _ _ _)).trans (leaveOld_sameDay _ _ _ _)

/-! ## The start of a recording (R201) -/

theorem supersede_sameDay (o : Output) (c : Core) : SameDay c (supersede o c) := .ite (.of_kept (by simp)) (.refl c)

theorem changeRefused_sameDay (o : Output) (lcn : Nat) (tag : ChangeTag) (origin : Origin) (superseded : Bool) (c : Core) :
    SameDay c (changeRefused o lcn tag origin superseded c) := by
  have hidle : SameDay c (toIdle o c) :=
    (SameDay.of_kept (by simp : kept (setSession o .idle (unbindKey o c)) = kept c)).trans (.of_rested (release_rested _ _))
  exact (SameDay.ite hidle (.refl c)).trans (.of_kept endChange_kept)

theorem claimFor_sameDay {refusedBy : Core → Core} (hrefused : ∀ c, SameDay c (refusedBy c)) (o : Output) (lcn : Nat) (x : Carrier)
    (tag : ChangeTag) (origin : Origin) (m : ClaimMode) (c : Core) : SameDay c (claimFor o lcn x tag origin m refusedBy c) := by
  unfold claimFor
  dsimp only
  split
  · exact hrefused c
  · have hset : ∀ s, SameDay c (setSession o s c) := fun s => .of_kept setSession_kept
    have hcarried := fun s => (hset s).trans (carryOut_sameDay (.out o) x (planClaim c (.out o) x m) _)
    exact .ite ((hcarried _).trans (.of_kept tryChecking_kept)) (hcarried _)

theorem beginChange_sameDay (o : Output) (lcn : Nat) (e : ChannelEntry) (tag : ChangeTag) (origin : Origin) (m : ClaimMode)
    (superseded : Bool) (c : Core) : SameDay c (beginChange o lcn e tag origin m superseded c) := by
  unfold beginChange
  split
  · exact claimFor_sameDay (changeRefused_sameDay o lcn tag origin superseded) o lcn _ tag origin m c
  · have hset : ∀ s, SameDay c (setSession o s c) := fun s => .of_kept setSession_kept
    exact (hset _).trans (holdTerminal_sameDay _ _ _ _ _)

theorem startAction_sameDay (b : Booking) (c : Core) : SameDay c (startAction b c) := by
  unfold startAction
  split
  · exact .of_kept changeBooking_kept
  · split
    · exact .of_kept missBooking_kept
    · exact ((supersede_sameDay _ c).trans (.of_kept changeBooking_kept)).trans (beginChange_sameDay _ _ _ _ _ _ _ _)

/-! ## The judgements (R200 to R202, R211) -/

theorem assertWake_sameDay (f : WakeCauses → WakeCauses) (c : Core) : SameDay c (assertWake f c) := .ite rfl (.refl c)

theorem judgeEnd_sameDay (b : Booking) (now : Nat) (c : Core) : SameDay c (judgeEnd b now c) :=
  .ite (.ite (.refl c) (.of_kept changeBooking_kept)) (.of_rested (endRecording_rested stopSession_rested b c))

theorem judgeRecording_sameDay (b : Booking) (now : Nat) (c : Core) : SameDay c (judgeRecording b now c) := by
  have hmiss : ∀ cause, SameDay c (missBooking b cause c) := fun cause => .of_kept missBooking_kept
  have hdue := (SameDay.of_kept (changeBooking_kept (b := { b with state := .due }) (cause := none) (c := c))).trans
    (assertWake_sameDay (fun w => { w with booking := true }) _)
  unfold judgeRecording
  split
  · exact .ite (hmiss _) (.ite (.ite (hdue.trans (startAction_sameDay _ _)) hdue) (.refl c))
  · exact .ite (hmiss _) (.ite (startAction_sameDay b c) (.refl c))
  · split
    · exact .ite (judgeEnd_sameDay b now c) (.refl c)
    · exact .ite (hmiss _) (startAction_sameDay b c)
  · exact .refl c

theorem judgeReminder_sameDay (b : Booking) (now : Nat) (c : Core) : SameDay c (judgeReminder b now c) := by
  have hchange : ∀ (x : Booking) (d : Core), SameDay d (changeBooking x none d) := fun x d => .of_kept changeBooking_kept
  have hdue : ∀ (n : NoticeBody) (x : Booking), SameDay c
      (assertWake (fun w => { w with booking := true }) (commitBooking b.id (setBooking x (post n c)))) := fun n x =>
    (SameDay.of_kept (by simp : kept (commitBooking b.id (setBooking x (post n c))) = kept c)).trans (assertWake_sameDay _ _)
  unfold judgeReminder
  split
  · exact .ite (.of_kept missBooking_kept) (.ite (.ite ((hdue _ _).trans (hchange _ _)) (hdue _ _)) (.refl c))
  · exact .ite (hchange _ c) (.refl c)
  · exact .refl c

theorem judgeBooking_sameDay (now : Nat) (c : Core) (id : Nat) : SameDay c (judgeBooking now c id) := by
  have hdrop : SameDay c (commitBooking id (dropFromList id c)) :=
    (show SameDay c (dropFromList id c) from rfl).trans (.of_kept commitBooking_kept)
  unfold judgeBooking
  split
  · exact .refl c
  · refine .ite (.ite hdrop (.refl c)) ?_
    split
    · exact judgeRecording_sameDay _ now c
    · exact judgeReminder_sameDay _ now c

theorem judgeBookings_sameDay (c : Core) : SameDay c (judgeBookings c) := by
  unfold judgeBookings
  split
  · exact .refl c
  · exact .foldl (judgeBooking_sameDay _) _ c

theorem judgeAlarm_sameDay (c : Core) : SameDay c (judgeAlarm c) := by
  unfold judgeAlarm
  split
  · exact .ite (assertWake_sameDay _ _) (.refl c)
  · exact .refl c

/-! ## The blocks that a clock second reaches (R89, R109, R118, R138, R140) -/

theorem commitGroup_sameDay (credit : Bool) (c : Core) : SameDay c (commitGroup credit c) := by
  unfold commitGroup
  dsimp only
  split
  · next c' h => exact (SameDay.offer h : SameDay c c')
  · next c' h => exact (SameDay.offer h : SameDay c c')
  · next c' _ _ h => exact (SameDay.offer h : SameDay c c')

theorem commitLimit_sameDay (k : LimitCommit) (c : Core) : SameDay c (commitLimit' k c) := by
  unfold commitLimit' commitLimit
  split
  · next c' h => exact (SameDay.offer h : SameDay c c')
  · next c' h => exact (SameDay.offer h : SameDay c c')
  · next c' _ _ h => exact (SameDay.offer h : SameDay c c')

theorem grantsExpired_sameDay (cause : GrantsCause) {c d : Core} (h : SameDay c d) :
    SameDay c (commitGroup false (postGrants cause d)) :=
  (h.trans (.of_kept post_kept)).trans (commitGroup_sameDay _ _)

theorem expireEvents_sameDay (now : Nat) (c : Core) : SameDay c (expireEvents now c) := by
  have hset : ∀ l, SameDay c (setEvents l c) := fun _ => rfl
  exact .ite ((grantsExpired_sameDay .expiry (hset _)).trans (.of_kept reevaluate_kept)) (.refl c)

theorem expirePackages_sameDay (day : Int) (c : Core) : SameDay c (expirePackages day c) := by
  have hset : ∀ l, SameDay c (setPackages l c) := fun _ => rfl
  exact .ite (grantsExpired_sameDay .expiry (hset _)) (.refl c)

theorem dropUnusedMarkers_sameDay (c : Core) : SameDay c (dropUnusedMarkers c) :=
  .of_rested (removeMarkers_rested stopSession_rested _ c)

theorem minutePurge_sameDay (c : Core) : SameDay c (minutePurge c) := by
  unfold minutePurge
  split
  · exact .refl c
  · exact rfl

theorem limitMinute_sameDay (c : Core) : SameDay c (limitMinute c) := by
  unfold limitMinute
  split
  · exact .refl c
  · exact .ite (.of_kept reevaluate_kept) (.refl c)

theorem limitRollover_sameDay (c : Core) : SameDay c (limitRollover c) := by
  unfold limitRollover
  dsimp only
  have hset : ∀ x : Limits, SameDay c (setLimits x c) := fun x => .of_kept setLimits_kept
  exact ((hset _).trans (commitLimit_sameDay _ _)).trans (.of_kept reevaluate_kept)

theorem commitLastDay_sameDay (c : Core) : SameDay c (commitLastDay c) := by
  unfold commitLastDay
  split
  · exact rfl
  · split
    · next c' h => exact (SameDay.offer h : SameDay c c')
    · next c' h => exact (SameDay.offer h : SameDay c c')
    · next c' _ _ h => exact (SameDay.offer h : SameDay c c')

/-! ## The rollover (R195) -/

theorem guideRollover_sameDay (c : Core) : SameDay c (guideRollover c) := .of_guide c _

theorem rollover_sameDay (day : Int) (c : Core) : SameDay (setClock { c.clock with today := some day } c) (rollover day c) :=
  (((commitLastDay_sameDay _).trans (expirePackages_sameDay day _)).trans (guideRollover_sameDay _)).trans (limitRollover_sameDay _)

theorem rollover_today (day : Int) (c : Core) : (rollover day c).clock.today = some day := rollover_sameDay day c

theorem testRollover_today {c : Core} {d : Int} (hd : localDay c.clock = some d)
    (h : c.clock.today = none ∨ ∃ t, c.clock.today = some t ∧ t < d) : (testRollover c).clock.today = some d := by
  unfold testRollover
  rw [hd]
  obtain h | ⟨t, ht, hlt⟩ := h
  · rw [h]
    dsimp only
    exact rollover_today d c
  · rw [ht]
    dsimp only
    rw [if_pos hlt]
    exact rollover_today d c

theorem testRollover_stays {c : Core} {d t : Int} (hd : localDay c.clock = some d) (ht : c.clock.today = some t) (hle : d ≤ t) :
    testRollover c = c := by
  unfold testRollover
  rw [hd, ht]
  exact if_neg (not_lt.mpr hle)

theorem clockSecond_sameDay (now : Nat) (c : Core) : SameDay (testRollover c) (clockSecond now c) := by
  unfold clockSecond
  dsimp only
  have hunused := (expireEvents_sameDay now (testRollover c)).trans (dropUnusedMarkers_sameDay _)
  have hpresent := (SameDay.ite (P := now % 60 = 0) (hunused.trans (minutePurge_sameDay _)) hunused).trans
    (.of_rested (testPresent_rested _))
  have hminute := SameDay.ite (P := now % 60 = 0) (hpresent.trans (limitMinute_sameDay _)) hpresent
  exact (hminute.trans (judgeBookings_sameDay _)).trans (judgeAlarm_sameDay _)

end Sys2Proof.Machine
end

section
/-! A clock second, and a time segment (R192, R193, R196). -/

namespace Sys2Proof.Machine

open Sys2Proof

theorem exec_clockSecond (s : State) : exec .clockSecond s = execClockSecond s := rfl

/-! ## A time segment (R192) -/

/-- The blocks with the segment's offset, when it carries one. -/
def heard (offset : Option Int) (c : Core) : Core := setClock { c.clock with broadcast := offset.getD c.clock.broadcast } c

/-- The blocks with the time set. -/
def timeSet (t : Nat) (offset : Option Int) (d : Option Int) (c : Core) : Core := setTime t d (heard offset c)

theorem offsetInRange_iff {offset : Option Int} :
    (offset.any fun n => !offsetInRange n) = true ↔ ¬∀ n, offset = some n → -720 ≤ n ∧ n ≤ 840 := by
  cases offset with
  | none => simp
  | some n =>
    simp only [offsetInRange, Option.any_some, Bool.not_eq_true', Bool.and_eq_false_iff, decide_eq_false_iff_not, Option.some.injEq,
      forall_eq']
    omega

section
variable {t : Nat} {offset : Option Int} {c : Core}

theorem takeTime_misfit (h : ¬∀ n, offset = some n → -720 ≤ n ∧ n ≤ 840) : takeTime t offset c = c := if_pos (offsetInRange_iff.mpr h)

theorem takeTime_heard (h : ∀ n, offset = some n → -720 ≤ n ∧ n ≤ 840) : takeTime t offset c =
    match (heard offset c).clock.time with
    | none => clockMoved (post (.clockSet t none (offsetInForce (heard offset c).clock))
        { timeSet t offset (Config.firstCorrection c.free) c with free := c.free + 1 })
    | some now =>
      let d := (t : Int) - (now : Int)
      if d.natAbs ≤ 1 then
        if offsetInForce (heard offset c).clock = offsetInForce c.clock then heard offset c else offsetChanged (heard offset c)
      else if d.natAbs ≤ 60 then clockMoved (timeSet t offset (some d) c)
      else clockMoved (post (.clockSet t (some d) (offsetInForce (heard offset c).clock)) (timeSet t offset (some d) c)) :=
  if_neg (not_not_intro h ∘ offsetInRange_iff.mp)

theorem takeTime_sets (h : ∀ n, offset = some n → -720 ≤ n ∧ n ≤ 840) (ht : c.clock.time = none) : takeTime t offset c =
    clockMoved (post (.clockSet t none (offsetInForce (heard offset c).clock))
      { timeSet t offset (Config.firstCorrection c.free) c with free := c.free + 1 }) := by
  rw [takeTime_heard h, show (heard offset c).clock.time = none from ht]

variable {now : Nat} {d : Int}

theorem takeTime_at (h : ∀ n, offset = some n → -720 ≤ n ∧ n ≤ 840) (ht : c.clock.time = some now)
    (hd : d = (t : Int) - (now : Int)) : takeTime t offset c =
      if d.natAbs ≤ 1 then
        if offsetInForce (heard offset c).clock = offsetInForce c.clock then heard offset c else offsetChanged (heard offset c)
      else if d.natAbs ≤ 60 then clockMoved (timeSet t offset (some d) c)
      else clockMoved (post (.clockSet t (some d) (offsetInForce (heard offset c).clock)) (timeSet t offset (some d) c)) := by
  subst hd
  rw [takeTime_heard h, show (heard offset c).clock.time = some now from ht]

theorem takeTime_corrects (h : ∀ n, offset = some n → -720 ≤ n ∧ n ≤ 840) (ht : c.clock.time = some now)
    (hd : d = (t : Int) - (now : Int)) (h1 : d < -1 ∨ 1 < d) (h2 : -60 ≤ d ∧ d ≤ 60) :
    takeTime t offset c = clockMoved (timeSet t offset (some d) c) := by
  rw [takeTime_at h ht hd, if_neg (by omega), if_pos (by omega)]

theorem takeTime_jumps (h : ∀ n, offset = some n → -720 ≤ n ∧ n ≤ 840) (ht : c.clock.time = some now)
    (hd : d = (t : Int) - (now : Int)) (h2 : d < -60 ∨ 60 < d) : takeTime t offset c =
      clockMoved (post (.clockSet t (some d) (offsetInForce (heard offset c).clock)) (timeSet t offset (some d) c)) := by
  rw [takeTime_at h ht hd, if_neg (by omega), if_neg (by omega)]

theorem offsetChanged_set {c : Core} {now : Nat} (h : c.clock.time = some now) :
    offsetChanged c = limitClockChanged (testRollover c) := by
  unfold offsetChanged
  rw [h]

theorem clockMoved_time (c : Core) : (clockMoved c).clock.time = c.clock.time := (clockMoved_timed (.refl c)).time

end

/-! ## A reference second (R196) -/

theorem mapFour_get {α : Type} (f : α → α) (v : Vector α 4) (i : Fin 4) : (mapFour f v).get i = f (v.get i) := by
  fin_cases i
  · rfl
  · rfl
  · rfl
  · rfl

theorem secondPassed_unset {c : Core} (h : c.clock.time = none) : secondPassed c = referenceSecond c := by
  unfold secondPassed
  dsimp only
  rw [show (referenceSecond c).clock.time = none from h]

/-- The blocks with network time a second on. -/
def ticked (t : Nat) (c : Core) : Core := setClock { (referenceSecond c).clock with time := some (t + 1) } (referenceSecond c)

theorem secondPassed_set {c : Core} {t : Nat} (h : c.clock.time = some t) : secondPassed c = clockSecond (t + 1) (ticked t c) := by
  unfold secondPassed
  dsimp only
  rw [show (referenceSecond c).clock.time = some t from h]
  rfl

theorem clockSecond_minute {now : Nat} (c : Core) (h : now % 60 = 0) : clockSecond now c =
    judgeAlarm (judgeBookings (limitMinute (testPresent (minutePurge (dropUnusedMarkers (expireEvents now (testRollover c))))))) := by
  unfold clockSecond
  dsimp only
  rw [if_pos h, if_pos h]

theorem clockSecond_within {now : Nat} (c : Core) (h : now % 60 ≠ 0) : clockSecond now c =
    judgeAlarm (judgeBookings (testPresent (dropUnusedMarkers (expireEvents now (testRollover c))))) := by
  unfold clockSecond
  dsimp only
  rw [if_neg h, if_neg h]

theorem clockSecond_rolls {now : Nat} {c : Core} {d : Int} (hd : localDay c.clock = some d)
    (h : c.clock.today = none ∨ ∃ x, c.clock.today = some x ∧ x < d) : (clockSecond now c).clock.today = some d :=
  Eq.trans (clockSecond_sameDay now c) (testRollover_today hd h)

theorem clockSecond_stays {now : Nat} {c : Core} {d x : Int} (hd : localDay c.clock = some d) (hx : c.clock.today = some x)
    (hle : d ≤ x) : (clockSecond now c).clock.today = some x := by
  have hsame : SameDay (testRollover c) (clockSecond now c) := clockSecond_sameDay now c
  rw [testRollover_stays hd hx hle] at hsame
  exact Eq.trans hsame hx

/-- Settles O60: the equations of the model's second and segment, with time, its offset and the power state kept by every later operation, and
today kept by all but the rollover. -/
theorem clockSecondPasses : Obligations.ClockSecondPasses := by
  unfold Obligations.ClockSecondPasses
  refine ⟨?segment, ?second⟩
  case segment =>
    intro t offset c k said force put judged inRange after
    refine ⟨fun h => takeTime_misfit h, fun h ht => ⟨?_, Config.firstCorrection c.free, takeTime_sets h ht⟩,
      fun now d h ht hd => ⟨fun h1 h2 => ⟨fun hf => ?_, fun hf => ?_⟩, fun hd1 => ?_, fun h1 h2 h3 => ?_, fun h2 => ?_⟩⟩
    · exact (congrArg (fun c : Core => c.clock.time) (takeTime_sets h ht)).trans (clockMoved_time _)
    · refine (takeTime_at h ht hd).trans ?_
      rw [if_pos (by omega)]
      exact if_pos hf
    · refine (takeTime_at h ht hd).trans ?_
      rw [if_pos (by omega)]
      exact (if_neg hf).trans (offsetChanged_set ht)
    · by_cases h2 : -60 ≤ d ∧ d ≤ 60
      · exact (congrArg (fun c : Core => c.clock.time) (takeTime_corrects h ht hd hd1 h2)).trans (clockMoved_time _)
      · exact (congrArg (fun c : Core => c.clock.time) (takeTime_jumps h ht hd (by omega))).trans (clockMoved_time _)
    · exact takeTime_corrects h ht hd h3 ⟨h1, h2⟩
    · exact takeTime_jumps h ht hd h2
  case second =>
    intro s c0 k less day u judged expired
    refine ⟨referenceSecond c0, secondPassed c0, rfl, fun t => mapFour_get Tuner.second _ _, fun o => mapFour_get Session.second _ _,
      fun n => mapFour_get KeySlot.second _ _, rfl, secondPassed_unset, fun t ht => ?passes, ?rest⟩
    case passes =>
      rw [secondPassed_set ht]
      exact ⟨clockSecond_within _, clockSecond_minute _⟩
    case rest =>
      cases ht : k.time with
      | none =>
        rw [secondPassed_unset ht]
        exact ⟨rfl, rfl, rfl, rfl, nofun⟩
      | some t =>
        have htimed := clockSecond_timed (now := t + 1) (.refl (ticked t c0))
        have hseconds := (clockSecond_steady (now := t + 1) (.refl (ticked t c0))).seconds
        rw [secondPassed_set ht]
        refine ⟨hseconds, htimed.zone, htimed.broadcast, htimed.power, fun t' ht' => ?_⟩
        cases ht'
        have hday : localDay (ticked t c0).clock = some (day (t + 1)) := rfl
        have htoday : (ticked t c0).clock.today = k.today := rfl
        refine ⟨htimed.time, fun h => ?_, fun d hd hle => ?_⟩
        · rw [← htoday] at h
          exact clockSecond_rolls hday h
        · rw [← htoday] at hd
          exact clockSecond_stays hday hd hle

end Sys2Proof.Machine
end

section
/-! A stop keeps no bulletin: slots are closed and opened, none is given a handed buffer (R93). -/

namespace Sys2Proof.Machine

open Sys2Proof

/-- With no bulletin kept before, none is kept after. -/
def Quiet (c c' : Core) : Prop := noneKept c → noneKept c'

theorem Quiet.refl (c : Core) : Quiet c c := id

theorem Quiet.trans {a b c : Core} (h : Quiet a b) (h' : Quiet b c) : Quiet a c := h' ∘ h

theorem Quiet.of_slots {c c' : Core} (h : c'.slots = c.slots) : Quiet c c' := fun hn i => by
  rw [slot_of_slots h i]
  exact hn i

theorem Quiet.foldl {α : Type} {f : Core → α → Core} (hf : ∀ c x, Quiet c (f c x)) (l : List α) (c : Core) : Quiet c (l.foldl f c) := by
  induction l generalizing c with
  | nil => exact .refl c
  | cons x xs ih => exact (hf c x).trans (ih _)

theorem Quiet.ite {P : Prop} [Decidable P] {c a b : Core} (ha : Quiet c a) (hb : Quiet c b) : Quiet c (if P then a else b) := by
  split
  · exact ha
  · exact hb

theorem setSlot_quiet {i : Fin 16} {x : Slot} (hx : x.hasHanded = false) (c : Core) : Quiet c (setSlot i x c) := fun hn j => by
  by_cases hj : j = i
  · subst hj
    rw [slot_setSlot]
    exact .inr hx
  · rw [slot_setSlot_ne _ _ (Ne.symm hj)]
    exact hn j

/-! ## Filters that close and open (R30, R67) -/

theorem closeWhere_quiet (p : Slot → Bool) (c : Core) : Quiet c (closeWhere p c) := by
  unfold closeWhere
  exact .foldl (fun d i => .ite (setSlot_quiet rfl d) (.refl d)) _ c

theorem closeTunerSlots_quiet (t : Fin 4) (c : Core) : Quiet c (closeTunerSlots t c) := by
  unfold closeTunerSlots
  exact (closeWhere_quiet _ c).trans (.foldl (fun d k => .ite (.of_slots (setKeySlot_slots d _ k)) (.refl d)) _ _)

theorem openFilter_quiet (f : Filter) (c : Core) : Quiet c (openFilter f c) := by
  unfold openFilter
  split
  · exact .refl c
  · split
    · exact setSlot_quiet rfl c
    · exact .refl c

theorem settleControl_quiet (c : Core) : Quiet c (settleControl c) := by
  unfold settleControl
  dsimp only
  refine .ite (.refl c) ?_
  split
  · exact closeWhere_quiet _ c
  · exact (((closeWhere_quiet _ c).trans (openFilter_quiet _ _)).trans (openFilter_quiet _ _)).trans (openFilter_quiet _ _)

theorem closeKeyFilter_quiet (k : Fin 4) (c : Core) : Quiet c (closeKeyFilter k c) := by
  unfold closeKeyFilter
  dsimp only
  split
  · exact (closeWhere_quiet _ c).trans (.of_slots (setKeySlot_slots _ _ k))
  · exact .refl c

theorem dropRef_quiet (k : Fin 4) (c : Core) : Quiet c (dropRef k c) :=
  .ite ((closeKeyFilter_quiet k c).trans (.of_slots (setKeySlot_slots _ _ k))) (.of_slots (setKeySlot_slots _ _ k))

theorem unbindKey_quiet (o : Output) (c : Core) : Quiet c (unbindKey o c) := by
  unfold unbindKey
  split
  · exact .refl c
  · exact (dropRef_quiet _ c).trans (.of_slots (setSession_slots _ _ o))

/-! ## Operations that touch no slot -/

theorem bookingOutcome_slots (id : Nat) (outcome : ChangeOutcome) (c : Core) : (bookingOutcome id outcome c).slots = c.slots :=
  (bookingOutcome_sessions (.refl c)).slots

theorem handStop_slots (origin : Origin) (c : Core) : (handStop origin c).slots = c.slots := by
  unfold handStop
  split
  · rfl
  · exact bookingOutcome_slots _ _ c

theorem purchaseOffer_slots (o : Output) (c : Core) : (purchaseOffer o c).slots = c.slots := (purchaseOffer_sessions (.refl c)).slots

theorem endEventGrant_slots (o : Output) (c : Core) : (endEventGrant o c).slots = c.slots := by
  unfold endEventGrant
  split
  · rfl
  · dsimp only
    split
    · split
      · rfl
      · rfl
    · rfl

theorem testSession_slots (c : Core) (o : Output) : (testSession c o).slots = c.slots := by
  have hrenewed : ∀ d : Core, d.slots = c.slots → (reevaluate (endEventGrant o d)).slots = c.slots := fun d hd => by
    rw [reevaluate_slots, endEventGrant_slots, hd]
  unfold testSession
  dsimp only
  split
  · split
    · rfl
    · split
      · rw [purchaseOffer_slots]
        exact hrenewed _ rfl
      · exact hrenewed _ rfl
  · rfl

theorem testPresent_quiet (c : Core) : Quiet c (testPresent c) := .foldl (fun d o => .of_slots (testSession_slots d o)) _ c

theorem watchTest_slots (c : Core) : (watchTest c).slots = c.slots := by
  unfold watchTest
  split
  · rfl
  · split
    · split
      · rfl
      · rfl
      · unfold startHold
        split
        · rfl
        · rfl
    · rfl

theorem commitBooking_slots (id : Nat) (c : Core) : (commitBooking id c).slots = c.slots := (commitBooking_sessions (.refl c)).slots

/-! ## Stops (R52) -/

section
variable {stop : Output → Core → Core} (hstop : ∀ o c, Quiet c (stop o c))
include hstop

theorem endRecording_quiet (b : Booking) (c : Core) : Quiet c (endRecording stop b c) := by
  have hset : ∀ x : Booking, Quiet c (setBooking x c) := fun x => .of_slots (setBooking_slots c x)
  have hposted : ∀ (x : Booking) (d : Core), Quiet d (commitBooking b.id (postBookingState x none d)) := fun x d =>
    .of_slots (commitBooking_slots _ _)
  unfold endRecording
  dsimp only
  split
  · exact ((hset _).trans (hstop _ _)).trans (hposted _ _)
  · exact (hset _).trans (hposted _ _)

theorem judgeExtended_quiet (c : Core) (id : Nat) : Quiet c (judgeExtended stop c id) := by
  unfold judgeExtended
  split
  · exact .ite (endRecording_quiet hstop _ c) (.refl c)
  · exact .refl c

theorem removeMarkers_quiet (p : Marker → Bool) (c : Core) : Quiet c (removeMarkers stop p c) := by
  have hgone : Quiet c { c with guide := { c.guide with markers := c.guide.markers.filter (fun m => !p m) } } := .of_slots rfl
  exact hgone.trans (.foldl (fun d lcn => .foldl (judgeExtended_quiet hstop) _ d) _ _)

theorem carrierUnlocked_quiet (x : Option Carrier) (c : Core) : Quiet c (carrierUnlocked stop x c) := by
  unfold carrierUnlocked
  split
  · exact .refl c
  · exact (removeMarkers_quiet hstop _ c).trans (testPresent_quiet _)

theorem handLeft_quiet (t : Fin 4) (u : Tuner) (c : Core) : Quiet c (handLeft stop t u c) := by
  unfold handLeft
  dsimp only
  have hclosed : Quiet c (setLaneMap t .empty (settleControl (closeTunerSlots t c))) :=
    ((closeTunerSlots_quiet t c).trans (settleControl_quiet _)).trans (.of_slots (setLaneMap_slots _ _ t))
  have hunlocked := Quiet.ite (P := (u.state = .locked || u.state = .lost) = true)
    (hclosed.trans (carrierUnlocked_quiet hstop u.carrier _)) hclosed
  exact .ite (hunlocked.trans (.of_slots (watchTest_slots _))) hunlocked

theorem releaseWith_quiet (x : Claimant) (c : Core) : Quiet c (releaseWith stop x c) := by
  have hoff : ∀ t, Quiet c (turnOff t c) := fun t => .of_slots rfl
  unfold releaseWith
  split
  · exact .refl c
  · exact .ite ((hoff _).trans (handLeft_quiet hstop _ _ _)) (.of_slots rfl)

end

theorem stopBody_quiet {rel : Claimant → Core → Core} (hrel : ∀ x c, Quiet c (rel x c)) (o : Output) (c : Core) :
    Quiet c (stopBody rel o c) := by
  unfold stopBody
  dsimp only
  have hidle : Quiet c (setSession o .idle (unbindKey o c)) := (unbindKey_quiet o c).trans (.of_slots (setSession_slots _ _ o))
  have hleft := hidle.trans (hrel (.out o) _)
  have hhand : ∀ {d : Core}, Quiet c d → Quiet c (handStop (session c o).origin d) := fun hd => hd.trans (.of_slots (handStop_slots _ _))
  have hpost : ∀ b d, Quiet d (post b d) := fun b d => .of_slots rfl
  exact hhand (.ite (hleft.trans (hpost _ _)) (.ite (hleft.trans (hpost _ _)) hleft))

theorem stopN_quiet : ∀ (n : Nat) (o : Output) (c : Core), Quiet c (stopN n o c)
  | 0, _, c => .refl c
  | n + 1, o, c => stopBody_quiet (releaseWith_quiet (stopN_quiet n)) o c

theorem stopSession_quiet (o : Output) (c : Core) : Quiet c (stopSession o c) := stopN_quiet 33 o c

theorem release_quiet (x : Claimant) (c : Core) : Quiet c (release x c) := releaseWith_quiet stopSession_quiet x c

end Sys2Proof.Machine
end

section
/-! What a stop leaves alone, put together, and what a bulletin taken leaves alone (R52, R94). -/

namespace Sys2Proof.Machine

open Sys2Proof

/-- The blocks of the owners stand, with the values that no stop changes. -/
structure Aside (c c' : Core) : Prop where
  tuners : TunersOnly c c'
  rested : Rested c c'
  timed : Timed c c'
  quiet : Quiet c c'

theorem Aside.refl (c : Core) : Aside c c := ⟨.refl c, .refl c, .refl c, .refl c⟩

theorem Aside.trans {a b c : Core} (h : Aside a b) (h' : Aside b c) : Aside a c where
  tuners := ⟨h'.tuners.dir.trans h.tuners.dir, h'.tuners.access.trans h.tuners.access, h'.tuners.limits.trans h.tuners.limits,
    h'.tuners.purchase.trans h.tuners.purchase, h'.tuners.uplink.trans h.tuners.uplink, h'.tuners.pages.trans h.tuners.pages,
    h'.tuners.time.trans h.tuners.time⟩
  rested := h.rested.trans h'.rested
  timed := ⟨h'.timed.time.trans h.timed.time, h'.timed.broadcast.trans h.timed.broadcast, h'.timed.zone.trans h.timed.zone,
    h'.timed.lead.trans h.timed.lead, h'.timed.power.trans h.timed.power⟩
  quiet := h.quiet.trans h'.quiet

theorem Aside.foldl {α : Type} {f : Core → α → Core} (hf : ∀ c x, Aside c (f c x)) (l : List α) (c : Core) : Aside c (l.foldl f c) := by
  induction l generalizing c with
  | nil => exact .refl c
  | cons x xs ih => exact (hf c x).trans (ih _)

theorem stopSession_aside (o : Output) (c : Core) : Aside c (stopSession o c) where
  tuners := stopSession_tuners (.refl c)
  rested := stopSession_rested o c
  timed := stopSession_timed (.refl c)
  quiet := stopSession_quiet o c

theorem release_aside (x : Claimant) (c : Core) : Aside c (release x c) where
  tuners := release_tuners (.refl c)
  rested := release_rested x c
  timed := release_timed (.refl c)
  quiet := release_quiet x c

theorem reevaluate_aside (c : Core) : Aside c (reevaluate c) where
  tuners := reevaluate_tuners (.refl c)
  rested := .of_kept reevaluate_kept
  timed := reevaluate_timed (.refl c)
  quiet := .of_slots (reevaluate_slots c)

theorem commitBooking_aside (id : Nat) (c : Core) : Aside c (commitBooking id c) where
  tuners := commitBooking_tuners (.refl c)
  rested := .of_kept commitBooking_kept
  timed := commitBooking_timed (.refl c)
  quiet := .of_slots (commitBooking_slots id c)

theorem stopBookingOutput_aside (c : Core) (id : Nat) : Aside c (stopBookingOutput c id) := by
  unfold stopBookingOutput
  split
  · split
    · split
      · exact stopSession_aside _ c
      · exact .refl c
    · exact .refl c
  · exact .refl c

/-! ## With no booking the clock stands (R201) -/

/-- With an empty booking list before, the clock stands. -/
def ClockStands (c c' : Core) : Prop := c.clock.bookings = [] → c'.clock = c.clock

theorem ClockStands.refl (c : Core) : ClockStands c c := fun _ => rfl

theorem ClockStands.of_clock {c c' : Core} (h : c'.clock = c.clock) : ClockStands c c' := fun _ => h

theorem ClockStands.trans {a b c : Core} (h : ClockStands a b) (h' : ClockStands b c) : ClockStands a c := fun he => by
  have hab := h he
  exact (h' (hab ▸ he)).trans hab

theorem ClockStands.ite {P : Prop} [Decidable P] {c a b : Core} (ha : ClockStands c a) (hb : ClockStands c b) :
    ClockStands c (if P then a else b) := by
  split
  · exact ha
  · exact hb

theorem ClockStands.foldl {α : Type} {f : Core → α → Core} (hf : ∀ c x, ClockStands c (f c x)) (l : List α) (c : Core) :
    ClockStands c (l.foldl f c) := by
  induction l generalizing c with
  | nil => exact .refl c
  | cons x xs ih => exact (hf c x).trans (ih _)

theorem bookingOutcome_clockStands (id : Nat) (outcome : ChangeOutcome) (c : Core) : ClockStands c (bookingOutcome id outcome c) :=
  fun he => by rw [bookingOutcome_other outcome fun b hb => by simp [findBooking, he] at hb]

theorem endChange_clockStands (o : Output) (old : Session) (outcome : ChangeOutcome) (r : Option Reasons) (c : Core) :
    ClockStands c (endChange o old outcome r c) := by
  have hpost : ∀ b, ClockStands c (post b c) := fun _ => .of_clock rfl
  unfold endChange
  dsimp only
  split
  · exact hpost _
  · exact (hpost _).trans (bookingOutcome_clockStands _ _ _)

theorem purchaseOffer_clock (o : Output) (c : Core) : (purchaseOffer o c).clock = c.clock := by
  unfold purchaseOffer
  dsimp only
  repeat' split
  all_goals rfl

theorem arrive_clockStands (o : Output) (old s : Session) (entering : Bool) (c : Core) :
    ClockStands c (arrive o old s entering c) := by
  unfold arrive
  dsimp only
  have hset : ∀ x, ClockStands c (setSession o x c) := fun x => .of_clock (setSession_clock c x o)
  have hended : ∀ outcome r, ClockStands c (endChange o s outcome r (setSession o { s with change := .absent } c)) := fun _ _ =>
    (hset _).trans (endChange_clockStands o s _ _ _)
  have hposted : ClockStands c (postSession o (setSession o { s with change := .absent } c)) := .of_clock rfl
  have hoffered : ∀ {P : Prop} [Decidable P] {d : Core}, ClockStands c d → ClockStands c (if P then purchaseOffer o d else d) :=
    fun hd => .ite (hd.trans (.of_clock (purchaseOffer_clock o _))) hd
  refine hoffered ?_
  split
  · split
    · exact hended _ _
    · exact hended _ _
  · exact .ite hposted (hset _)

theorem reevalOne_clockStands (c : Core) (o : Output) : ClockStands c (reevalOne c o) := by
  unfold reevalOne
  dsimp only
  have harrive := fun old s entering => arrive_clockStands o old s entering c
  split
  · split
    · split
      · exact harrive _ _ _
      · split
        · exact harrive _ _ _
        · exact .refl c
    · split
      · exact .refl c
      · exact harrive _ _ _
    · split
      · exact harrive _ _ _
      · split
        · exact .refl c
        · exact harrive _ _ _
    · exact .refl c
    · exact .refl c
  · exact .refl c

theorem reevaluate_clockStands (c : Core) : ClockStands c (reevaluate c) := .foldl reevalOne_clockStands _ c

/-! ## A bulletin taken (R94 to R96) -/

/-- What a bulletin that is taken leaves alone. -/
structure BulletinTaken (c c' : Core) : Prop where
  dir : c'.dir = c.dir
  limits : c'.limits = c.limits
  issue : c'.access.issue = c.access.issue
  kept : kept c' = kept c
  clock : ClockStands c c'

theorem BulletinTaken.refl (c : Core) : BulletinTaken c c := ⟨rfl, rfl, rfl, rfl, .refl c⟩

theorem BulletinTaken.trans {a b c : Core} (h : BulletinTaken a b) (h' : BulletinTaken b c) : BulletinTaken a c :=
  ⟨h'.dir.trans h.dir, h'.limits.trans h.limits, h'.issue.trans h.issue, h'.kept.trans h.kept, h.clock.trans h'.clock⟩

theorem BulletinTaken.ite {P : Prop} [Decidable P] {c a b : Core} (ha : BulletinTaken c a) (hb : BulletinTaken c b) :
    BulletinTaken c (if P then a else b) := by
  split
  · exact ha
  · exact hb

theorem BulletinTaken.foldl {α : Type} {f : Core → α → Core} (hf : ∀ c x, BulletinTaken c (f c x)) (l : List α) (c : Core) :
    BulletinTaken c (l.foldl f c) := by
  induction l generalizing c with
  | nil => exact .refl c
  | cons x xs ih => exact (hf c x).trans (ih _)

section
variable (c : Core)

theorem setPurchase_bulletinTaken (x : Purchase) : BulletinTaken c (setPurchase x c) := ⟨rfl, rfl, rfl, rfl, .of_clock rfl⟩
theorem setUplinkState_bulletinTaken (x : Uplink) : BulletinTaken c (setUplinkState x c) := ⟨rfl, rfl, rfl, rfl, .of_clock rfl⟩
theorem setEvents_bulletinTaken (l : List EventGrant) : BulletinTaken c (setEvents l c) := ⟨rfl, rfl, rfl, rfl, .of_clock rfl⟩
theorem setPackages_bulletinTaken (l : List PackageGrant) : BulletinTaken c (setPackages l c) := ⟨rfl, rfl, rfl, rfl, .of_clock rfl⟩
theorem setCut_bulletinTaken (b : Bool) : BulletinTaken c (setCut b c) := ⟨rfl, rfl, rfl, rfl, .of_clock rfl⟩
theorem setLast_bulletinTaken (k : Fin 5) (n : Seq) : BulletinTaken c (setLast k n c) := ⟨rfl, rfl, rfl, rfl, .of_clock rfl⟩
theorem setSlot_bulletinTaken (i : Fin 16) (x : Slot) : BulletinTaken c (setSlot i x c) := ⟨rfl, rfl, rfl, rfl, .of_clock rfl⟩
theorem post_bulletinTaken (b : NoticeBody) : BulletinTaken c (post b c) := ⟨rfl, rfl, rfl, post_kept, .of_clock rfl⟩

end

theorem offer_bulletinTaken {it : Item} {a : OfferAnswer} {c c' : Core} (h : offer it c = (a, c')) : BulletinTaken c c' := by
  have hstore := offer_only h
  exact ⟨hstore.dir, hstore.limits, congrArg Access.issue hstore.access, offer_kept h, .of_clock hstore.clock⟩

theorem UplinkOnly.bulletinTaken {c c' : Core} (h : UplinkOnly c c') : BulletinTaken c c' := by
  obtain ⟨u, rfl⟩ := h
  exact setUplinkState_bulletinTaken c u

theorem reevaluate_bulletinTaken (c : Core) : BulletinTaken c (reevaluate c) :=
  have haside := reevaluate_aside c
  ⟨haside.tuners.dir, haside.tuners.limits, congrArg Access.issue haside.tuners.access, reevaluate_kept, reevaluate_clockStands c⟩

theorem commitGroup_bulletinTaken (credit : Bool) (c : Core) : BulletinTaken c (commitGroup credit c) := by
  have hset : ∀ (d : Core) (x y : Bool), BulletinTaken d { d with access := { d.access with groupOwed := x, groupOwedCredit := y } } :=
    fun _ _ _ => ⟨rfl, rfl, rfl, rfl, .of_clock rfl⟩
  unfold commitGroup
  dsimp only
  split
  · next c' h => exact (offer_bulletinTaken h).trans (hset _ _ _)
  · next c' h => exact offer_bulletinTaken h
  · next c' _ _ h => exact (offer_bulletinTaken h).trans (hset _ _ _)

theorem commitLogAck_bulletinTaken (c : Core) : BulletinTaken c (commitLogAck c) := by
  unfold commitLogAck
  split
  · next c' h => exact (offer_bulletinTaken h).trans (setPurchase_bulletinTaken _ _)
  · next c' h => exact offer_bulletinTaken h
  · next c' _ _ h => exact (offer_bulletinTaken h).trans (setPurchase_bulletinTaken _ _)

theorem purchaseAck_bulletinTaken (s : Seq) (c : Core) : BulletinTaken c (purchaseAck s c) := by
  unfold purchaseAck
  dsimp only
  have hset : ∀ x, BulletinTaken c (setPurchase x c) := setPurchase_bulletinTaken c
  have hack : ∀ d, BulletinTaken d (acknowledged d) := fun d => by
    unfold acknowledged
    exact setUplinkState_bulletinTaken d _
  have hdone := fun x => (BulletinTaken.ite (P := ackCovers (setPurchase x c).uplink s = true) ((hset x).trans (hack _)) (hset x)).trans
    (commitLogAck_bulletinTaken _)
  have hstop : ∀ d, BulletinTaken d (stopIfReported d) := fun d => .ite (setUplinkState_bulletinTaken d _) (.refl d)
  exact ((hdone _).trans (hstop _)).trans (dueTest_uplinkOnly _).bulletinTaken

theorem addEvent_bulletinTaken (lcn event expiry : Nat) (c : Core) : BulletinTaken c (addEvent lcn event expiry c) := by
  unfold addEvent
  dsimp only
  refine .ite (.refl c) ?_
  split
  · exact setEvents_bulletinTaken c _
  · exact .ite (setEvents_bulletinTaken c _) (.refl c)

theorem applyOp_bulletinTaken (c : Core) (op : GrantOp) : BulletinTaken c (applyOp c op) := by
  cases op with
  | addPackage id first last => exact setPackages_bulletinTaken c _
  | dropPackage id => exact setPackages_bulletinTaken c _
  | addEvent lcn event expiry => exact addEvent_bulletinTaken lcn event expiry c
  | creditLimit n => exact setPurchase_bulletinTaken c _
  | creditTopUp n => exact setPurchase_bulletinTaken c _
  | purchaseAck s => exact purchaseAck_bulletinTaken s c
  | cut => exact setCut_bulletinTaken c true
  | restore => exact setCut_bulletinTaken c false
  | unknown => exact .refl c

theorem applyBulletin_bulletinTaken (k : Fin 5) (b : GrantBulletin) (c : Core) : BulletinTaken c (applyBulletin k b c) := by
  unfold applyBulletin
  dsimp only
  have happlied : ∀ credit, BulletinTaken c (commitGroup credit (setLast k b.number (b.ops.foldl applyOp c))) := fun credit =>
    ((BulletinTaken.foldl applyOp_bulletinTaken b.ops c).trans (setLast_bulletinTaken _ _ _)).trans (commitGroup_bulletinTaken _ _)
  exact .ite (((happlied _).trans (post_bulletinTaken _ _)).trans (reevaluate_bulletinTaken _)) (happlied _)

/-! ## The retest of the kept bulletins (R93) -/

/-- The slot feeds the grants. -/
def FeedsGrants (i : Fin 16) (c : Core) : Prop := (slot c i).feeds .grants = true

theorem feedsGrants_iff {i : Fin 16} {c : Core} : FeedsGrants i c ↔ ∃ f, (slot c i).filter = some f ∧ f.consumer = .grants := by
  unfold FeedsGrants Slot.feeds
  cases (slot c i).filter with
  | none => simp
  | some f => simp

theorem feedsGrants_setSlot {i : Fin 16} {x : Slot} {c : Core} (h : FeedsGrants i c) (hx : x.filter = (slot c i).filter) :
    FeedsGrants i (setSlot i x c) := by
  rw [feedsGrants_iff] at h ⊢
  rw [slot_setSlot, hx]
  exact h

theorem Slot.release_filter (x : Slot) : x.release.filter = x.filter := by
  unfold Slot.release
  split
  · rfl
  · rfl

theorem Slot.handNext_filter (x : Slot) : x.handNext.filter = x.filter := by
  unfold Slot.handNext
  repeat' split
  all_goals rfl

theorem takeHanded_bulletinTaken {i : Fin 16} {c : Core} (h : FeedsGrants i c) :
    BulletinTaken c (takeHanded i c).1 ∧ FeedsGrants i (takeHanded i c).1 := by
  have hrelease : BulletinTaken c (releaseBuffer i c) ∧ FeedsGrants i (releaseBuffer i c) :=
    ⟨setSlot_bulletinTaken c i _, feedsGrants_setSlot h (Slot.release_filter _)⟩
  obtain ⟨f, hf, hc⟩ := feedsGrants_iff.mp h
  unfold takeHanded
  split
  · next f' b hf' hb =>
    rw [hf] at hf'
    cases hf'
    split
    · split
      · exact ⟨.refl c, h⟩
      · exact hrelease
      · next k _ =>
        refine ⟨hrelease.1.trans (applyBulletin_bulletinTaken k _ _), ?_⟩
        unfold FeedsGrants
        rw [slot_of_slots (applyBulletin_slots k _ _) i]
        exact hrelease.2
    · next r hr hne =>
      have hsame : consume f (segmentHeader b.bytes) r (releaseBuffer i c) = releaseBuffer i c := by
        unfold consume
        rw [hc]
      rw [hsame]
      exact hrelease
    · exact hrelease
  · exact ⟨.refl c, h⟩

theorem handOver_bulletinTaken {i : Fin 16} : ∀ (n : Nat) {c : Core}, FeedsGrants i c → BulletinTaken c (handOver n i c)
  | 0, c, _ => .refl c
  | n + 1, c, h => by
    obtain ⟨htaken, hfeeds⟩ := takeHanded_bulletinTaken h
    unfold handOver
    split
    · next c' he =>
      rw [he] at htaken
      exact htaken
    · next c' he =>
      rw [he] at htaken hfeeds
      dsimp only
      refine .ite ?_ htaken
      exact (htaken.trans (setSlot_bulletinTaken _ _ _)).trans (handOver_bulletinTaken n (feedsGrants_setSlot hfeeds (Slot.handNext_filter _)))

theorem retestKept_bulletinTaken (c : Core) : BulletinTaken c (retestKept c) := by
  refine .foldl (fun d i => ?_) _ c
  unfold retestOne
  split
  · next h =>
    have hfeeds : FeedsGrants i d := (Bool.and_eq_true _ _ ▸ h).1
    exact handOver_bulletinTaken 3 hfeeds
  · exact .refl d

end Sys2Proof.Machine
end

section
/-! The rows of Table 9.7-1: what each owner's wipe sets, and what it leaves alone (R187). -/

namespace Sys2Proof.Machine

open Sys2Proof

/-- The blocks whose values the end of a wipe states. -/
structure Owners where
  dir : Directory
  access : Access
  limits : Limits
  purchase : Purchase
  uplink : Uplink

def owners (c : Core) : Owners := ⟨c.dir, c.access, c.limits, c.purchase, c.uplink⟩

theorem Aside.owners {c c' : Core} (h : Aside c c') : owners c' = owners c := by
  unfold Machine.owners
  rw [h.tuners.dir, h.tuners.access, h.tuners.limits, h.tuners.purchase, h.tuners.uplink]

/-! ## The directory (R4, R12) -/

/-- All but the snapshot's owed parts and the commit queue stands as it was. -/
def OwedOnly (c c' : Core) : Prop := ∃ owed store free, c' = { c with dir := { c.dir with owed := owed }, store := store, free := free }

theorem OwedOnly.refl (c : Core) : OwedOnly c c := ⟨_, _, _, rfl⟩

theorem OwedOnly.trans {a b c : Core} (h : OwedOnly a b) (h' : OwedOnly b c) : OwedOnly a c := by
  obtain ⟨_, _, _, rfl⟩ := h
  obtain ⟨_, _, _, rfl⟩ := h'
  exact ⟨_, _, _, rfl⟩

theorem offerIndex_owedOnly (c : Core) (k : Nat) : OwedOnly c (offerIndex c k) := by
  unfold offerIndex
  split
  · split
    · next c' h =>
      rw [(offer_only h).eq_with]
      exact ⟨_, _, _, rfl⟩
    · next c' h =>
      rw [(offer_only h).eq_with]
      exact ⟨_, _, _, rfl⟩
    · next c' h =>
      rw [(offer_only h).eq_with]
      exact ⟨_, _, _, rfl⟩
    · next c' _ _ _ h =>
      rw [(offer_only h).eq_with]
      exact ⟨_, _, _, rfl⟩
  · exact .refl c

theorem startSnapshot_owedOnly (c : Core) : OwedOnly c (startSnapshot c) := by
  have hfold : ∀ (l : List Nat) (c : Core), OwedOnly c (l.foldl offerIndex c) := by
    intro l
    induction l with
    | nil => exact fun c => .refl c
    | cons k l ih => exact fun c => (offerIndex_owedOnly c k).trans (ih _)
  have hset : OwedOnly c (setDir { c.dir with owed := fullSnapshot c.dir } c) := ⟨_, c.store, c.free, rfl⟩
  exact hset.trans (hfold _ _)

/-- Standby watch's claim goes with the home carrier. -/
theorem watchReclaim_homeless {c : Core} (h : c.dir.home = none) : Aside c (watchReclaim c) := by
  cases ht : heldTuner c .watch with
  | none =>
    have hsame : watchTest c = c := by
      unfold watchTest
      rw [h]
    rw [watchReclaim_unheld ht, hsame]
    exact .refl c
  | some t =>
    rw [watchReclaim_noHome ht h]
    exact release_aside .watch c

theorem wipeDirectory_spec (c : Core) : (∃ owed, owners (wipeDirectory c) =
      { owners c with dir := { (owners c).dir with home := none, owed := owed } }) ∧
    (kept (wipeDirectory c)).base = (kept c).base ∧ Timed c (wipeDirectory c) ∧ Quiet c (wipeDirectory c) := by
  have hhome := watchReclaim_homeless (c := setDir { c.dir with home := none } c) rfl
  obtain ⟨owed, store, free, hw⟩ := startSnapshot_owedOnly (watchReclaim (setDir { c.dir with home := none } c))
  have howners := hhome.owners
  have htimed := hhome.timed
  have hbase := hhome.rested.base
  have hquiet := hhome.quiet
  have hwipe : wipeDirectory c = startSnapshot (watchReclaim (setDir { c.dir with home := none } c)) := rfl
  generalize watchReclaim (setDir { c.dir with home := none } c) = d at *
  rw [hwipe, hw]
  refine ⟨⟨owed, ?_⟩, hbase, ⟨htimed.time, htimed.broadcast, htimed.zone, htimed.lead, htimed.power⟩, fun hn => hquiet hn⟩
  have hd : owners d = { owners c with dir := { c.dir with home := none } } := howners
  calc (⟨{ d.dir with owed := owed }, d.access, d.limits, d.purchase, d.uplink⟩ : Owners)
    _ = { owners d with dir := { (owners d).dir with owed := owed } } := rfl
    _ = { owners c with dir := { c.dir with home := none, owed := owed } } := by rw [hd]

/-! ## Grants and purchases (R89, R152) -/

/-- The access block without grants. -/
def wipedAccess (a : Access) : Access :=
  { a with packages := [], events := [], cut := false, last := #v[none, none, none, none, none], groupOwed := false, groupOwedCredit := false }

theorem wipeAccess_eq (c : Core) : wipeAccess c = post (.grantsChanged .wipe 0 0 false) { c with access := wipedAccess c.access } := rfl

/-- The purchase block at its defaults, the purchase in flight kept. -/
def wipedPurchase (p : Purchase) : Purchase :=
  { balance := 0, limit := 0, log := [], nextSeq := 1, acked := none, charged := none, inFlight := p.inFlight, logAckOwed := false }

/-- The uplink with its report given up, but for a silence. -/
def idleUplink (u : Uplink) : Uplink :=
  if u.state = .silent then u else { u with
    state := .idle, report := none, answerWait := { u.answerWait with running := false }, retry := { u.retry with running := false }
    ackWait := { u.ackWait with running := false }, backoff := { u.backoff with running := false } }

/-- The uplink at its defaults. -/
def wipedUplink (u : Uplink) : Uplink :=
  { idleUplink u with
    mode := .auto, interval := 360, parity := false, pendingFlag := false
    reportTimer := { u.reportTimer with reload := 21600000, running := false } }

theorem abandonReport_eq (u : Uplink) : abandonReport u = idleUplink u := by
  unfold abandonReport idleUplink
  cases u.state with
  | silent => rfl
  | idle => rfl
  | sending => rfl
  | waitAck => rfl
  | backoff => rfl

end Sys2Proof.Machine
end

section
/-! The end of a wipe: the rows of Table 9.7-1 in their order (R187). -/

namespace Sys2Proof.Machine

open Sys2Proof

/-- What the end of a wipe leaves of the uplink. -/
structure UplinkWiped (u u' : Uplink) : Prop where
  mode : u'.mode = .auto
  interval : u'.interval = 360
  parity : u'.parity = false
  pendingFlag : u'.pendingFlag = false
  report : u'.report = if u.state = .silent then u.report else none
  reportTimer : u'.reportTimer = { u.reportTimer with reload := 21600000, running := false }

theorem idleUplink_report (u : Uplink) : (idleUplink u).report = if u.state = .silent then u.report else none := by
  unfold idleUplink
  split
  · rfl
  · rfl

theorem idleUplink_reportTimer (u : Uplink) : (idleUplink u).reportTimer = u.reportTimer := by
  unfold idleUplink
  split
  · rfl
  · rfl

theorem wipedUplink_wiped (u : Uplink) : UplinkWiped u (wipedUplink u) := ⟨rfl, rfl, rfl, rfl, idleUplink_report u, rfl⟩

/-- The blocks with the purchases and the uplink at their defaults. -/
def purchasesCleared (c : Core) : Core := { c with purchase := wipedPurchase c.purchase, uplink := wipedUplink c.uplink }

theorem wipePurchases_eq (c : Core) : wipePurchases c = testRecovery (purchasesCleared c) := by
  unfold wipePurchases
  dsimp only [Uplink.withInterval, Timer.stop]
  rw [abandonReport_eq, idleUplink_reportTimer]
  rfl

/-- A silence that ends at the wipe finds nothing to report. -/
theorem testRecovery_cleared (c : Core) : ∃ u link, testRecovery (purchasesCleared c) =
    { purchasesCleared c with uplink := u, link := link } ∧ UplinkWiped c.uplink u ∧
      kept { purchasesCleared c with uplink := u, link := link } = kept c := by
  have hwiped := wipedUplink_wiped c.uplink
  by_cases hr : recovers (purchasesCleared c).uplink = true
  · refine ⟨{ (purchasesCleared c).uplink with
        state := .idle, failures := 0, quiet := 0, release := false, quietTimer := (purchasesCleared c).uplink.quietTimer.stop },
      (purchasesCleared c).link.join (stamped (purchasesCleared c) (.uplinkState .idle .recovered none 0)), ?_,
      ⟨hwiped.mode, hwiped.interval, hwiped.parity, hwiped.pendingFlag, hwiped.report, hwiped.reportTimer⟩, ?_⟩
    · have hempty : (unreported (wipedPurchase c.purchase)).length < 8 := Nat.zero_lt_succ 7
      rw [testRecovery_ready hr]
      exact dueTest_notDue rfl hempty rfl
    · exact post_kept (c := purchasesCleared c)
  · exact ⟨_, _, testRecovery_unready hr, hwiped, rfl⟩

theorem wipePurchases_spec (c : Core) : (∃ u, UplinkWiped (owners c).uplink u ∧
      owners (wipePurchases c) = { owners c with purchase := wipedPurchase (owners c).purchase, uplink := u }) ∧
    kept (wipePurchases c) = kept c ∧ Timed c (wipePurchases c) ∧ Quiet c (wipePurchases c) := by
  obtain ⟨u, link, he, hu, hk⟩ := testRecovery_cleared c
  rw [wipePurchases_eq, he]
  exact ⟨⟨u, hu, rfl⟩, hk, ⟨rfl, rfl, rfl, rfl, rfl⟩, .of_slots rfl⟩

/-! ## The limits and the guide (R147, R115) -/

/-- The limits at their defaults, the lockout timer stopped and the minute left running. -/
def wipedLimits (l : Limits) : Limits :=
  { profiles := #v[some ⟨7, 1440, 0, [], 1000000⟩, none, none, none, none, none], pin := none, count := 0
    lockout := { l.lockout with running := false }, failFlag := false, failWriting := false, lockList := [], minute := l.minute, owed := [] }

theorem wipeLimits_eq (c : Core) : wipeLimits c =
    reevaluate (setContext .b ⟨0, 0, none, none⟩ (setContext .a ⟨0, 0, none, none⟩ { c with limits := wipedLimits c.limits })) := rfl

/-- The room contexts at their defaults. -/
def ContextsReset (k : Kept) : Prop := ∀ r, k.contexts.get (Room.idx r) = ⟨0, 0, none, none⟩

theorem ContextsReset.eventless {k : Kept} (h : ContextsReset k) : k.eventless := by
  intro i g hg
  obtain ⟨r, rfl⟩ : ∃ r, Room.idx r = i := by
    fin_cases i
    · exact ⟨.a, rfl⟩
    · exact ⟨.b, rfl⟩
  rw [h r] at hg
  cases hg

theorem wipeLimits_spec (c : Core) : owners (wipeLimits c) = { owners c with limits := wipedLimits (owners c).limits } ∧
    (kept (wipeLimits c)).base = (kept c).base ∧ ContextsReset (kept (wipeLimits c)) ∧ Timed c (wipeLimits c) ∧
    Quiet c (wipeLimits c) := by
  have haside := reevaluate_aside
    (setContext .b ⟨0, 0, none, none⟩ (setContext .a ⟨0, 0, none, none⟩ { c with limits := wipedLimits c.limits }))
  have hkept := reevaluate_kept
    (c := setContext .b ⟨0, 0, none, none⟩ (setContext .a ⟨0, 0, none, none⟩ { c with limits := wipedLimits c.limits }))
  have htimed := haside.timed
  rw [wipeLimits_eq]
  refine ⟨haside.owners, haside.rested.base, ?_, ⟨htimed.time, htimed.broadcast, htimed.zone, htimed.lead, htimed.power⟩,
    fun hn => haside.quiet hn⟩
  rw [hkept]
  intro r
  cases r with
  | a => exact (context_setContext_ne _ _ (by decide)).trans (context_setContext _ _ _)
  | b => exact context_setContext _ _ _

/-! ## The clock (R212) -/

/-- The clock at the end of the wipe. -/
structure ClockWiped (k k' : Clock) : Prop where
  zone : k'.zone = none
  lead : k'.wakeLead = 120
  bookings : k'.bookings = []
  lastId : k'.lastId = 0
  owedBookings : k'.owedBookings = []
  power : k'.power = k.power
  unset : k.time = none → k'.today = none
  set : ∀ t, k.time = some t → k'.today = k.today
  wake : k'.wake = k.wake
  causes : k'.causes = k.causes
  alarm : k'.alarm = k.alarm

/-- The clock with the zone and the wake lead at their defaults. -/
def zoneWiped (c : Core) : Core := setClock { c.clock with zone := none, wakeLead := 120 } c

/-- The outputs of the bookings that run are stopped. -/
def outputsStopped (c : Core) : Core := (bookingsWithOutput c).foldl stopBookingOutput (zoneWiped c)

/-- The list is empty, and the removals are committed. -/
def listEmptied (c : Core) : Core :=
  (bookingsWithOutput c).foldl (fun c id => commitBooking id c)
    (setClock { (outputsStopped c).clock with bookings := [], lastId := 0 } (outputsStopped c))

/-- Nothing of the bookings is owed. -/
def owedCleared (c : Core) : Core :=
  setClock { (listEmptied c).clock with owedBookings := [], owedDay := false, owedBeforeDay := [] } (listEmptied c)

theorem wipeClock_eq (c : Core) : wipeClock c = match (owedCleared c).clock.time with
    | some _ => commitLastDay (owedCleared c)
    | none => setClock { (owedCleared c).clock with today := none } (owedCleared c) := rfl

theorem outputsStopped_aside (c : Core) : Aside (zoneWiped c) (outputsStopped c) := .foldl stopBookingOutput_aside _ _

theorem oweBooking_bookings (id : Nat) (k : Clock) : (oweBooking id k).bookings = k.bookings ∧ (oweBooking id k).lastId = k.lastId := by
  unfold oweBooking
  split
  · exact ⟨rfl, rfl⟩
  · exact ⟨rfl, rfl⟩

theorem commitBooking_lastId (id : Nat) (c : Core) : (commitBooking id c).clock.lastId = c.clock.lastId := by
  unfold commitBooking
  split
  · next c' h => exact (oweBooking_bookings id c'.clock).2.trans (congrArg Clock.lastId (offer_only h).clock)
  · next c' h => exact congrArg Clock.lastId (offer_only h).clock
  · next c' _ _ h => exact (congrArg Clock.lastId (offer_only h).clock : c'.clock.lastId = c.clock.lastId)

theorem foldl_commitBooking_list (l : List Nat) (c : Core) :
    (l.foldl (fun c id => commitBooking id c) c).clock.bookings = c.clock.bookings ∧
      (l.foldl (fun c id => commitBooking id c) c).clock.lastId = c.clock.lastId := by
  induction l generalizing c with
  | nil => exact ⟨rfl, rfl⟩
  | cons id l ih => exact ⟨(ih _).1.trans (commitBooking_bookings id c), (ih _).2.trans (commitBooking_lastId id c)⟩

/-- The commit of today changes the store and what is owed of it alone. -/
theorem commitLastDay_only (c : Core) : ∃ store free owedDay owedBeforeDay, commitLastDay c =
    { c with store := store, free := free, clock := { c.clock with owedDay := owedDay, owedBeforeDay := owedBeforeDay } } := by
  unfold commitLastDay
  split
  · exact ⟨_, _, _, _, rfl⟩
  · split
    · next c' h =>
      rw [(offer_only h).eq_with]
      exact ⟨_, _, _, _, rfl⟩
    · next c' h =>
      rw [(offer_only h).eq_with]
      exact ⟨_, _, _, _, rfl⟩
    · next c' _ _ h =>
      rw [(offer_only h).eq_with]
      exact ⟨_, _, _, _, rfl⟩

/-- The state in which the last commit of today finds the clock. -/
theorem owedCleared_spec (c : Core) : owners (owedCleared c) = owners c ∧ (kept (owedCleared c)).base = (kept c).base ∧
    ((kept c).eventless → kept (owedCleared c) = kept c) ∧ Quiet c (owedCleared c) ∧
    (owedCleared c).clock.time = c.clock.time ∧ (owedCleared c).clock.power = c.clock.power ∧
    (owedCleared c).clock.zone = none ∧ (owedCleared c).clock.wakeLead = 120 ∧ (owedCleared c).clock.bookings = [] ∧
    (owedCleared c).clock.lastId = 0 ∧ (owedCleared c).clock.owedBookings = [] := by
  have hstop := outputsStopped_aside c
  have hcommit : Aside (setClock { (outputsStopped c).clock with bookings := [], lastId := 0 } (outputsStopped c)) (listEmptied c) :=
    .foldl (fun d id => commitBooking_aside id d) _ _
  obtain ⟨hbookings, hlast⟩ : (listEmptied c).clock.bookings = [] ∧ (listEmptied c).clock.lastId = 0 := foldl_commitBooking_list _ _
  refine ⟨hcommit.owners.trans hstop.owners, hcommit.rested.base.trans hstop.rested.base, fun he => ?_,
    fun hn => hcommit.quiet (hstop.quiet hn), hcommit.timed.time.trans hstop.timed.time, hcommit.timed.power.trans hstop.timed.power,
    hcommit.timed.zone.trans hstop.timed.zone, hcommit.timed.lead.trans hstop.timed.lead, hbookings, hlast, rfl⟩
  have hs : kept (outputsStopped c) = kept c := hstop.rested.all he
  have hemptied : kept (setClock { (outputsStopped c).clock with bookings := [], lastId := 0 } (outputsStopped c)) = kept c := hs
  exact (hcommit.rested.all (hemptied ▸ he)).trans hemptied

theorem wipeClock_spec (c : Core) : owners (wipeClock c) = owners c ∧
    { (kept (wipeClock c)).base with today := none } = { (kept c).base with today := none } ∧
    ((kept c).eventless → (kept (wipeClock c)).contexts = (kept c).contexts) ∧ Quiet c (wipeClock c) ∧
    ClockWiped c.clock (wipeClock c).clock := by
  obtain ⟨howners, hbase, hall, hquiet, htime, hpower, hzone, hlead, hbookings, hlast, howed⟩ := owedCleared_spec c
  rw [wipeClock_eq]
  generalize owedCleared c = d at *
  cases ht : d.clock.time with
  | none =>
    have hunset : c.clock.time = none := htime.symm.trans ht
    refine ⟨howners, congrArg (fun b : Base => { b with today := none }) hbase, fun he =>
      (congrArg Kept.contexts (hall he) : d.rooms.contexts = c.rooms.contexts), hquiet,
      ⟨hzone, hlead, hbookings, hlast, howed, hpower, fun _ => rfl, fun t h => ?_, congrArg Base.wake hbase, congrArg Base.causes hbase,
        congrArg Base.alarm hbase⟩⟩
    rw [hunset] at h
    cases h
  | some t =>
    have hset : c.clock.time = some t := htime.symm.trans ht
    obtain ⟨_, _, _, _, he⟩ := commitLastDay_only d
    rw [he]
    refine ⟨howners, congrArg (fun b : Base => { b with today := none }) hbase, fun he =>
      (congrArg Kept.contexts (hall he) : d.rooms.contexts = c.rooms.contexts), hquiet,
      ⟨hzone, hlead, hbookings, hlast, howed, hpower, fun h => ?_, fun _ _ => congrArg Base.today hbase, congrArg Base.wake hbase,
        congrArg Base.causes hbase, congrArg Base.alarm hbase⟩⟩
    rw [hset] at h
    cases h

/-! ## The link and the whole (R186, R187) -/

theorem wipeLink_spec (c : Core) : owners (wipeLink c) = owners c ∧ (wipeLink c).clock = c.clock ∧ (wipeLink c).slots = c.slots ∧
    kept (wipeLink c) = { kept c with base := { (kept c).base with mode := .level, gap := 4, powerKey := 0x0C#8 } } := by
  have hmode : ∀ l : Link, (l.withMode .level 4).mode = .level ∧ (l.withMode .level 4).gap = 4 := fun l => by
    unfold Link.withMode
    dsimp only
    split
    · exact ⟨rfl, rfl⟩
    · exact ⟨rfl, rfl⟩
  refine ⟨rfl, rfl, rfl, ?_⟩
  unfold wipeLink kept
  rw [setLink_link]
  dsimp only
  rw [(hmode c.link).1, (hmode c.link).2]
  rfl

/-- The store blank, with the wipe's end posted. -/
def storeBlank (c : Core) : Core :=
  let failed := c.store.wipeFailed
  let state := if failed = true then StoreState.fault else .idle
  let erased := { c with store := { c.store with
    pages := Vector.replicate 128 .blank, state := state, activity := .none, job := none, banks := [], wipeFailed := false, whole := [], floor := 0
    faultCause := if failed = true then some .wiped else none } }
  post (.storeState state (some .wiped) (erasedCount erased.store) none none) erased

theorem storeBlank_spec (c : Core) : owners (storeBlank c) = owners c ∧ kept (storeBlank c) = kept c ∧ (storeBlank c).clock = c.clock ∧
    (storeBlank c).slots = c.slots := ⟨rfl, post_kept, rfl, rfl⟩

/-- The wipe's end up to the retest of the bulletins. -/
def wiped (c : Core) : Core :=
  wipeLink (wipeClock (wipeGuide (wipeLimits (wipePurchases (wipeAccess (setAcqLimit 800 (wipeDirectory (storeBlank c))))))))

theorem completeWipe_eq (c : Core) : completeWipe c = retestKept (wiped c) := rfl

theorem setAcqLimit_owners (n : Nat) (c : Core) : owners (setAcqLimit n c) = owners c := rfl
theorem wipeGuide_owners (c : Core) : owners (wipeGuide c) = owners c := rfl

theorem setAcqLimit_kept (n : Nat) (c : Core) : kept (setAcqLimit n c) = { kept c with base := { (kept c).base with acqLimit := n } } := rfl

theorem wipeAccess_spec (c : Core) : owners (wipeAccess c) = { owners c with access := wipedAccess (owners c).access } ∧
    kept (wipeAccess c) = kept c ∧ (wipeAccess c).clock = c.clock ∧ (wipeAccess c).slots = c.slots :=
  ⟨rfl, post_kept (c := { c with access := wipedAccess c.access }), rfl, rfl⟩

/-- The blocks of the owners at the end. -/
theorem wiped_owners (c : Core) : ∃ owed u, UplinkWiped (owners c).uplink u ∧ owners (wiped c) =
    { dir := { (owners c).dir with home := none, owed := owed }, access := wipedAccess (owners c).access
      limits := wipedLimits (owners c).limits, purchase := wipedPurchase (owners c).purchase, uplink := u } := by
  obtain ⟨⟨owed, hdir⟩, -⟩ := wipeDirectory_spec (storeBlank c)
  obtain ⟨⟨u, hu, hpurchase⟩, -⟩ := wipePurchases_spec (wipeAccess (setAcqLimit 800 (wipeDirectory (storeBlank c))))
  have hgrants := (wipeAccess_spec (setAcqLimit 800 (wipeDirectory (storeBlank c)))).1
  rw [setAcqLimit_owners, hdir, (storeBlank_spec c).1] at hgrants
  rw [hgrants] at hu hpurchase
  refine ⟨owed, u, hu, ?_⟩
  rw [wiped, (wipeLink_spec _).1, (wipeClock_spec _).1, wipeGuide_owners, (wipeLimits_spec _).1, hpurchase]

theorem wipeGuide_clock (c : Core) : (wipeGuide c).clock = c.clock := rfl

theorem wipeGuide_quiet (c : Core) : Quiet c (wipeGuide c) := .of_slots rfl

theorem setAcqLimit_quiet (n : Nat) (c : Core) : Quiet c (setAcqLimit n c) := .of_slots rfl

theorem wipeGuide_kept (c : Core) :
    kept (wipeGuide c) = { kept c with base := { (kept c).base with interval := 240, reload := 14400000 } } := rfl

/-- The wipe's end up to the clock. -/
def guideWiped (c : Core) : Core := wipeGuide (wipeLimits (wipePurchases (wipeAccess (setAcqLimit 800 (wipeDirectory (storeBlank c))))))

theorem wiped_eq (c : Core) : wiped c = wipeLink (wipeClock (guideWiped c)) := rfl

/-- What stands before the clock is wiped. -/
theorem guideWiped_spec (c : Core) :
    (kept (guideWiped c)).base = { (kept c).base with acqLimit := 800, interval := 240, reload := 14400000 } ∧
    ContextsReset (kept (guideWiped c)) ∧ (guideWiped c).clock.time = c.clock.time ∧ (guideWiped c).clock.power = c.clock.power ∧
    Quiet c (guideWiped c) := by
  unfold guideWiped
  obtain ⟨-, hstore, hclock0, hslots0⟩ := storeBlank_spec c
  generalize storeBlank c = c0 at *
  obtain ⟨-, hdir, htime1, hquiet1⟩ := wipeDirectory_spec c0
  generalize wipeDirectory c0 = c1 at *
  obtain ⟨-, haccess, hclock2, hslots2⟩ := wipeAccess_spec (setAcqLimit 800 c1)
  rw [setAcqLimit_kept] at haccess
  rw [setAcqLimit_clock] at hclock2
  generalize wipeAccess (setAcqLimit 800 c1) = c2 at *
  obtain ⟨-, hpurchase, htime3, hquiet3⟩ := wipePurchases_spec c2
  generalize wipePurchases c2 = c3 at *
  obtain ⟨-, hlimits, hcontexts, htime4, hquiet4⟩ := wipeLimits_spec c3
  generalize wipeLimits c3 = c4 at *
  refine ⟨?_, hcontexts, ?_, ?_, ?_⟩
  · rw [wipeGuide_kept, hlimits, hpurchase, haccess, hdir, hstore]
  · rw [wipeGuide_clock, htime4.time, htime3.time, hclock2, htime1.time, hclock0]
  · rw [wipeGuide_clock, htime4.power, htime3.power, hclock2, htime1.power, hclock0]
  · have h1 : Quiet c (setAcqLimit 800 c1) := ((Quiet.of_slots hslots0).trans hquiet1).trans (setAcqLimit_quiet 800 c1)
    exact (((h1.trans (.of_slots hslots2)).trans hquiet3).trans hquiet4).trans (wipeGuide_quiet c4)

/-- The tracked values, the clock and the kept bulletins at the end. -/
theorem wiped_values (c : Core) :
    { (kept (wiped c)).base with today := none } = { (kept c).base with
      today := none, acqLimit := 800, interval := 240, reload := 14400000, mode := .level, gap := 4, powerKey := 0x0C#8 } ∧
    ContextsReset (kept (wiped c)) ∧ ClockWiped c.clock (wiped c).clock ∧ Quiet c (wiped c) := by
  obtain ⟨hbase, hcontexts, htime, hpower, hquiet⟩ := guideWiped_spec c
  obtain ⟨-, hclock, hall, hquiet', hwiped⟩ := wipeClock_spec (guideWiped c)
  obtain ⟨-, hlinkClock, hslots, hlink⟩ := wipeLink_spec (wipeClock (guideWiped c))
  rw [wiped_eq]
  generalize guideWiped c = g at *
  have htoday : g.clock.today = c.clock.today := congrArg Base.today hbase
  have hwake : g.clock.wake = c.clock.wake := congrArg Base.wake hbase
  have hcauses : g.clock.causes = c.clock.causes := congrArg Base.causes hbase
  have halarm : g.clock.alarm = c.clock.alarm := congrArg Base.alarm hbase
  rw [hlink, hlinkClock]
  refine ⟨?_, fun r => ?_, ⟨hwiped.zone, hwiped.lead, hwiped.bookings, hwiped.lastId, hwiped.owedBookings, hwiped.power.trans hpower,
    fun h => hwiped.unset (htime.trans h), fun t h => (hwiped.set t (htime.trans h)).trans htoday, hwiped.wake.trans hwake,
    hwiped.causes.trans hcauses, hwiped.alarm.trans halarm⟩, (hquiet.trans hquiet').trans (.of_slots hslots)⟩
  · rw [hbase] at hclock
    exact congrArg (fun b : Base => { b with mode := .level, gap := 4, powerKey := 0x0C#8 }) hclock
  · rw [← hcontexts r, ← hall hcontexts.eventless]

end Sys2Proof.Machine
end

section
/-! WIPE ACCOUNT and the bank erases (R187). -/

namespace Sys2Proof.Machine

open Sys2Proof

theorem exec_bankEraseDone (blank : Bool) (s : State) : exec (.bankEraseDone blank) s = .next (onCore (bankEraseDone blank) s) := rfl

/-! ## The wipe begins -/

theorem wipeAccount_misfit {pin : Option Pin} {d : Pin} (c : Core) (hp : pin = some d) (h : ¬pinFormed d = true) :
    wipeAccount pin c = (.bare .badRequest, c) := by
  subst hp
  exact if_pos (by simpa using h)

/-- The store as the wipe begins. -/
def wipeBegun (st : Store) : Store :=
  { st with
    state := .wiping, queue := [], run := none, suspended := false, served := 0, eraseLeft := none, faultCause := none,
    faultPage := none, wipeFailed := false, banks := [], activity := if st.activity.runsToEnd then st.activity else .none }

theorem foldl_toldEnded_store (l : List StoreKey) (c : Core) : (l.foldl (fun c k => toldEnded false k c) c).store = c.store := by
  induction l generalizing c with
  | nil => rfl
  | cons k l ih => rw [List.foldl_cons, ih, toldEnded_store]

/-- The owners are told of the commits that are dropped. -/
def droppedTold (c : Core) : Core :=
  (c.store.queue.map (·.key)).foldl (fun c k => toldEnded false k c) (setStore (wipeBegun c.store) c)

theorem droppedTold_store (c : Core) : (droppedTold c).store = wipeBegun c.store := foldl_toldEnded_store _ _

theorem beginWipe_runs {c : Core} (h : c.store.activity.runsToEnd = true) : beginWipe c = droppedTold c := if_pos h

theorem beginWipe_pursues {c : Core} (h : ¬c.store.activity.runsToEnd = true) : beginWipe c = pursueWipe (droppedTold c) := if_neg h

theorem beginBanks_only (l : List (Fin 8)) (st : Store) : ∃ activity banks, beginBanks l st = { st with activity := activity, banks := banks } := by
  cases l with
  | nil => exact ⟨_, _, rfl⟩
  | cons b l => exact ⟨_, _, rfl⟩

theorem pursueWipe_only (c : Core) : ∃ activity banks, (pursueWipe c).store = { c.store with activity := activity, banks := banks } := by
  unfold pursueWipe
  split
  · exact ⟨_, _, rfl⟩
  · split
    · exact ⟨_, _, rfl⟩
    · exact beginBanks_only (bankOrder none) c.store
  · exact beginBanks_only (bankOrder none) c.store

theorem beginWipe_store (c : Core) : ∃ activity banks, (beginWipe c).store = { wipeBegun c.store with activity := activity, banks := banks } := by
  by_cases h : c.store.activity.runsToEnd = true
  · rw [beginWipe_runs h, droppedTold_store]
    exact ⟨_, _, rfl⟩
  · rw [beginWipe_pursues h, ← droppedTold_store]
    exact pursueWipe_only _

theorem beginWipe_waits {c : Core} (h : c.store.activity.runsToEnd = true) : (beginWipe c).store.activity = c.store.activity := by
  rw [beginWipe_runs h, droppedTold_store]
  exact if_pos h

theorem beginWipe_marks {c : Core} {p : PageNo} (h : c.store.activity = .none) (hp : openPage c.store = some p)
    (hf : 16 ≤ pageFree (page c.store p)) : (beginWipe c).store.activity = .mark (.wipe p) false .wipe := by
  have hopen : openPage (droppedTold c).store = some p := by
    rw [droppedTold_store]
    exact hp
  have hroom : roomFor' (droppedTold c).store 16 = .here := roomFor'_here hopen (by rw [droppedTold_store]; exact hf)
  rw [beginWipe_pursues (by rw [h]; nofun), pursueWipe, hroom, hopen]
  rfl

theorem beginWipe_banks {c : Core} (h : c.store.activity = .none) (hp : openPage c.store = none) (he : nextErased c.store = none) :
    (beginWipe c).store.activity = .bankErase 0 ∧ (beginWipe c).store.banks = [1, 2, 3, 4, 5, 6, 7] := by
  have hopen : openPage (droppedTold c).store = none := by
    rw [droppedTold_store]
    exact hp
  have herased : nextErased (droppedTold c).store = none := by
    rw [droppedTold_store]
    exact he
  have hroom : roomFor' (droppedTold c).store 16 = .nowhere := by
    unfold roomFor'
    rw [hopen, herased]
  rw [beginWipe_pursues (by rw [h]; nofun), pursueWipe, hroom]
  exact ⟨rfl, rfl⟩

/-! ## A bank erase ends -/

theorem foldl_setPage_blank (l : List PageNo) (st : Store) : ∃ pages, l.foldl (fun st p => setPage p .blank st) st = { st with pages := pages } ∧
    ∀ p, page { st with pages := pages } p = if p ∈ l then .blank else page st p := by
  induction l generalizing st with
  | nil => exact ⟨st.pages, rfl, fun p => by simp⟩
  | cons q l ih =>
    obtain ⟨pages, he, hp⟩ := ih (setPage q .blank st)
    refine ⟨pages, he, fun p => (hp p).trans ?_⟩
    rw [page_setPage]
    by_cases hq : p = q
    · simp [hq]
    · simp [hq]

theorem mem_bank {b : Fin 8} {p : PageNo} : p ∈ allPages.filter (inBank b) ↔ p.val / 16 = b.val := by
  rw [List.mem_filter, inBank, beq_iff_eq, bankOf, Fin.ext_iff]
  exact and_iff_right (List.mem_finRange p)

theorem blankBank_spec (b : Fin 8) (st : Store) : ∃ pages, blankBank b st = { st with pages := pages } ∧
    ∀ p, page { st with pages := pages } p = if p.val / 16 = b.val then .blank else page st p := by
  obtain ⟨pages, he, hp⟩ := foldl_setPage_blank (allPages.filter (inBank b)) st
  refine ⟨pages, he, fun p => (hp p).trans ?_⟩
  simp only [mem_bank]

section
variable {c : Core} {b : Fin 8} {blank : Bool}

theorem bankEraseDone_other (blank : Bool) (h : ∀ b, c.store.activity ≠ .bankErase b) : bankEraseDone blank c = c := by
  unfold bankEraseDone
  split
  · next b hb => exact absurd hb (h b)
  · rfl

/-- The store with the bank blank, and the failure noted. -/
def bankErased (b : Fin 8) (blank : Bool) (st : Store) : Store :=
  { blankBank b st with wipeFailed := (blankBank b st).wipeFailed || !blank }

theorem blankBank_banks (b : Fin 8) (st : Store) : (blankBank b st).banks = st.banks := by
  obtain ⟨pages, he, -⟩ := blankBank_spec b st
  rw [he]

theorem bankErased_wipeFailed (b : Fin 8) (blank : Bool) (st : Store) :
    (bankErased b blank st).wipeFailed = (st.wipeFailed || !blank) := by
  obtain ⟨pages, he, -⟩ := blankBank_spec b st
  rw [bankErased, he]

theorem bankEraseDone_goesOn {x : Fin 8} {rest : List (Fin 8)} (h : c.store.activity = .bankErase b) (hb : c.store.banks = x :: rest) :
    bankEraseDone blank c = setStore (beginBanks (x :: rest) (bankErased b blank c.store)) c := by
  have hbanks := (blankBank_banks b c.store).trans hb
  unfold bankEraseDone
  rw [h]
  dsimp only
  rw [← bankErased, hbanks]

theorem bankEraseDone_ends (h : c.store.activity = .bankErase b) (hb : c.store.banks = []) :
    bankEraseDone blank c = completeWipe (setStore (bankErased b blank c.store) c) := by
  have hbanks := (blankBank_banks b c.store).trans hb
  unfold bankEraseDone
  rw [h]
  dsimp only
  rw [← bankErased, hbanks]

end

/-! ## The wipe's end -/

theorem completeWipe_steady' (c : Core) : Steady (storeBlank c) (completeWipe c) :=
  retestKept_steady (wipeLink_steady (wipeClock_steady (wipeGuide_steady (wipeLimits_steady (wipePurchases_steady (wipeAccess_steady
    (setAcqLimit_steady (wipeDirectory_steady (.refl (storeBlank c))))))))))

theorem page_replicate {st : Store} (h : st.pages = Vector.replicate 128 .blank) (p : PageNo) : page st p = .blank := by
  rw [page, h]
  exact Vector.getElem_replicate _

/-- The store at the wipe's end. -/
theorem completeWipe_store (c : Core) : (completeWipe c).store.state = (if c.store.wipeFailed = true then .fault else .idle) ∧
    ∀ p, page (completeWipe c).store p = .blank := by
  have hsteady := completeWipe_steady' c
  have hstate : (storeBlank c).store.state = if c.store.wipeFailed = true then .fault else .idle := rfl
  have hrunning : (storeBlank c).store.state ≠ .erasing := by
    rw [hstate]
    split
    · nofun
    · nofun
  exact ⟨(hsteady.running hrunning).1.trans hstate, page_replicate hsteady.pages⟩

/-- The owners' blocks and the tracked values once the kept bulletins are retested. -/
theorem completeWipe_spec (c : Core) : ∃ owed u, UplinkWiped c.uplink u ∧
    (completeWipe c).dir = { c.dir with home := none, owed := owed } ∧ (completeWipe c).limits = wipedLimits c.limits ∧
    (completeWipe c).access.issue = c.access.issue ∧
    (noneKept c → (completeWipe c).access = wipedAccess c.access ∧ (completeWipe c).purchase = wipedPurchase c.purchase ∧
      (completeWipe c).uplink = u) ∧
    { (kept (completeWipe c)).base with today := none } = { (kept c).base with
      today := none, acqLimit := 800, interval := 240, reload := 14400000, mode := .level, gap := 4, powerKey := 0x0C#8 } ∧
    ContextsReset (kept (completeWipe c)) ∧ ClockWiped c.clock (completeWipe c).clock := by
  obtain ⟨owed, u, hu, howners⟩ := wiped_owners c
  obtain ⟨hbase, hcontexts, hclock, hquiet⟩ := wiped_values c
  rw [completeWipe_eq]
  generalize wiped c = w at *
  have htaken := retestKept_bulletinTaken w
  have hstands : (retestKept w).clock = w.clock := htaken.clock hclock.bookings
  have haccess : w.access = wipedAccess c.access := congrArg Owners.access howners
  refine ⟨owed, u, hu, ?_⟩
  rw [htaken.kept, hstands]
  refine ⟨htaken.dir.trans (congrArg Owners.dir howners), htaken.limits.trans (congrArg Owners.limits howners),
    htaken.issue.trans (congrArg Access.issue haccess :), fun hn => ?_, hbase, hcontexts, hclock⟩
  rw [retestKept_noneKept (hquiet hn)]
  exact ⟨haccess, congrArg Owners.purchase howners, congrArg Owners.uplink howners⟩

/-- Settles O55: the rows of the table in their order, each with what it leaves alone, and the retest of the kept bulletins at the end. -/
theorem wipeErasesBanks : Obligations.WipeErasesBanks := by
  unfold Obligations.WipeErasesBanks
  refine ⟨fun c => ⟨rfl, rfl, rfl, wipePurchases_eq c, rfl, rfl⟩, ?requests⟩
  intro tag pin s i st
  refine ⟨fun hh => ⟨fun d hd hbad => ?misfit, fun c1 hform hpass => ?begins⟩, fun hne blank => ?other, fun b x rest blank ha hb => ?goesOn,
    fun b blank ha hb => ?ends⟩
  case misfit =>
    exact replies_of_answeredWith (exec_wipeAccount tag (some pin) s) hh (wipeAccount_misfit s.core hd (mt pinFormed_iff.mp hbad))
  case begins =>
    have hpages : c1.store.pages = st.pages := (pinCheck_steady' hpass (.refl s.core)).pages
    have hpage : ∀ p, page c1.store p = page st p := fun p => congrArg (fun v : Vector Page 128 => v.get p) hpages
    have hopen : openPage c1.store = openPage st := by
      unfold openPage
      simp only [hpage]
    obtain ⟨activity, banks, hstore⟩ := beginWipe_store c1
    refine ⟨beginWipe c1, replies_of_answeredWith (exec_wipeAccount tag (some pin) s) hh ?_, ?_, ?_, ?_, ?_, fun hruns => ?_,
      fun p hnone hp hfree => ?_, fun hnone hp herased => ?_⟩
    · rw [wipeAccount_checks fun d hd => pinFormed_iff.mpr (hform d hd), withPin_passes hpass]
      rfl
    · rw [hstore]
      rfl
    · rw [hstore]
      rfl
    · rw [hstore]
      rfl
    · rw [hstore]
      exact hpages
    · refine beginWipe_waits ?_
      obtain ⟨b, h⟩ | ⟨r, b, h⟩ | ⟨m, b, n, h⟩ := hruns
      · rw [h]
        rfl
      · rw [h]
        rfl
      · rw [h]
        rfl
    · exact beginWipe_marks hnone (hopen.trans hp) (by rw [hpage]; exact hfree)
    · refine beginWipe_banks hnone (hopen.trans hp) ?_
      cases hn : nextErased c1.store with
      | none => rfl
      | some q =>
        have hq : (page st q).state = .erased := by
          have hfound := List.find?_some hn
          rw [hpage] at hfound
          simpa using hfound
        obtain ⟨q', hq'⟩ := nextErased_of_erased hq
        rw [herased] at hq'
        cases hq'
  case other =>
    rw [exec_bankEraseDone, next_onCore (bankEraseDone_other blank hne)]
  case goesOn =>
    obtain ⟨pages, hblank, hpage⟩ := blankBank_spec b st
    refine ⟨_, next_onCore (bankEraseDone_goesOn ha hb), rfl, rfl, rfl, bankErased_wipeFailed b blank st, fun p => ?_⟩
    have hp : page (bankErased b blank st) p = if p.val / 16 = b.val then .blank else page st p := by
      rw [bankErased, hblank]
      exact hpage p
    exact hp
  case ends =>
    have hfailed := bankErased_wipeFailed b blank st
    obtain ⟨hstate, hpages⟩ := completeWipe_store (setStore (bankErased b blank st) s.core)
    obtain ⟨owed, u, hu, hdir, hlimits, hissue, hgrants, hbase, hcontexts, hclock⟩ :=
      completeWipe_spec (setStore (bankErased b blank st) s.core)
    refine ⟨_, next_onCore (bankEraseDone_ends ha hb), ?_⟩
    rw [show (setStore (bankErased b blank st) s.core).store.wipeFailed = (st.wipeFailed || !blank) from hfailed] at hstate
    generalize completeWipe (setStore (bankErased b blank st) s.core) = d at *
    refine ⟨hstate.trans ?_, hpages, (congrArg Directory.home hdir :), (congrArg Directory.map hdir :), (congrArg Directory.carriers hdir :),
      (congrArg Directory.guideCarrier hdir :), (congrArg Directory.version hdir :), congrArg Base.acqLimit hbase, hissue, fun hn => ?_, hlimits,
      hcontexts, congrArg Base.interval hbase, congrArg Base.reload hbase, congrArg Base.records hbase, hclock.zone, hclock.lead,
      hclock.bookings, hclock.lastId, hclock.owedBookings, hclock.unset, hclock.set, hclock.power, hclock.wake, hclock.causes,
      hclock.alarm, congrArg Base.mode hbase, congrArg Base.gap hbase, congrArg Base.powerKey hbase⟩
    · cases blank with
      | true => cases st.wipeFailed with
        | true => rfl
        | false => rfl
      | false => cases st.wipeFailed with
        | true => rfl
        | false => rfl
    · obtain ⟨haccess, hpurchase, huplink⟩ := hgrants hn
      rw [haccess, hpurchase, huplink]
      exact ⟨rfl, rfl, rfl, rfl, rfl, rfl, hu.mode, hu.interval, hu.parity, hu.pendingFlag, hu.report, hu.reportTimer⟩

end Sys2Proof.Machine
end

section
/-! A tuner that the sweep gives up (R27, R116). -/

namespace Sys2Proof.Machine

open Sys2Proof

/-! ## What leaves the guide alone -/

theorem reevaluate_guide (c : Core) : (reevaluate c).guide = c.guide := (reevaluate_sessions (.refl c)).guide

theorem purchaseOffer_guide (o : Output) (c : Core) : (purchaseOffer o c).guide = c.guide := (purchaseOffer_sessions (.refl c)).guide

theorem endEventGrant_guide (o : Output) (c : Core) : (endEventGrant o c).guide = c.guide := by
  unfold endEventGrant
  split
  · rfl
  · dsimp only
    split
    · split
      · rfl
      · rfl
    · rfl

theorem testSession_guide (c : Core) (o : Output) : (testSession c o).guide = c.guide := by
  have hrenewed : ∀ d : Core, d.guide = c.guide → (reevaluate (endEventGrant o d)).guide = c.guide := fun d hd => by
    rw [reevaluate_guide, endEventGrant_guide, hd]
  unfold testSession
  dsimp only
  split
  · split
    · rfl
    · split
      · rw [purchaseOffer_guide]
        exact hrenewed _ rfl
      · exact hrenewed _ rfl
  · rfl

theorem testPresent_guide (c : Core) : (testPresent c).guide = c.guide := by
  have hfold : ∀ (l : List Output) (c : Core), (l.foldl testSession c).guide = c.guide := by
    intro l
    induction l with
    | nil => exact fun c => rfl
    | cons o l ih => exact fun c => (ih _).trans (testSession_guide c o)
  exact hfold _ c

/-- All of the guide but the markers stands. -/
def MarkersOnly (c c' : Core) : Prop := ∃ markers, c'.guide = { c.guide with markers := markers }

theorem MarkersOnly.of_guide {c c' : Core} (h : c'.guide = c.guide) : MarkersOnly c c' := ⟨_, h⟩

theorem MarkersOnly.trans {a b c : Core} (h : MarkersOnly a b) (h' : MarkersOnly b c) : MarkersOnly a c := by
  obtain ⟨_, h⟩ := h
  obtain ⟨m, h'⟩ := h'
  exact ⟨m, by rw [h', h]⟩

theorem carrierUnlocked_markersOnly {stop : Output → Core → Core} {x : Option Carrier} {c : Core} (hn : noneExtended c) :
    MarkersOnly c (carrierUnlocked stop x c) := by
  unfold carrierUnlocked
  split
  · exact .of_guide rfl
  · rw [removeMarkers_noneExtended hn]
    exact ⟨_, testPresent_guide _⟩

theorem closeTunerSlots_guide (t : Fin 4) (c : Core) : (closeTunerSlots t c).guide = c.guide := by
  have hfold : ∀ (l : List (Fin 4)) (c : Core),
      (l.foldl (fun c k => if (keySlot c k).filter == some t then setKeySlot k { keySlot c k with filter := none } c else c) c).guide =
        c.guide := by
    intro l
    induction l with
    | nil => exact fun c => rfl
    | cons k l ih =>
      intro c
      rw [List.foldl_cons, ih]
      split
      · rfl
      · rfl
  unfold closeTunerSlots
  rw [hfold, closeWhere_frame]

theorem settleControl_guide (c : Core) : (settleControl c).guide = c.guide := by
  obtain ⟨_, h⟩ := settleControl_frame c
  rw [h]

/-! ## Standby watch is tested (R24) -/

/-- What a test of standby watch leaves of the guide, the commands and the sweep's holdings. -/
structure WatchTested (c c' : Core) : Prop where
  guide : c'.guide = c.guide
  line : ∃ more, c'.arb.line = c.arb.line ++ more
  sweep : ∀ v, (tuner c v).holders.has .sweep = false → (tuner c' v).holders.has .sweep = false

theorem has_setTuner {t : Fin 4} {u : Tuner} {c d : Core} (hd : ∀ v, tuner d v = tuner c v) (hu : (tuner c t).holders.has .sweep = false →
    u.holders.has .sweep = false) {v : Fin 4} (hv : (tuner c v).holders.has .sweep = false) :
    (tuner (setTuner t u d) v).holders.has .sweep = false := by
  by_cases hvt : v = t
  · subst hvt
    rw [tuner_setTuner]
    exact hu hv
  · rw [tuner_setTuner_ne _ _ (Ne.symm hvt), hd]
    exact hv

theorem watchTest_tested (c : Core) : WatchTested c (watchTest c) := by
  have hstands : WatchTested c c := ⟨rfl, ⟨[], by simp⟩, fun _ h => h⟩
  unfold watchTest
  split
  · exact hstands
  · split
    · split
      · next t _ =>
        have hput : (tuner c t).holders.has .sweep = false → ((tuner c t).holders.put .watch true).has .sweep = false := id
        exact ⟨rfl, ⟨[], by simp [setHolder]⟩, fun v hv =>
          has_setTuner (u := { tuner c t with holders := (tuner c t).holders.put .watch true }) (fun _ => rfl) hput hv⟩
      · rw [tune_eq]
        exact ⟨rfl, ⟨_, rfl⟩, fun v hv => has_setTuner (fun _ => rfl) (fun _ => rfl) hv⟩
      · unfold startHold
        split
        · exact ⟨rfl, ⟨[], by simp⟩, fun _ h => h⟩
        · exact hstands
    · exact hstands

/-! ## The tuner that only the sweep held (R27) -/

/-- A tuner that is left hands out its filters, its lane map and the loss of its carrier; standby watch may be tested after that. -/
theorem handLeft_before (t : Fin 4) (u : Tuner) {c : Core} (hn : noneExtended c) : ∃ d, Calm c d ∧ TunersOnly c d ∧ MarkersOnly c d ∧
    (handLeft stopSession t u c = d ∨ (u.state = .locked ∧ handLeft stopSession t u c = watchTest d)) := by
  have hcalm : Calm c (setLaneMap t .empty (settleControl (closeTunerSlots t c))) :=
    setLaneMap_calm (settleControl_calm (closeTunerSlots_calm (.refl hn)))
  have htuners : TunersOnly c (setLaneMap t .empty (settleControl (closeTunerSlots t c))) :=
    setLaneMap_tuners (settleControl_tuners (closeTunerSlots_tuners (.refl c)))
  have hguide : MarkersOnly c (setLaneMap t .empty (settleControl (closeTunerSlots t c))) :=
    .of_guide ((setLaneMap_guide _ _ _).trans ((settleControl_guide _).trans (closeTunerSlots_guide t c)))
  unfold handLeft
  dsimp only
  generalize setLaneMap t .empty (settleControl (closeTunerSlots t c)) = e at *
  have hpart : ∃ d, (if (u.state = .locked || u.state = .lost) = true then carrierUnlocked stopSession u.carrier e else e) = d ∧
      Calm c d ∧ TunersOnly c d ∧ MarkersOnly c d := by
    split
    · exact ⟨_, rfl, carrierUnlocked_calm hcalm, carrierUnlocked_tuners (fun _ _ h => stopSession_tuners h) htuners,
        hguide.trans (carrierUnlocked_markersOnly hcalm.none)⟩
    · exact ⟨_, rfl, hcalm, htuners, hguide⟩
  obtain ⟨d, hd, hdc, hdt, hdm⟩ := hpart
  rw [hd]
  refine ⟨d, hdc, hdt, hdm, ?_⟩
  split
  · next hl => exact .inr ⟨of_decide_eq_true (Bool.and_eq_true _ _ ▸ hl).1, rfl⟩
  · exact .inl rfl

/-- The tuner goes OFF by its command; more commands follow only where standby watch is tested. -/
structure SweepLeft (t : Fin 4) (c c' : Core) : Prop where
  guide : MarkersOnly c c'
  gone : (tuner c' t).holders.has .sweep = false
  line : ∃ more, c'.arb.line = c.arb.line ++ ⟨t, (tuner c t).count + 1, none⟩ :: more ∧
    ((tuner c t).state ≠ .locked ∨ c.dir.home = none → more = [] ∧ (tuner c' t).state = .off ∧ (tuner c' t).carrier = none ∧
      (tuner c' t).holders = .none ∧ ∀ v, v ≠ t → tuner c' v = tuner c v)

theorem sweepLeft_of_calm {t : Fin 4} {c d : Core} (hcalm : Calm (turnOff t c) d) (hguide : MarkersOnly c d) : SweepLeft t c d := by
  have htuner : tuner d t = tuner (turnOff t c) t := hcalm.tuner t
  rw [turnOff_eq, tuner_setTuner] at htuner
  refine ⟨hguide, by rw [htuner]; rfl, [], ?_, fun _ => ⟨rfl, by rw [htuner], by rw [htuner], by rw [htuner], fun v hv => ?_⟩⟩
  · rw [hcalm.arb, turnOff_eq]
    rfl
  · rw [hcalm.tuner v, tuner_turnOff_ne c (Ne.symm hv)]

theorem goOff_sweepLeft {t : Fin 4} {c : Core} (hn : noneExtended c) : SweepLeft t c (goOff stopSession t c) := by
  obtain ⟨d, hcalm, htuners, hguide, hleft⟩ := handLeft_before t (tuner c t) (noneExtended_turnOff (t := t) hn)
  have hoff : (turnOff t c).guide = c.guide ∧ (turnOff t c).dir = c.dir := by
    rw [turnOff_eq]
    exact ⟨rfl, rfl⟩
  have hmarkers : MarkersOnly c d := (MarkersOnly.of_guide hoff.1).trans hguide
  have hbefore := sweepLeft_of_calm hcalm hmarkers
  unfold goOff
  dsimp only
  obtain hleft | ⟨hlocked, hleft⟩ := hleft
  · rw [hleft]
    exact hbefore
  · rw [hleft]
    have htest := watchTest_tested d
    obtain ⟨more, hmore⟩ := htest.line
    obtain ⟨none, hnone, hstands⟩ := hbefore.line
    refine ⟨hmarkers.trans (.of_guide htest.guide), htest.sweep t hbefore.gone, none ++ more, ?_, fun h => ?_⟩
    · rw [hmore, hnone]
      simp
    · have hhome : d.dir.home = .none := by
        rw [htuners.dir, hoff.2]
        exact h.resolve_left (not_not_intro hlocked)
      obtain ⟨he, hrest⟩ := hstands h
      rw [watchTest_noHome hhome] at hmore ⊢
      have hmoreNil : more = [] := by simpa using hmore
      exact ⟨by rw [he, hmoreNil]; rfl, hrest⟩

end Sys2Proof.Machine
end

section
/-! The sweep begins and ends (R112 to R116). -/

namespace Sys2Proof.Machine

open Sys2Proof

theorem exec_refreshGuide (tag : Byte) (a : Option (Option Nat)) (s : State) : exec (.refreshGuide tag a) s = execRefreshGuide tag a s := rfl
theorem exec_sweepTimer (s : State) : exec .sweepTimer s = .next (onCore sweepTimerExpired s) := rfl
theorem exec_sweepLimit (s : State) : exec .sweepLimit s = .next (onCore sweepLimitExpired s) := rfl

/-! ## The blocks at the start of a sweep (R113) -/

/-- The guide with the blocks as a sweep starts: emptied after a FRESH end, and as they were after another. -/
def blocksStarted (c : Core) : Core :=
  if c.guide.sweep.next = .fresh then allBlocks.foldl (fun c k => setBlock k (freshBlock (block c k)) c) c else c

/-- What the start leaves of the blocks: their versions, and the seen-sets for a sweep that resumes. -/
def BlocksStarted (next : NextStart) (c c' : Core) : Prop :=
  ∀ k, (block c' k).version = (block c k).version ∧ (block c' k).last = (block c k).last ∧
    (next = .fresh → (block c' k).seen = [] ∧ (block c' k).complete = false) ∧ (next = .resume → block c' k = block c k)

theorem blocksStarted_spec (c : Core) : ∃ b, blocksStarted c = { c with guide := { c.guide with blocks := b } } ∧
    BlocksStarted c.guide.sweep.next c { c with guide := { c.guide with blocks := b } } := by
  unfold blocksStarted
  split
  · next hfresh =>
    obtain ⟨b, he, hb⟩ := freshBlocks c
    refine ⟨b, he, fun k => ?_⟩
    rw [hb k]
    exact ⟨rfl, rfl, fun _ => ⟨rfl, rfl⟩, fun hr => by rw [hr] at hfresh; cases hfresh⟩
  · next hfresh => exact ⟨c.guide.blocks, rfl, fun k => ⟨rfl, rfl, fun hf => absurd hf hfresh, fun _ => rfl⟩⟩

theorem beginSweep_eq (c : Core) : beginSweep c =
    match guideCarrier (blocksStarted c) with
    | none => endSweep (blocksStarted c)
    | some x =>
      match (planClaim (blocksStarted c) .sweep x .host).answer (blocksStarted c) with
      | none => endSweep (blocksStarted c)
      | some (t, st) =>
        let state := if st = .acquiring then SweepState.tuning else .collecting
        let d := setGuide { (blocksStarted c).guide with sweep := { (blocksStarted c).guide.sweep with
          state := state, tuner := some t, timer := (blocksStarted c).guide.sweep.timer.stop, limit := Timer.start 120000 } } (blocksStarted c)
        let d := carryOut .sweep x (planClaim (blocksStarted c) .sweep x .host) d
        if state = .collecting then openSchedule t d else d := rfl

/-! ## A sweep that takes a tuner (R112) -/

/-- The tuner that the sweep takes: the lowest OFF one, while none is on the guide carrier. -/
def SweepStarts (c : Core) (x : Carrier) (t : Fin 4) : Prop :=
  guideCarrier c = some x ∧ tunerOn c x = none ∧ (tuner c t).state = .off ∧ (∀ v, v < t → (tuner c v).state ≠ .off) ∧
    heldTuner c .sweep = none

/-- The sweep that waits for its tuner. -/
def sweepTuning (timer : Timer) (t : Fin 4) (w : Sweep) : Sweep :=
  { w with state := .tuning, tuner := some t, timer := timer, limit := ⟨120000, 120000, true⟩ }

/-- What the start of a sweep leaves. -/
structure SweepBegun (timer : Timer) (x : Carrier) (t : Fin 4) (c0 c : Core) : Prop where
  only : c = { c0 with guide := c.guide, arb := c.arb }
  sweep : c.guide.sweep = sweepTuning timer t c0.guide.sweep
  interval : c.guide.interval = c0.guide.interval
  records : c.guide.records = c0.guide.records
  markers : c.guide.markers = c0.guide.markers
  blocks : BlocksStarted c0.guide.sweep.next c0 c
  state : (tuner c t).state = .acquiring
  carrier : (tuner c t).carrier = some x
  holders : (tuner c t).holders = Holders.none.put .sweep true
  others : ∀ v, v ≠ t → tuner c v = tuner c0 v
  line : c.arb.line = c0.arb.line ++ [⟨t, (tuner c0 t).count + 1, some x⟩]

/-- A sweep whose guide carrier no tuner is on takes the lowest OFF tuner. -/
theorem beginSweep_starts {c : Core} {x : Carrier} {t : Fin 4} (h : SweepStarts c x t) :
    SweepBegun c.guide.sweep.timer.stop x t c (beginSweep c) := by
  obtain ⟨hcarrier, hon, hoff, hlow, hheld⟩ := h
  obtain ⟨b, hb, hblocks⟩ := blocksStarted_spec c
  have hplan : planClaim (blocksStarted c) .sweep x .host = .take t := by
    rw [hb]
    exact planClaim_sweep_take hon hoff hlow
  have hguide : guideCarrier (blocksStarted c) = some x := by
    rw [hb]
    exact hcarrier
  have hbegin : beginSweep c = carryOut .sweep x (.take t) (setGuide { (blocksStarted c).guide with
      sweep := sweepTuning (blocksStarted c).guide.sweep.timer.stop t (blocksStarted c).guide.sweep } (blocksStarted c)) := by
    rw [beginSweep_eq, hguide]
    dsimp only
    rw [hplan]
    rfl
  have hcarry : ∀ w, carryOut .sweep x (.take t) (setGuide w c) = tune t x (Holders.none.put .sweep true) (setGuide w c) := fun w => by
    have hd : heldTuner (setGuide w c) .sweep = none := hheld
    unfold carryOut
    dsimp only
    rw [hd]
    rfl
  have htake : ∀ w, carryOut .sweep x (.take t) (setGuide w { c with guide := { c.guide with blocks := b } }) =
      tune t x (Holders.none.put .sweep true) (setGuide w c) := hcarry
  rw [hbegin, hb, htake, tune_eq]
  refine ⟨rfl, rfl, rfl, rfl, rfl, hblocks, ?_, ?_, ?_, fun v hv => ?_, rfl⟩
  · rw [tuner_setTuner]
  · rw [tuner_setTuner]
  · rw [tuner_setTuner]
  · rw [tuner_setTuner_ne _ _ (Ne.symm hv)]
    rfl

/-! ## A sweep that finds no tuner (R116) -/

/-- The sweep finds no carrier, or no tuner for it. -/
def SweepFails (c : Core) : Prop :=
  heldTuner c .sweep = none ∧ (guideCarrier c = none ∨
    ∃ x, guideCarrier c = some x ∧ tunerOn c x = none ∧ ∀ v, (tuner c v).state ≠ .off ∧ (tuner c v).holders.only .sweep = false)

/-- The sweep at its end, to be tried again in 600 s. -/
def sweepEnded (interval : Nat) (limit : Timer) : Sweep :=
  ⟨.idle, ⟨interval * 60000, 600000, true⟩, { limit with running := false }, .resume, none⟩

/-- No slot feeds the schedule, and the others stand. -/
def ScheduleClosed (c c' : Core) : Prop :=
  ∀ i, (slot c' i).feeds .schedule = false ∧ ((slot c i).feeds .schedule = false → slot c' i = slot c i)

/-- What a start that fails leaves. -/
structure SweepFailed (c0 c : Core) : Prop where
  only : c = { c0 with guide := c.guide, slots := c.slots }
  sweep : c.guide.sweep = sweepEnded c0.guide.interval c0.guide.sweep.limit
  interval : c.guide.interval = c0.guide.interval
  records : c.guide.records = c0.guide.records
  markers : c.guide.markers = c0.guide.markers
  blocks : BlocksStarted c0.guide.sweep.next c0 c
  schedule : ScheduleClosed c0 c

theorem beginSweep_fails {c : Core} (h : SweepFails c) : SweepFailed c (beginSweep c) := by
  obtain ⟨hheld, hwhy⟩ := h
  obtain ⟨b, hb, hblocks⟩ := blocksStarted_spec c
  have hend : beginSweep c = endSweep (blocksStarted c) := by
    rw [beginSweep_eq]
    obtain hnone | ⟨x, hx, hon, hall⟩ := hwhy
    · have hguide : guideCarrier (blocksStarted c) = none := by
        rw [hb]
        exact hnone
      rw [hguide]
    · have hguide : guideCarrier (blocksStarted c) = some x := by
        rw [hb]
        exact hx
      have hplan : planClaim (blocksStarted c) .sweep x .host = .refused := by
        rw [hb]
        exact planClaim_sweep_refused hon hall
      rw [hguide]
      dsimp only
      rw [hplan]
      rfl
  obtain ⟨v, he, hv⟩ := endSweep_noTuner (c := { c with guide := { c.guide with blocks := b } }) hheld
  rw [hend, hb, he]
  exact ⟨rfl, rfl, rfl, rfl, rfl, hblocks, hv⟩

/-! ## The sweep limit (R116) -/

theorem sweepTimerExpired_begins {c : Core} (hr : c.guide.sweep.timer.running = true) (hs : c.guide.sweep.state = .idle) :
    sweepTimerExpired c = beginSweep (setGuide { c.guide with sweep := { c.guide.sweep with timer := c.guide.sweep.timer.expired } } c) := by
  unfold sweepTimerExpired
  dsimp only
  rw [hr, hs]
  rfl

theorem sweepTimerExpired_stands {c : Core} (h : c.guide.sweep.timer.running = false ∨ c.guide.sweep.state ≠ .idle) :
    sweepTimerExpired c = c := by
  refine if_neg ?_
  obtain h | h := h
  · simp [h]
  · simp [h]

theorem sweepLimitExpired_ends {c : Core} (hr : c.guide.sweep.limit.running = true) (hs : c.guide.sweep.state ≠ .idle) :
    sweepLimitExpired c = endSweep (setGuide { c.guide with sweep := { c.guide.sweep with limit := c.guide.sweep.limit.expired } } c) :=
  if_pos (by simp [hr, hs])

theorem sweepLimitExpired_stands {c : Core} (h : c.guide.sweep.limit.running = false ∨ c.guide.sweep.state = .idle) :
    sweepLimitExpired c = c := by
  refine if_neg ?_
  obtain h | h := h
  · simp [h]
  · simp [h]

theorem refreshSweep_idle {c : Core} (hs : c.guide.sweep.state = .idle) : refreshSweep c = beginSweep (setGuide { c.guide with sweep :=
    { c.guide.sweep with timer := ⟨c.guide.interval * 60000, c.guide.interval * 60000, false⟩ } } c) := if_pos hs

theorem refreshSweep_running {c : Core} (hs : c.guide.sweep.state ≠ .idle) : refreshSweep c = c := if_neg hs

/-- The blocks with the sweep ended and its filter closed, its tuner still held. -/
theorem endSweep_eq (c : Core) : ∃ v, endSweep c = release .sweep { c with slots := v, guide := { c.guide with
    sweep := sweepEnded c.guide.interval c.guide.sweep.limit } } ∧ ScheduleClosed c { c with slots := v } := by
  obtain ⟨v, he, hv⟩ := closeSchedule_slots c
  refine ⟨v, ?_, hv⟩
  unfold endSweep
  rw [he]
  rfl

end Sys2Proof.Machine
end

section
/-! Schedule segments, and the guide sweep as a whole (R111 to R116). -/

namespace Sys2Proof.Machine

open Sys2Proof

/-! ## The end by the sweep limit -/

/-- The blocks with the sweep ended by its limit and its filter closed, before its tuner is given up. -/
theorem sweepLimitExpired_releases {c : Core} (hr : c.guide.sweep.limit.running = true) (hs : c.guide.sweep.state ≠ .idle) :
    ∃ v, sweepLimitExpired c = release .sweep { c with slots := v, guide := { c.guide with
      sweep := sweepEnded c.guide.interval { c.guide.sweep.limit with left := 0 } } } ∧ ScheduleClosed c { c with slots := v } := by
  obtain ⟨v, he, hv⟩ := endSweep_eq (setGuide { c.guide with sweep := { c.guide.sweep with limit := c.guide.sweep.limit.expired } } c)
  refine ⟨v, ?_, hv⟩
  rw [sweepLimitExpired_ends hr hs, he]
  rfl

theorem release_sweep_among {c : Core} {t : Fin 4} (h : heldTuner c .sweep = some t) (ho : (tuner c t).holders.only .sweep = false) :
    release .sweep c = setTuner t { tuner c t with holders := (tuner c t).holders.put .sweep false } c := release_among h ho

theorem release_sweep_only {c : Core} {t : Fin 4} (h : heldTuner c .sweep = some t) (ho : (tuner c t).holders.only .sweep = true)
    (hn : noneExtended c) : SweepLeft t c (release .sweep c) := by
  rw [release_only h ho]
  exact goOff_sweepLeft hn

/-! ## A schedule segment (R110, R111) -/

/-- The block of a segment of this version and number, begun anew when they differ. -/
def blockBegun (h : SegmentHeader) (x : BlockState) : BlockState :=
  if x.version = some h.version ∧ x.last = some h.last then x else ⟨some h.version, some h.last, [], false⟩

section
variable {h : SegmentHeader} {rs : List OfferedRecord} {k : Fin 8} {c : Core}

theorem takeSchedule_misfit (hbad : 7 < h.block ∨ h.last < h.number) : takeSchedule h rs c = c := by
  unfold takeSchedule
  split
  · exact if_pos (by omega)
  · rfl

theorem takeSchedule_fits (hk : h.block = k.val) (hl : h.number ≤ h.last) : takeSchedule h rs c =
    let begun := blockBegun h (block c k)
    let offered := rs.foldl (offerRecord (.block h.block h.version)) (setBlock k begun c)
    let joined := testPresent (setBlock k { block offered k with seen := h.number :: begun.seen } offered)
    if begun.seen.contains h.number then setBlock k begun c
    else if seenAll (block joined k).seen h.last then completeBlock k h.version joined else joined := by
  have hlt : h.block < 8 := by rw [hk]; exact k.isLt
  have hkey : (⟨h.block, hlt⟩ : Fin 8) = k := Fin.ext hk
  unfold takeSchedule
  rw [dif_pos hlt, if_neg (Nat.not_lt.mpr hl), hkey]
  rfl

theorem block_of_recordsOnly {d : Core} (hr : RecordsOnly c d) (k : Fin 8) : block d k = block c k := by
  obtain ⟨_, _, _, _, rfl⟩ := hr
  rfl

theorem foldl_offerRecord_block (source : Source) (rs : List OfferedRecord) (c : Core) (k : Fin 8) :
    block (rs.foldl (offerRecord source) c) k = block c k := by
  induction rs generalizing c with
  | nil => rfl
  | cons r rs ih => rw [List.foldl_cons, ih, block_of_recordsOnly (offerRecord_only source c r)]

theorem block_testPresent (c : Core) (k : Fin 8) : block (testPresent c) k = block c k :=
  congrArg (fun g : Guide => g.blocks.get k) (testPresent_guide c)

theorem setBlock_self (k : Fin 8) (c : Core) : setBlock k (block c k) c = c := by
  have hput : putAt c.guide.blocks k (c.guide.blocks.get k) = c.guide.blocks := Vector.set_getElem_self k.isLt
  unfold setBlock block
  rw [hput]
  rfl

theorem takeSchedule_again (hk : h.block = k.val) (hl : h.number ≤ h.last) (hseen : h.number ∈ (blockBegun h (block c k)).seen) :
    takeSchedule h rs c = c := by
  have hsame : blockBegun h (block c k) = block c k := by
    unfold blockBegun at hseen ⊢
    split at hseen
    · next heq => exact if_pos heq
    · cases hseen
  rw [takeSchedule_fits hk hl]
  dsimp only
  rw [if_pos (by simpa using hseen), hsame, setBlock_self]

/-- The guide once the segment has joined its block. -/
def segmentJoined (h : SegmentHeader) (rs : List OfferedRecord) (k : Fin 8) (c : Core) : Core :=
  testPresent (setBlock k { blockBegun h (block c k) with seen := h.number :: (blockBegun h (block c k)).seen }
    (rs.foldl (offerRecord (.block h.block h.version)) (setBlock k (blockBegun h (block c k)) c)))

theorem takeSchedule_joins (hk : h.block = k.val) (hl : h.number ≤ h.last) (hseen : h.number ∉ (blockBegun h (block c k)).seen) :
    takeSchedule h rs c =
      if seenAll (h.number :: (blockBegun h (block c k)).seen) h.last then completeBlock k h.version (segmentJoined h rs k c)
      else segmentJoined h rs k c := by
  have hblock : block (rs.foldl (offerRecord (.block h.block h.version)) (setBlock k (blockBegun h (block c k)) c)) k =
      blockBegun h (block c k) := by rw [foldl_offerRecord_block, block_setBlock]
  rw [takeSchedule_fits hk hl]
  dsimp only
  rw [if_neg (by simpa using hseen), hblock, block_testPresent, block_setBlock]
  rfl

end

/-! ## A complete block (R111, R115) -/

/-- The block complete, and the records of its older versions gone. -/
def blockPruned (k : Fin 8) (version : Nat) (c : Core) : Core :=
  let stale := fun (r : EventRecord) => match r.source with
    | .block j v => j == k.val && v != version
    | .now => false
  setRecords (c.guide.records.filter fun r => !stale r) (setBlock k { block c k with complete := true } c)

theorem completeBlock_eq (k : Fin 8) (version : Nat) (c : Core) : completeBlock k version c =
    if c.guide.sweep.state = .collecting && allBlocksComplete (blockPruned k version c) then
      completeSweep (testPresent (blockPruned k version c)) else testPresent (blockPruned k version c) := by
  have hguide := testPresent_guide (blockPruned k version c)
  have hstate : (testPresent (blockPruned k version c)).guide.sweep.state = c.guide.sweep.state := congrArg (·.sweep.state) hguide
  have hall : allBlocksComplete (testPresent (blockPruned k version c)) = allBlocksComplete (blockPruned k version c) := by
    unfold allBlocksComplete
    simp only [block_testPresent]
  rw [← hstate, ← hall]
  rfl

theorem allBlocksComplete_iff {c : Core} : allBlocksComplete c = true ↔ ∀ k, (block c k).complete = true := by
  have hmem : ∀ k : Fin 8, k ∈ allBlocks := by decide
  simp [allBlocksComplete, hmem]

theorem mem_blockPruned {k : Fin 8} {version : Nat} {c : Core} {r : EventRecord} : r ∈ (blockPruned k version c).guide.records ↔
    r ∈ c.guide.records ∧ ¬∃ v, r.source = .block k.val v ∧ v ≠ version := by
  refine List.mem_filter.trans (and_congr_right fun _ => ?_)
  cases hs : r.source with
  | now => simp [hs]
  | block j v => simp [hs, imp_iff_not_or]

/-! ## The end of a sweep that is complete (R115) -/

/-- The sweep at its end with every block complete. -/
def sweepReady (interval : Nat) (limit : Timer) : Sweep :=
  ⟨.idle, ⟨interval * 60000, interval * 60000, true⟩, { limit with running := false }, .fresh, none⟩

/-- The box with these slots and the sweep at its end, its tuner still held. -/
def sweepFinished (v : Vector Slot 16) (c : Core) : Core :=
  { c with slots := v, guide := { c.guide with sweep := sweepReady c.guide.interval c.guide.sweep.limit } }

theorem completeSweep_eq (c : Core) : ∃ v, ScheduleClosed c { c with slots := v } ∧ completeSweep c =
    let d := release .sweep (sweepFinished v c)
    post (.guideReady d.guide.records.length (allBlocks.map fun k => (block d k).version)) d := by
  obtain ⟨v, he, hv⟩ := closeSchedule_slots c
  refine ⟨v, hv, ?_⟩
  unfold completeSweep
  rw [he]
  rfl

end Sys2Proof.Machine
end

section
/-! The guide sweep is settled (R111 to R116, R123). -/

namespace Sys2Proof.Machine

open Sys2Proof

/-! ## REFRESH GUIDE (R123) -/

theorem refreshGuide_misfit {n : Nat} (c : Core) (h : n < 60 ∨ 720 < n) : refreshGuide (some n) c = (.bare .badRequest, c) :=
  if_pos (by simpa using h)

theorem refreshGuide_fits {n : Nat} (c : Core) (h1 : 60 ≤ n) (h2 : n ≤ 720) : refreshGuide (some n) c =
    settle (.single .settings 3 (.sweepInterval n)) (fun c => refreshSweep (setInterval n c)) c :=
  if_neg (by simp [h1, h2])

/-- A refresh without an interval is OK, and starts the sweep or leaves it running. -/
theorem refreshGuide_replies {tag : Byte} {c : Core} {s : State} (hh : Handled (.refreshGuide tag (some none)) s)
    (hc : refreshSweep s.core = c) : Replies (.refreshGuide tag (some none)) tag .ok .none c s :=
  replies_of_answeredWith (exec_refreshGuide tag (some none) s) hh (by rw [← hc]; rfl)

/-! ## The release of the sweep's tuner -/

/-- The tuner that the sweep gives up no longer counts it among its holders. -/
theorem release_sweep_gone {c : Core} {t : Fin 4} (h : heldTuner c .sweep = some t) (hn : noneExtended c) :
    (tuner (release .sweep c) t).holders.has .sweep = false := by
  cases ho : (tuner c t).holders.only .sweep with
  | true => exact (release_sweep_only h ho hn).gone
  | false =>
    rw [release_sweep_among h ho, tuner_setTuner]
    rfl

theorem release_sweep_markersOnly {c : Core} (hn : noneExtended c) : MarkersOnly c (release .sweep c) := by
  cases h : heldTuner c .sweep with
  | none =>
    rw [release_none h]
    exact .of_guide rfl
  | some t =>
    cases ho : (tuner c t).holders.only .sweep with
    | true => exact (release_sweep_only h ho hn).guide
    | false =>
      rw [release_sweep_among h ho]
      exact .of_guide rfl

/-! ## The parts of a complete block -/

theorem block_blockPruned (k : Fin 8) (version : Nat) (c : Core) :
    block (blockPruned k version c) k = { block c k with complete := true } := block_setBlock k _ c

theorem block_blockPruned_ne {k j : Fin 8} (version : Nat) (c : Core) (h : j ≠ k) : block (blockPruned k version c) j = block c j :=
  block_setBlock_ne _ c (Ne.symm h)

/-! ## The notice of a guide that is ready (R115) -/

/-- The notice tells the records and the blocks that the sweep collected. -/
theorem guideReady_congr {c d : Core} (hr : d.guide.records = c.guide.records) (hb : d.guide.blocks = c.guide.blocks) :
    post (.guideReady d.guide.records.length (allBlocks.map fun k => (block d k).version)) d =
      post (.guideReady c.guide.records.length ((List.finRange 8).map fun k => (block c k).version)) d := by
  have hall : allBlocks = List.finRange 8 := by decide
  have hblock : ∀ k, block d k = block c k := fun k => congrArg (·.get k) hb
  simp only [hr, hall, hblock]

/-- Settles O37: the sweep begins at a refresh or at its timer with a tuner or without one, ends at its limit or with every block
complete, and a segment joins its block once. -/
theorem guideSweepRuns : Obligations.GuideSweepRuns := by
  unfold Obligations.GuideSweepRuns
  refine ⟨fun tag s => ?runs, fun h rs k c => ?segment, fun k version c => ?block, fun c hn => ?complete⟩
  case runs =>
    refine ⟨fun n hh => ⟨fun hbad => ?misfit, fun h1 h2 => ?interval⟩,
      fun hh => ⟨fun hrun => ?running, fun x t hidle hstart => ?refreshes, fun hidle hfail => ?refreshFails⟩, fun h => ?timerStands,
      fun x t hr hidle hstart => ?timerBegins, fun hr hidle hfail => ?timerFails, fun h => ?limitStands, fun hr hs => ?limitEnds⟩
    case misfit => exact replies_of_answeredWith (exec_refreshGuide tag (some (some n)) s) hh (refreshGuide_misfit s.core hbad)
    case interval => exact settingTable_of_settle (exec_refreshGuide tag (some (some n)) s) hh (refreshGuide_fits s.core h1 h2)
    case running => exact refreshGuide_replies hh (refreshSweep_running hrun)
    case refreshes =>
      have hb := beginSweep_starts (c := setGuide { s.core.guide with sweep := { s.core.guide.sweep with timer :=
        ⟨s.core.guide.interval * 60000, s.core.guide.interval * 60000, false⟩ } } s.core) hstart
      exact ⟨_, refreshGuide_replies hh (refreshSweep_idle hidle), hb.only, hb.sweep, ⟨hb.interval, hb.records, hb.markers, hb.blocks⟩,
        hb.state, hb.carrier, hb.holders, hb.others, hb.line⟩
    case refreshFails =>
      have hb := beginSweep_fails (c := setGuide { s.core.guide with sweep := { s.core.guide.sweep with timer :=
        ⟨s.core.guide.interval * 60000, s.core.guide.interval * 60000, false⟩ } } s.core) hfail
      exact ⟨_, refreshGuide_replies hh (refreshSweep_idle hidle), hb.only, hb.sweep, ⟨hb.interval, hb.records, hb.markers, hb.blocks⟩,
        hb.schedule⟩
    case timerStands => exact (exec_sweepTimer s).trans (next_onCore (sweepTimerExpired_stands h))
    case timerBegins =>
      have hb := beginSweep_starts (c := setGuide { s.core.guide with sweep := { s.core.guide.sweep with timer :=
        s.core.guide.sweep.timer.expired } } s.core) hstart
      exact ⟨_, (exec_sweepTimer s).trans (next_onCore (sweepTimerExpired_begins hr hidle)), hb.only, hb.sweep,
        ⟨hb.interval, hb.records, hb.markers, hb.blocks⟩, hb.state, hb.carrier, hb.holders, hb.others, hb.line⟩
    case timerFails =>
      have hb := beginSweep_fails (c := setGuide { s.core.guide with sweep := { s.core.guide.sweep with timer :=
        s.core.guide.sweep.timer.expired } } s.core) hfail
      exact ⟨_, (exec_sweepTimer s).trans (next_onCore (sweepTimerExpired_begins hr hidle)), hb.only, hb.sweep,
        ⟨hb.interval, hb.records, hb.markers, hb.blocks⟩, hb.schedule⟩
    case limitStands => exact (exec_sweepLimit s).trans (next_onCore (sweepLimitExpired_stands h))
    case limitEnds =>
      obtain ⟨v, he, hv⟩ := sweepLimitExpired_releases hr hs
      refine ⟨fun hheld => ?noneHeld, fun t hheld ho => ?among, fun t hheld ho hn => ?only⟩
      case noneHeld => exact ⟨_, (exec_sweepLimit s).trans (next_onCore (he.trans (release_none hheld))), rfl, hv⟩
      case among => exact ⟨_, (exec_sweepLimit s).trans (next_onCore (he.trans (release_sweep_among hheld ho))), rfl, hv⟩
      case only =>
        have hleft := release_sweep_only (c := { s.core with slots := v, guide := { s.core.guide with
          sweep := sweepEnded s.core.guide.interval { s.core.guide.sweep.limit with left := 0 } } }) hheld ho hn
        obtain ⟨markers, hguide⟩ := hleft.guide
        obtain ⟨more, hline, hstands⟩ := hleft.line
        refine ⟨_, more, (exec_sweepLimit s).trans (next_onCore he), ?_, ?_, ?_, ?_, hleft.gone, hline, hstands⟩
        · rw [hguide]
          rfl
        · rw [hguide]
        · rw [hguide]
        · rw [hguide]
  case segment =>
    refine ⟨takeSchedule_misfit, fun hk hl hseen => takeSchedule_again hk hl hseen, fun hk hl hseen => ⟨fun hall => ?_, fun hall => ?_⟩⟩
    · exact (takeSchedule_joins hk hl hseen).trans (if_neg fun h => hall (seenAll_iff.mp h))
    · exact (takeSchedule_joins hk hl hseen).trans (if_pos (seenAll_iff.mpr hall))
  case block =>
    refine ⟨blockPruned k version c, List.filter_sublist, block_blockPruned k version c, fun j hj => block_blockPruned_ne version c hj, rfl,
      fun r => mem_blockPruned, fun h => ?_, fun hs hall => ?_⟩
    · rw [completeBlock_eq, if_neg]
      rintro hboth
      rw [Bool.and_eq_true, allBlocksComplete_iff] at hboth
      obtain ⟨hs, hall⟩ := hboth
      obtain h | ⟨j, hj⟩ := h
      · exact h (of_decide_eq_true hs)
      · rw [hall j] at hj
        cases hj
    · rw [completeBlock_eq, if_pos]
      rw [Bool.and_eq_true, allBlocksComplete_iff]
      exact ⟨decide_eq_true hs, hall⟩
  case complete =>
    obtain ⟨v, hv, he⟩ := completeSweep_eq c
    obtain ⟨markers, hguide⟩ := release_sweep_markersOnly (c := sweepFinished v c) hn
    have hheldBy : heldTuner (sweepFinished v c) .sweep = heldTuner c .sweep := rfl
    have htuner : ∀ t, tuner (sweepFinished v c) t = tuner c t := fun _ => rfl
    refine ⟨_, he.trans (guideReady_congr (c := c) ?_ ?_), ?_, ?_, ?_, fun hheld => ?_,
      fun t hheld => release_sweep_gone (hheldBy.trans hheld) hn, fun t hheld ho => ?_⟩
    · rw [hguide]
      rfl
    · rw [hguide]
      rfl
    · rw [hguide]
      rfl
    · rw [hguide]
      rfl
    · rw [hguide]
      rfl
    · rw [release_none (hheldBy.trans hheld)]
      rfl
    · rw [release_sweep_among (hheldBy.trans hheld) (htuner t ▸ ho)]
      rfl

end Sys2Proof.Machine
end

section
/-! The lists of a directory version: first entries, and their orders (R9). -/

namespace Sys2Proof.Machine

open Sys2Proof

/-! ## The first entry of each number -/

section
variable {α : Type} {num : α → Nat} {ok : α → Bool}

theorem keepFirst_sublist (seen : List Nat) (l : List α) : (keepFirst num ok seen l).Sublist l := by
  induction l generalizing seen with
  | nil => exact .slnil
  | cons x xs ih =>
    unfold keepFirst
    dsimp only
    split
    · exact (ih _).cons_cons x
    · exact (ih _).cons x

theorem mem_keepFirst_cons {seen : List Nat} {x a : α} {xs : List α} : a ∈ keepFirst num ok seen (x :: xs) ↔
    (a = x ∧ num x ∉ seen ∧ ok x = true) ∨ a ∈ keepFirst num ok (num x :: seen) xs := by
  rw [keepFirst]
  split
  · next h =>
    have hkept : num x ∉ seen ∧ ok x = true := by simpa using h
    simp [hkept]
  · next h =>
    have hdropped : ¬(num x ∉ seen ∧ ok x = true) := by simpa using h
    simp [hdropped]

/-- No entry of its number comes before it. -/
def FirstIn (num : α → Nat) (x : α) (l : List α) : Prop :=
  ∃ before after, l = before ++ x :: after ∧ ∀ y ∈ before, num y ≠ num x

theorem firstIn_cons {x a : α} {xs : List α} : FirstIn num a (x :: xs) ↔ a = x ∨ (num x ≠ num a ∧ FirstIn num a xs) := by
  constructor
  · rintro ⟨before, after, heq, hbefore⟩
    cases before with
    | nil =>
      obtain ⟨rfl, -⟩ := List.cons_eq_cons.mp heq
      exact .inl rfl
    | cons y ys =>
      obtain ⟨rfl, hrest⟩ := List.cons_eq_cons.mp heq
      exact .inr ⟨hbefore x (by simp), ys, after, hrest, fun z hz => hbefore z (by simp [hz])⟩
  · rintro (rfl | ⟨hne, before, after, rfl, hbefore⟩)
    · exact ⟨[], xs, rfl, nofun⟩
    · refine ⟨x :: before, after, rfl, fun y hy => ?_⟩
      obtain rfl | hy := List.mem_cons.mp hy
      · exact hne
      · exact hbefore y hy

/-- The kept entries are the first of their numbers that pass the test. -/
theorem mem_keepFirst {seen : List Nat} {a : α} {l : List α} :
    a ∈ keepFirst num ok seen l ↔ num a ∉ seen ∧ ok a = true ∧ FirstIn num a l := by
  induction l generalizing seen with
  | nil => simp [keepFirst, FirstIn]
  | cons x xs ih =>
    rw [mem_keepFirst_cons, ih, firstIn_cons, List.mem_cons, not_or]
    constructor
    · rintro (⟨rfl, hseen, hok⟩ | ⟨⟨hne, hseen⟩, hok, hfirst⟩)
      · exact ⟨hseen, hok, .inl rfl⟩
      · exact ⟨hseen, hok, .inr ⟨Ne.symm hne, hfirst⟩⟩
    · rintro ⟨hseen, hok, rfl | ⟨hne, hfirst⟩⟩
      · exact .inl ⟨rfl, hseen, hok⟩
      · exact .inr ⟨⟨Ne.symm hne, hseen⟩, hok, hfirst⟩

theorem keepFirst_distinct (seen : List Nat) (l : List α) : (keepFirst num ok seen l).Pairwise (fun a b => num a ≠ num b) := by
  induction l generalizing seen with
  | nil => exact .nil
  | cons x xs ih =>
    unfold keepFirst
    dsimp only
    split
    · exact .cons (fun a ha => fun heq => (mem_keepFirst.mp ha).1 (by simp [heq])) (ih _)
    · exact ih _

end

/-! ## The order of a list -/

section
variable {α : Type} {before : α → α → Bool}

theorem insertBy_eq_orderedInsert (x : α) (l : List α) : insertBy before x l = l.orderedInsert (fun a b => before a b = true) x := by
  induction l with
  | nil => rfl
  | cons y ys ih => rw [insertBy, List.orderedInsert_cons, ih]

theorem sortBy_eq_insertionSort (l : List α) : sortBy before l = l.insertionSort (fun a b => before a b = true) := by
  induction l with
  | nil => rfl
  | cons x xs ih => rw [List.insertionSort_cons, ← ih, ← insertBy_eq_orderedInsert]; rfl

theorem sortBy_perm (l : List α) : (sortBy before l).Perm l := by
  rw [sortBy_eq_insertionSort]
  exact List.perm_insertionSort _ l

theorem insertBy_ascending {num : α → Nat} {x : α} {l : List α} (hl : l.Pairwise (fun a b => num a < num b))
    (hx : ∀ y ∈ l, num x ≠ num y) : (insertBy (fun a b => num a < num b) x l).Pairwise (fun a b => num a < num b) := by
  induction l with
  | nil => exact List.pairwise_singleton _ x
  | cons y ys ih =>
    obtain ⟨hy, hys⟩ := List.pairwise_cons.mp hl
    rw [insertBy]
    split
    · next hlt =>
      have hxy : num x < num y := of_decide_eq_true hlt
      refine .cons (fun z hz => ?_) hl
      obtain rfl | hz := List.mem_cons.mp hz
      · exact hxy
      · exact hxy.trans (hy z hz)
    · next hlt =>
      have hyx : num y < num x := lt_of_le_of_ne (not_lt.mp (of_decide_eq_false (eq_false_of_ne_true hlt))) (Ne.symm (hx y (by simp)))
      refine .cons (fun z hz => ?_) (ih hys fun z hz => hx z (by simp [hz]))
      obtain rfl | hz := mem_insertBy.mp hz
      · exact hyx
      · exact hy z hz

/-- Entries of different numbers come in the order of their numbers. -/
theorem sortBy_ascending {num : α → Nat} {l : List α} (hl : l.Pairwise (fun a b => num a ≠ num b)) :
    (sortBy (fun a b => num a < num b) l).Pairwise (fun a b => num a < num b) := by
  induction l with
  | nil => exact .nil
  | cons x xs ih =>
    obtain ⟨hx, hxs⟩ := List.pairwise_cons.mp hl
    exact insertBy_ascending (ih hxs) fun y hy => hx y ((sortBy_perm xs).mem_iff.mp hy)

/-- An ascending list is the order of each of its arrangements. -/
theorem sortBy_eq_of_perm {num : α → Nat} {l parts : List α} (hperm : parts.Perm l) (hasc : parts.Pairwise (fun a b => num a < num b)) :
    sortBy (fun a b => num a < num b) l = parts := by
  have hdistinct : l.Pairwise (fun a b => num a ≠ num b) := hperm.pairwise (hasc.imp Nat.ne_of_lt) Ne.symm
  exact ((sortBy_perm l).trans hperm.symm).eq_of_pairwise (fun a b _ _ hab hba => absurd hba (Nat.lt_asymm hab))
    (sortBy_ascending hdistinct) hasc

end

/-! ## The packages of a channel -/

theorem dedup_sublist (l : List Nat) : (dedup l).Sublist l := keepFirst_sublist [] l

theorem dedup_nodup (l : List Nat) : (dedup l).Nodup := keepFirst_distinct [] l

theorem firstIn_of_mem {n : Nat} {l : List Nat} (h : n ∈ l) : FirstIn id n l := by
  obtain ⟨before, after, heq, hbefore⟩ := List.eq_append_cons_of_mem h
  exact ⟨before, after, heq, fun y hy heq => hbefore ((show y = n from heq) ▸ hy)⟩

theorem mem_dedup {n : Nat} {l : List Nat} : n ∈ dedup l ↔ n ∈ l :=
  ⟨fun h => (dedup_sublist l).subset h, fun h => mem_keepFirst.mpr ⟨by simp, rfl, firstIn_of_mem h⟩⟩

theorem dedup_eq_nil {l : List Nat} : dedup l = [] ↔ l = [] := by
  simp only [List.eq_nil_iff_forall_not_mem, mem_dedup]

end Sys2Proof.Machine
end

section
/-! The directory version that is swapped in (R9, R10). -/

namespace Sys2Proof.Machine

open Sys2Proof

/-! ## The channels that are kept (R9) -/

/-- A channel with the repeats of its packages dropped. -/
def deduped (e : ChannelEntry) : ChannelEntry := { e with packages := dedup e.packages }

/-- The channels that pass their tests, in the order of their LCNs. -/
def sortedChannels (carriers : List CarrierEntry) (l : List ChannelEntry) : List ChannelEntry :=
  sortBy (fun a b => a.lcn < b.lcn) (keepFirst (·.lcn) (channelOk carriers) [] (l.map deduped))

theorem keepChannels_eq (carriers : List CarrierEntry) (l : List ChannelEntry) :
    keepChannels carriers l = (sortedChannels carriers l).take 600 := rfl

section
variable {carriers : List CarrierEntry} {l : List ChannelEntry} {e : ChannelEntry}

theorem mem_sortedChannels : e ∈ sortedChannels carriers l ↔ channelOk carriers e = true ∧ FirstIn (·.lcn) e (l.map deduped) := by
  rw [sortedChannels, (sortBy_perm _).mem_iff, mem_keepFirst]
  simp

theorem sortedChannels_ascending : (sortedChannels carriers l).Pairwise (fun a b => a.lcn < b.lcn) :=
  sortBy_ascending (keepFirst_distinct _ _)

theorem keepChannels_ascending : (keepChannels carriers l).Pairwise (fun a b => a.lcn < b.lcn) :=
  sortedChannels_ascending.sublist (List.take_sublist _ _)

theorem length_keepChannels_le : (keepChannels carriers l).length ≤ 600 := List.length_take_le _ _

theorem mem_sortedChannels_of_kept (h : e ∈ keepChannels carriers l) : e ∈ sortedChannels carriers l := (List.take_sublist _ _).subset h

theorem FirstIn.mem {α : Type} {num : α → Nat} {x : α} {l : List α} (h : FirstIn num x l) : x ∈ l := by
  obtain ⟨before, after, rfl, -⟩ := h
  simp

theorem channelOk_iff : channelOk carriers e = true ↔ (1 ≤ e.lcn ∧ e.lcn ≤ 9999) ∧ e.service ≠ 0 ∧
    (∃ x ∈ carriers, x.number = e.carrierNo) ∧ (e.kind = .subscribed → e.packages ≠ []) := by
  simp [channelOk, lcnInRange, and_assoc, imp_iff_not_or]

/-- A kept channel is a channel that was read, with the repeats of its packages dropped. -/
theorem read_of_kept (h : e ∈ keepChannels carriers l) :
    ∃ y ∈ l, { y with packages := e.packages } = e ∧ e.packages.Nodup ∧ ∀ n, n ∈ e.packages ↔ n ∈ y.packages := by
  obtain ⟨-, hfirst⟩ := mem_sortedChannels.mp (mem_sortedChannels_of_kept h)
  obtain ⟨y, hy, rfl⟩ := List.mem_map.mp hfirst.mem
  exact ⟨y, hy, rfl, dedup_nodup y.packages, fun n => mem_dedup⟩

theorem firstIn_deduped (h : FirstIn (·.lcn) e l) : FirstIn (·.lcn) (deduped e) (l.map deduped) := by
  obtain ⟨before, after, rfl, hbefore⟩ := h
  refine ⟨before.map deduped, after.map deduped, by simp, fun y hy => ?_⟩
  obtain ⟨z, hz, rfl⟩ := List.mem_map.mp hy
  exact hbefore z hz

theorem channelOk_deduped (h : channelOk carriers e = true) : channelOk carriers (deduped e) = true := by
  obtain ⟨hlcn, hservice, hcarrier, hkind⟩ := channelOk_iff.mp h
  exact channelOk_iff.mpr ⟨hlcn, hservice, hcarrier, fun hk => mt dedup_eq_nil.mp (hkind hk)⟩

/-- A sorted channel that is not kept comes after 600 others. -/
theorem kept_or_after (h : e ∈ sortedChannels carriers l) :
    e ∈ keepChannels carriers l ∨ ((keepChannels carriers l).length = 600 ∧ ∀ y ∈ keepChannels carriers l, y.lcn < e.lcn) := by
  have hsplit : (sortedChannels carriers l).take 600 ++ (sortedChannels carriers l).drop 600 = sortedChannels carriers l :=
    List.take_append_drop 600 _
  have hasc : ((sortedChannels carriers l).take 600 ++ (sortedChannels carriers l).drop 600).Pairwise (fun a b => a.lcn < b.lcn) := by
    rw [hsplit]
    exact sortedChannels_ascending
  rw [← hsplit, List.mem_append] at h
  refine h.imp id fun hdrop => ⟨?_, fun y hy => (List.pairwise_append.mp hasc).2.2 y hy e hdrop⟩
  have hpos : 0 < ((sortedChannels carriers l).drop 600).length := List.length_pos_of_mem hdrop
  rw [List.length_drop] at hpos
  rw [keepChannels_eq, List.length_take]
  omega

/-- A channel that was read first of its LCN and passes the tests is kept, or comes after 600 others. -/
theorem deduped_kept_or_after (hfirst : FirstIn (·.lcn) e l) (hok : channelOk carriers e = true) : (deduped e) ∈ keepChannels carriers l ∨
    ((keepChannels carriers l).length = 600 ∧ ∀ y ∈ keepChannels carriers l, y.lcn < e.lcn) :=
  kept_or_after (mem_sortedChannels.mpr ⟨channelOk_deduped hok, firstIn_deduped hfirst⟩)

end

/-! ## The directory of a complete version (R10) -/

/-- The segments in their order. -/
def areaParts (area : List AreaPart) : List AreaPart := sortBy (fun a b => a.number < b.number) area

def readCarriers (area : List AreaPart) : List CarrierEntry := (areaParts area).flatMap (·.carriers)

def readChannels (area : List AreaPart) : List ChannelEntry := (areaParts area).flatMap (·.channels)

/-- The carriers that are kept, as they were read. -/
def carriersKept (area : List AreaPart) : List CarrierEntry := keepCarriers (readCarriers area)

def guideOf (area : List AreaPart) : Option Nat :=
  (((areaParts area).find? (·.number == 0)).bind (·.guide)).filter fun n => (carriersKept area).any (·.number == n)

/-- The directory with this version in place of its own, its snapshot not yet owed. -/
def versionSwapped (version : Nat) (area : List AreaPart) (d : Directory) : Directory :=
  { d with
    map := keepChannels (carriersKept area) (readChannels area)
    carriers := sortBy (fun a b => a.number < b.number) (carriersKept area)
    guideCarrier := guideOf area
    version := some version
    asmVersion := none
    asmLast := 0
    asmArea := [] }

/-- The report of a swap-in at the sessions and the lock list. -/
def swapReported (old new : Directory) (c : Core) : Core :=
  let cls := classify old.map new.map old.carriers new.carriers
  watchTest (reportToLocks (isVanished cls) (reportToSessions cls (allTuners.foldl renumberTuner (startSnapshot c))))

theorem length_carriers (version : Nat) (area : List AreaPart) (d : Directory) :
    (versionSwapped version area d).carriers.length = (carriersKept area).length := (sortBy_perm _).length_eq

theorem swapIn_eq (version : Nat) (area : List AreaPart) (c : Core) :
    let d := versionSwapped version area c.dir
    swapIn version area c = swapReported c.dir d (post (.channelsChanged version d.carriers.length d.map.length
      ((readCarriers area).length - d.carriers.length) ((readChannels area).length - d.map.length)) (setDir d c)) := by
  dsimp only
  rw [length_carriers]
  rfl

/-! ## What the report leaves of the directory -/

theorem renumberTuner_off {c : Core} {t : Fin 4} (h : (tuner c t).state = .off) : renumberTuner c t = c := if_pos h

theorem renumberTuner_on {c : Core} {t : Fin 4} (h : (tuner c t).state ≠ .off) :
    renumberTuner c t = setTuner t { tuner c t with number := (tuner c t).carrier.bind (numberOf c) } c := if_neg h

theorem foldl_renumberTuner_dir (l : List (Fin 4)) (c : Core) : (l.foldl renumberTuner c).dir = c.dir := by
  induction l generalizing c with
  | nil => rfl
  | cons t l ih =>
    rw [List.foldl_cons, ih]
    unfold renumberTuner
    dsimp only
    split
    · rfl
    · rfl

theorem commitLimit_dir (k : LimitCommit) (c : Core) : (commitLimit' k c).dir = c.dir := by
  unfold commitLimit' commitLimit
  split
  · next h => exact (offer_only h).dir
  · next h => exact (offer_only h).dir
  · next h => exact (offer_only h).dir

theorem reportToLocks_dir (vanished : Nat → Bool) (c : Core) : (reportToLocks vanished c).dir = c.dir := by
  unfold reportToLocks
  split
  · exact commitLimit_dir _ _
  · rfl

theorem swapReported_dir (old new : Directory) (c : Core) : ∃ owed, (swapReported old new c).dir = { c.dir with owed := owed } := by
  obtain ⟨owed, store, free, he⟩ := startSnapshot_owedOnly c
  refine ⟨owed, ?_⟩
  unfold swapReported
  dsimp only
  rw [(watchTest_tuners (.refl _)).dir, reportToLocks_dir, (reportToSessions_tuners (.refl _)).dir, foldl_renumberTuner_dir, he]

theorem swapIn_dir (version : Nat) (area : List AreaPart) (c : Core) :
    ∃ owed, (swapIn version area c).dir = { versionSwapped version area c.dir with owed := owed } := by
  rw [swapIn_eq]
  exact swapReported_dir _ _ _

/-! ## The parts of the new directory -/

section
variable {area : List AreaPart}

theorem mem_areaParts {p : AreaPart} : p ∈ areaParts area ↔ p ∈ area := (sortBy_perm _).mem_iff

theorem mem_carriersKept {x : CarrierEntry} : x ∈ carriersKept area ↔
    (48000 ≤ x.carrier.freq ∧ x.carrier.freq ≤ 1002000) ∧ FirstIn (·.number) x (readCarriers area) := by
  rw [carriersKept, keepCarriers, mem_keepFirst]
  simp [frequencyInRange]

theorem mem_swapped_carriers {version : Nat} {d : Directory} {x : CarrierEntry} :
    x ∈ (versionSwapped version area d).carriers ↔ x ∈ carriersKept area := (sortBy_perm _).mem_iff

theorem swapped_carriers_ascending {version : Nat} {d : Directory} :
    (versionSwapped version area d).carriers.Pairwise (fun a b => a.number < b.number) := sortBy_ascending (keepFirst_distinct _ _)

theorem guideOf_eq_some {n : Nat} : guideOf area = some n ↔
    (∃ p, (areaParts area).find? (·.number == 0) = some p ∧ p.guide = some n) ∧ ∃ x ∈ carriersKept area, x.number = n := by
  simp [guideOf, Option.filter_eq_some_iff, Option.bind_eq_some_iff]

theorem areaParts_eq {parts : List AreaPart} (hperm : parts.Perm area) (hasc : parts.Pairwise (fun a b => a.number < b.number)) :
    areaParts area = parts := sortBy_eq_of_perm hperm hasc

/-- In ascending segments the segment 0 is the first to be found. -/
theorem find_segmentZero {parts : List AreaPart} {p : AreaPart} (hasc : parts.Pairwise (fun a b => a.number < b.number)) (hp : p ∈ parts)
    (hzero : p.number = 0) : parts.find? (·.number == 0) = some p := by
  cases parts with
  | nil => cases hp
  | cons q parts =>
    obtain rfl | hp := List.mem_cons.mp hp
    · exact List.find?_cons_of_pos (by simp [hzero])
    · have hlt := (List.pairwise_cons.mp hasc).1 p hp
      omega

end

end Sys2Proof.Machine
end

section
/-! The directory's segments and the commits that are owed (R6, R7, R10, R11, R179). -/

namespace Sys2Proof.Machine

open Sys2Proof

theorem exec_owedCommitOffer (s : State) : exec .owedCommitOffer s = .next (onCore offerOwed s) := rfl

/-! ## The assembly (R6, R7) -/

/-- The segments of this version and last number that have been read. -/
def areaBegun (h : SegmentHeader) (d : Directory) : List AreaPart :=
  if d.asmVersion = some h.version ∧ d.asmLast = h.last then d.asmArea else []

/-- The box with this assembly of a version. -/
def assembling (h : SegmentHeader) (area : List AreaPart) (c : Core) : Core :=
  setDir { c.dir with asmVersion := some h.version, asmLast := h.last, asmArea := area } c

section
variable {h : SegmentHeader} {guide : Option Nat} {carriers : List CarrierEntry} {channels : List ChannelEntry} {c : Core}

theorem takeDirectory_inForce (hv : c.dir.version = some h.version) : takeDirectory h guide carriers channels c = abandonAssembly c := if_pos hv

theorem takeDirectory_misfit (hv : c.dir.version ≠ some h.version) (hbad : 40 ≤ h.last ∨ h.last < h.number) :
    takeDirectory h guide carriers channels c = c := (if_neg hv).trans (if_pos (by simpa using hbad))

theorem assembly_eq (h : SegmentHeader) (c : Core) :
    (if c.dir.asmVersion = some h.version ∧ c.dir.asmLast = h.last then c else restartAssembly h.version h.last c) =
      assembling h (areaBegun h c.dir) c := by
  split
  · next hfits =>
    obtain ⟨hversion, hlast⟩ := hfits
    rw [areaBegun, if_pos ⟨hversion, hlast⟩, assembling, ← hversion, ← hlast]
    rfl
  · next hfits =>
    rw [areaBegun, if_neg hfits]
    rfl

theorem takeDirectory_taken (hv : c.dir.version ≠ some h.version) (hlast : h.last < 40) (hn : h.number ≤ h.last) :
    takeDirectory h guide carriers channels c = joinArea h ⟨h.number, guide, carriers, channels⟩ (assembling h (areaBegun h c.dir) c) := by
  rw [← assembly_eq]
  refine (if_neg hv).trans (if_neg ?_)
  simp [hlast, hn]

theorem joinArea_seen {p : AreaPart} {area : List AreaPart} (hseen : ∃ q ∈ area, q.number = h.number) :
    joinArea h p (assembling h area c) = assembling h area c :=
  if_pos (by simpa [assembling, setDir] using hseen)

theorem joinArea_joins {p : AreaPart} {area : List AreaPart} (hp : p.number = h.number) (hnew : ∀ q ∈ area, q.number ≠ h.number) :
    joinArea h p (assembling h area c) =
      if seenAll ((p :: area).map (·.number)) h.last then swapIn h.version (p :: area) (assembling h (p :: area) c)
      else assembling h (p :: area) c := by
  rw [List.map_cons, hp]
  exact if_neg (by simpa [assembling, setDir] using hnew)

theorem seenAll_area {area : List AreaPart} {last : Nat} :
    seenAll (area.map (·.number)) last = true ↔ ∀ n, n ≤ last → ∃ p ∈ area, p.number = n := by
  simp [seenAll_iff]

/-- A segment of an assembly that has read it begins nothing anew. -/
theorem assembling_self (hseen : ∃ q ∈ areaBegun h c.dir, q.number = h.number) : assembling h (areaBegun h c.dir) c = c := by
  rw [← assembly_eq]
  refine if_pos ?_
  by_contra hfits
  rw [areaBegun, if_neg hfits] at hseen
  obtain ⟨_, hmem, -⟩ := hseen
  cases hmem

end

/-! ## The class of an LCN (R10) -/

section
variable {before after : List ChannelEntry} {carriers list : List CarrierEntry} {lcn : Nat}

theorem classify_vanished {a : ChannelEntry} (h : before.find? (·.lcn == lcn) = some a) (h' : after.find? (·.lcn == lcn) = none) :
    (classify before after carriers list lcn).1 = .vanished := by
  rw [classify, h, h']

theorem classify_added {b : ChannelEntry} (h : before.find? (·.lcn == lcn) = none) (h' : after.find? (·.lcn == lcn) = some b) :
    (classify before after carriers list lcn).1 = .added := by
  rw [classify, h, h']

theorem classify_absent (h : before.find? (·.lcn == lcn) = none) (h' : after.find? (·.lcn == lcn) = none) :
    (classify before after carriers list lcn).1 = .unchanged := by
  rw [classify, h, h']

/-- The class of a channel of both maps. -/
def classOf (x y : Option Carrier) (a b : ChannelEntry) : ChangeClass :=
  if x ≠ y then .moved else if a.service ≠ b.service then .renumbered
  else if { a with carrierNo := b.carrierNo } ≠ b then .altered else .unchanged

theorem classify_both {a b : ChannelEntry} (h : before.find? (·.lcn == lcn) = some a) (h' : after.find? (·.lcn == lcn) = some b) :
    let x := resolveIn carriers a.carrierNo
    let y := resolveIn list b.carrierNo
    classify before after carriers list lcn = (classOf x y a b, x, y) := by
  dsimp only
  rw [classify, h, h']
  rfl

variable {x y : Option Carrier} {a b : ChannelEntry}

theorem classOf_moved (h : x ≠ y) : classOf x y a b = .moved := if_pos h

theorem classOf_renumbered (h : x = y) (hs : a.service ≠ b.service) : classOf x y a b = .renumbered :=
  (if_neg (not_not_intro h)).trans (if_pos hs)

theorem classOf_altered (h : x = y) (hs : a.service = b.service) (hd : { a with carrierNo := b.carrierNo } ≠ b) : classOf x y a b = .altered :=
  (if_neg (not_not_intro h)).trans ((if_neg (not_not_intro hs)).trans (if_pos hd))

theorem classOf_unchanged (h : x = y) (hd : { a with carrierNo := b.carrierNo } = b) : classOf x y a b = .unchanged :=
  have hs : a.service = b.service := by rw [← hd]
  (if_neg (not_not_intro h)).trans ((if_neg (not_not_intro hs)).trans (if_neg (not_not_intro hd)))

end

/-! ## The snapshot (R11) -/

section
variable {c : Core} {n : Nat}

theorem offerIndex_notOwed (h : n ∉ c.dir.owed) : offerIndex c n = c := if_neg (by simpa using h)

theorem offerIndex_owed (h : n ∈ c.dir.owed) : offerIndex c n =
    match offer (snapshotItem c.dir n) c with
    | (.taken, c) => setDir { c.dir with owed := c.dir.owed.filter (· != n) } c
    | (.storeFull, c) | (.storeFault, c) => setDir { c.dir with owed := [] } c
    | (_, c) => c := if_pos (by simpa using h)

theorem offerIndex_taken {c' : Core} (h : n ∈ c.dir.owed) (hoffer : offer (snapshotItem c.dir n) c = (.taken, c')) :
    offerIndex c n = { c' with dir := { c.dir with owed := c.dir.owed.filter (· != n) } } := by
  rw [offerIndex_owed h, hoffer, ← (offer_only hoffer).dir]
  rfl

theorem offerIndex_waits (h : n ∈ c.dir.owed)
    (hoffer : (offer (snapshotItem c.dir n) c).1 = .queueFull ∨ (offer (snapshotItem c.dir n) c).1 = .duringWipe) : offerIndex c n = c := by
  rw [offerIndex_owed h]
  obtain hoffer | hoffer := hoffer
  · rw [offer_unchanged hoffer (by decide)]
  · rw [offer_unchanged hoffer (by decide)]

theorem offerIndex_ends (h : n ∈ c.dir.owed)
    (hoffer : (offer (snapshotItem c.dir n) c).1 = .storeFull ∨ (offer (snapshotItem c.dir n) c).1 = .storeFault) :
    offerIndex c n = setDir { c.dir with owed := [] } c := by
  rw [offerIndex_owed h]
  obtain hoffer | hoffer := hoffer
  · rw [offer_unchanged hoffer (by decide)]
  · rw [offer_unchanged hoffer (by decide)]

/-- The record of a part of the directory, the header at 0. -/
def partRecord (d : Directory) (n : Nat) : RecordBody :=
  if n = 0 then .directoryHeader d.version d.carriers d.guideCarrier (partCount d)
  else .directoryPart d.version ((d.map.drop (16 * (n - 1))).take 16)

theorem snapshotItem_eq (d : Directory) (n : Nat) :
    snapshotItem d n = ⟨⟨.directoryPart, n⟩, [(⟨.directoryPart, n⟩, partRecord d n)], false⟩ := by
  unfold snapshotItem partRecord
  split
  · next h => rw [h]; rfl
  · rfl

end

/-! ## An owed LAST_DAY (R179, R195) -/

/-- The day is all that is owed. -/
def OnlyDayOwed (c : Core) : Prop := nothingOwed { c with clock := { c.clock with owedDay := false } } ∧ c.clock.owedDay = true

section
variable {c : Core} {d : Int}

/-- The other owners offer nothing once the clock has offered the day. -/
theorem offerOwed_onlyDay (h : OnlyDayOwed c) : offerOwed c = offerOwedLimits (offerOwedAck (offerOwedGroup (offerSnapshot (commitLastDay c)))) := by
  obtain ⟨⟨hbook, -⟩, hday⟩ := h
  have hafter : (commitLastDay c).clock.owedBookings = [] := by
    obtain ⟨_, _, _, _, he⟩ := commitLastDay_only c
    rw [he]
    exact hbook
  have hbefore : c.clock.owedBookings = [] := hbook
  have hclock : offerOwedClock c = commitLastDay c := by
    simp [offerOwedClock, hday, hafter, hbefore]
  rw [offerOwed, hclock]

theorem offerOwed_onlyDay_eq {c' : Core} (h : OnlyDayOwed c) (hc : commitLastDay c = c') :
    offerOwed c = c' := by
  obtain ⟨_, _, _, _, he⟩ := commitLastDay_only c
  have hd := h
  obtain ⟨⟨-, -, hdir, hgroup, hack, hlimits⟩, -⟩ := h
  rw [offerOwed_onlyDay hd]
  have hdir' : c'.dir.owed = [] := by rw [← hc, he]; exact hdir
  have hgroup' : c'.access.groupOwed = false := by rw [← hc, he]; exact hgroup
  have hack' : c'.purchase.logAckOwed = false := by rw [← hc, he]; exact hack
  have hlimits' : c'.limits.owed = [] := by rw [← hc, he]; exact hlimits
  rw [hc]
  simp [offerSnapshot, offerOwedGroup, offerOwedAck, offerOwedLimits, hdir', hgroup', hack', hlimits']

/-- The item of LAST_DAY. -/
def lastDayItem (d : Int) : Item := ⟨⟨.lastDay, 0⟩, [(⟨.lastDay, 0⟩, .lastDay d)], false⟩

theorem commitLastDay_eq (hd : c.clock.today = some d) : commitLastDay c =
    match offer (lastDayItem d) c with
    | (.queueFull, c) =>
      { c with clock := { c.clock with
          owedDay := true
          owedBeforeDay := if c.clock.owedDay then c.clock.owedBeforeDay else c.clock.owedBookings } }
    | (.duringWipe, c) => c
    | (_, c) => { c with clock := { c.clock with owedDay := false, owedBeforeDay := [] } } := by
  unfold commitLastDay
  rw [hd]
  rfl

theorem commitLastDay_taken {c' : Core} (hd : c.clock.today = some d) (ho : offer (lastDayItem d) c = (.taken, c')) :
    commitLastDay c = { c' with clock := { c.clock with owedDay := false, owedBeforeDay := [] } } := by
  rw [commitLastDay_eq hd, ho, ← (offer_only ho).clock]

theorem commitLastDay_waits (hd : c.clock.today = some d) (ho : (offer (lastDayItem d) c).1 = .queueFull) (howed : c.clock.owedDay = true) :
    commitLastDay c = c := by
  rw [commitLastDay_eq hd, offer_unchanged ho (by decide)]
  dsimp only
  rw [howed, if_pos rfl, ← howed]

end

/-! ## The swap-in as a whole (R9, R10) -/

section
variable {version : Nat} {area : List AreaPart} {c : Core} {d : Directory}

/-- A part of the segments that were read belongs to a segment. -/
theorem carrier_of_kept {x : CarrierEntry} (h : x ∈ carriersKept area) : ∃ p ∈ area, x ∈ p.carriers := by
  obtain ⟨p, hp, hx⟩ := List.mem_flatMap.mp (mem_carriersKept.mp h).2.mem
  exact ⟨p, mem_areaParts.mp hp, hx⟩

theorem channel_of_read {y : ChannelEntry} (h : y ∈ readChannels area) : ∃ p ∈ area, y ∈ p.channels := by
  obtain ⟨p, hp, hy⟩ := List.mem_flatMap.mp h
  exact ⟨p, mem_areaParts.mp hp, hy⟩

theorem guide_of_guideOf {n : Nat} (h : guideOf area = some n) :
    (∃ x ∈ carriersKept area, x.number = n) ∧ ∃ p ∈ area, p.number = 0 ∧ p.guide = some n := by
  obtain ⟨⟨p, hfind, hguide⟩, hcarrier⟩ := guideOf_eq_some.mp h
  exact ⟨hcarrier, p, mem_areaParts.mp (List.mem_of_find?_eq_some hfind), by simpa using List.find?_some hfind, hguide⟩

end

end Sys2Proof.Machine
end

section
/-! The directory's segments, its swap-in, its snapshot and the owed commits, as a whole. -/

namespace Sys2Proof.Machine

open Sys2Proof

section
variable {area : List AreaPart}

/-- The channels of the version in force. -/
theorem swapped_channel (version : Nat) (d : Directory) {e : ChannelEntry} (h : e ∈ (versionSwapped version area d).map) :
    1 ≤ e.lcn ∧ e.lcn ≤ 9999 ∧ e.service ≠ 0 ∧ (∃ x ∈ (versionSwapped version area d).carriers, x.number = e.carrierNo) ∧
      (e.kind = .subscribed → e.packages ≠ []) ∧ e.packages.Nodup ∧
      ∃ p ∈ area, ∃ y ∈ p.channels, { y with packages := e.packages } = e ∧ ∀ n, n ∈ e.packages ↔ n ∈ y.packages := by
  obtain ⟨⟨hlow, hhigh⟩, hservice, ⟨x, hx, hnumber⟩, hkind⟩ := channelOk_iff.mp (mem_sortedChannels.mp (mem_sortedChannels_of_kept h)).1
  obtain ⟨y, hy, heq, hnodup, hmem⟩ := read_of_kept h
  obtain ⟨p, hp, hyp⟩ := channel_of_read hy
  exact ⟨hlow, hhigh, hservice, ⟨x, mem_swapped_carriers.mpr hx, hnumber⟩, hkind, hnodup, p, hp, y, hyp, heq, hmem⟩

theorem swapped_guide (version : Nat) (d : Directory) {n : Nat} (h : (versionSwapped version area d).guideCarrier = some n) :
    (∃ x ∈ (versionSwapped version area d).carriers, x.number = n) ∧ ∃ p ∈ area, p.number = 0 ∧ p.guide = some n := by
  obtain ⟨⟨x, hx, hnumber⟩, hpart⟩ := guide_of_guideOf h
  exact ⟨⟨x, mem_swapped_carriers.mpr hx, hnumber⟩, hpart⟩

/-- A channel that was read first of its LCN and passes its tests stands in the version, or comes after 600 others. -/
theorem swapped_holds_channel (version : Nat) (d : Directory) {before after : List ChannelEntry} {e : ChannelEntry}
    (hread : readChannels area = before ++ e :: after) (hfirst : ∀ y ∈ before, y.lcn ≠ e.lcn) (hlow : 1 ≤ e.lcn) (hhigh : e.lcn ≤ 9999)
    (hservice : e.service ≠ 0) (hcarrier : ∃ x ∈ (versionSwapped version area d).carriers, x.number = e.carrierNo)
    (hkind : e.kind = .subscribed → e.packages ≠ []) :
    (∃ y ∈ (versionSwapped version area d).map, { y with packages := e.packages } = e ∧ y.packages.Sublist e.packages ∧
      ∀ n ∈ e.packages, n ∈ y.packages) ∨
      ((versionSwapped version area d).map.length = 600 ∧ ∀ y ∈ (versionSwapped version area d).map, y.lcn < e.lcn) := by
  obtain ⟨x, hx, hnumber⟩ := hcarrier
  have hok : channelOk (carriersKept area) e = true :=
    channelOk_iff.mpr ⟨⟨hlow, hhigh⟩, hservice, ⟨x, mem_swapped_carriers.mp hx, hnumber⟩, hkind⟩
  exact (deduped_kept_or_after ⟨before, after, hread, hfirst⟩ hok).imp
    (fun hkept => ⟨deduped e, hkept, rfl, dedup_sublist e.packages, fun n hn => mem_dedup.mpr hn⟩) id

theorem swapped_has_guide (version : Nat) (d : Directory) {p : AreaPart} {n : Nat} (hasc : (areaParts area).Pairwise (fun a b => a.number < b.number))
    (hp : p ∈ area) (hzero : p.number = 0) (hguide : p.guide = some n)
    (hcarrier : ∃ x ∈ (versionSwapped version area d).carriers, x.number = n) :
    (versionSwapped version area d).guideCarrier = some n := by
  obtain ⟨x, hx, hnumber⟩ := hcarrier
  exact guideOf_eq_some.mpr ⟨⟨p, find_segmentZero hasc (mem_areaParts.mpr hp) hzero, hguide⟩, x, mem_swapped_carriers.mp hx, hnumber⟩

end

/-- Settles O57: the assembly of a version, what its swap-in keeps and reports, the snapshot it owes, and an owed LAST_DAY. -/
theorem owedCommitsOffered : Obligations.OwedCommitsOffered := by
  unfold Obligations.OwedCommitsOffered
  refine ⟨fun h guide carriers channels c => ?assembly, fun version area c => ?swap, fun before after carriers list lcn => ?classes,
    fun c => ?snapshot, fun s => ?owed⟩
  case assembly =>
    refine ⟨takeDirectory_inForce, takeDirectory_misfit, fun ⟨hv, hlast, hn⟩ hseen => ?seen,
      fun ⟨hv, hlast, hn⟩ hnew => ⟨fun hsome => ?joins, fun hall => ?completes⟩⟩
    case seen => exact (takeDirectory_taken hv hlast hn).trans ((joinArea_seen hseen).trans (assembling_self hseen))
    case joins => exact (takeDirectory_taken hv hlast hn).trans ((joinArea_joins rfl hnew).trans (if_neg fun h => hsome (seenAll_area.mp h)))
    case completes => exact (takeDirectory_taken hv hlast hn).trans ((joinArea_joins rfl hnew).trans (if_pos (seenAll_area.mpr hall)))
  case swap =>
    intro d
    obtain ⟨owed, hd⟩ : ∃ owed, d = { versionSwapped version area c.dir with owed := owed } := swapIn_dir version area c
    clear_value d
    subst hd
    have hcarriers : ∀ {x}, x ∈ (versionSwapped version area c.dir).carriers ↔ x ∈ carriersKept area := mem_swapped_carriers
    refine ⟨rfl, rfl, rfl, rfl, rfl, length_keepChannels_le, keepChannels_ascending,
      swapped_carriers_ascending (version := version) (d := c.dir), fun x hx => ?carrier,
      fun e he => swapped_channel version c.dir he, fun n hn => swapped_guide version c.dir hn,
      fun parts hperm hasc => ?parts, fun t => ⟨renumberTuner_off, renumberTuner_on⟩⟩
    case carrier =>
      have hkept := hcarriers.mp hx
      obtain ⟨⟨hlow, hhigh⟩, -⟩ := mem_carriersKept.mp hkept
      exact ⟨hlow, hhigh, carrier_of_kept hkept⟩
    case parts =>
      have hparts : areaParts area = parts := areaParts_eq hperm hasc
      subst hparts
      exact ⟨fun before x after hread hfirst hlow hhigh =>
          hcarriers.mpr (mem_carriersKept.mpr ⟨⟨hlow, hhigh⟩, before, after, hread, hfirst⟩),
        fun x hx => (mem_carriersKept.mp (hcarriers.mp hx)).2,
        fun before e after hread hfirst hlow hhigh hservice hcarrier hkind =>
          swapped_holds_channel version c.dir hread hfirst hlow hhigh hservice hcarrier hkind,
        fun p n hp hzero hguide hcarrier => swapped_has_guide version c.dir hasc hp hzero hguide hcarrier, swapIn_eq version area c⟩
  case classes =>
    refine ⟨fun a => classify_vanished, fun b => classify_added, classify_absent, fun a b ha hb => ?_⟩
    rw [classify_both ha hb]
    exact ⟨fun hne => Prod.ext (classOf_moved hne) rfl, classOf_renumbered, classOf_altered, classOf_unchanged⟩
  case snapshot =>
    refine ⟨rfl, fun n => offerIndex_notOwed, fun n c' hn ht => offerIndex_taken hn ?_, fun n hn ho => offerIndex_waits hn ?_,
      fun n hn ho => offerIndex_ends hn ?_⟩
    · rw [snapshotItem_eq]
      exact ht
    · rw [snapshotItem_eq]
      exact ho
    · rw [snapshotItem_eq]
      exact ho
  case owed =>
    exact ⟨fun h => (exec_owedCommitOffer s).trans (next_onCore (offerOwed_nothing h)),
      fun d c h hd ht => (exec_owedCommitOffer s).trans (next_onCore (offerOwed_onlyDay_eq h (commitLastDay_taken hd ht))),
      fun d h hd ho => (exec_owedCommitOffer s).trans (next_onCore (offerOwed_onlyDay_eq h (commitLastDay_waits hd ho h.2)))⟩

end Sys2Proof.Machine
end

section
/-! The loads of the clock, the directory, the settings and the grants (R189). -/

namespace Sys2Proof.Machine

open Sys2Proof

/-! ## Lists -/

/-- A list is in an order that its strict test decides. -/
theorem sortBy_ordered {α : Type} {before : α → α → Bool} {le : α → α → Prop} (hbefore : ∀ a b, before a b = true → le a b)
    (hafter : ∀ a b, before a b = false → le b a) (htrans : ∀ a b c, le a b → le b c → le a c) (l : List α) :
    (sortBy before l).Pairwise le := by
  have hinsert : ∀ (x : α) (l : List α), l.Pairwise le → (insertBy before x l).Pairwise le := by
    intro x l
    induction l with
    | nil => exact fun _ => List.pairwise_singleton le x
    | cons y ys ih =>
      intro hl
      obtain ⟨hy, hys⟩ := List.pairwise_cons.mp hl
      rw [insertBy]
      split
      · next hlt =>
        have hxy := hbefore x y hlt
        refine .cons (fun z hz => ?_) hl
        obtain rfl | hz := List.mem_cons.mp hz
        · exact hxy
        · exact htrans x y z hxy (hy z hz)
      · next hlt =>
        refine .cons (fun z hz => ?_) (ih hys)
        obtain rfl | hz := mem_insertBy.mp hz
        · exact hafter z y (eq_false_of_ne_true hlt)
        · exact hy z hz
  induction l with
  | nil => exact .nil
  | cons x xs ih => exact hinsert x _ ih

theorem le_foldl_max (l : List Nat) (k : Nat) : k ≤ l.foldl max k ∧ ∀ n ∈ l, n ≤ l.foldl max k := by
  induction l generalizing k with
  | nil => exact ⟨le_rfl, nofun⟩
  | cons x xs ih =>
    obtain ⟨hstart, hmem⟩ := ih (max k x)
    refine ⟨(le_max_left k x).trans hstart, fun n hn => ?_⟩
    obtain rfl | hn := List.mem_cons.mp hn
    · exact (le_max_right k n).trans hstart
    · exact hmem n hn

theorem foldl_max_mem (l : List Nat) (k : Nat) : l.foldl max k = k ∨ l.foldl max k ∈ l := by
  induction l generalizing k with
  | nil => exact .inl rfl
  | cons x xs ih =>
    rw [List.foldl_cons]
    obtain h | h := ih (max k x)
    · rw [h]
      exact (max_choice k x).imp id fun hx => by rw [hx]; exact List.mem_cons_self
    · exact .inr (List.mem_cons_of_mem x h)

/-- Numbered parts that are all found are found as a whole. -/
theorem mapM_found {α : Type} {f : Nat → Option α} {parts : List α} {start : Nat}
    (h : ∀ p a, parts[p]? = some a → f (start + p) = some a) : (List.range' start parts.length).mapM f = some parts := by
  induction parts generalizing start with
  | nil => rfl
  | cons a parts ih =>
    have hrest : (List.range' (start + 1) parts.length).mapM f = some parts := ih fun p b hb => by
      rw [Nat.add_assoc, Nat.add_comm 1 p]
      exact h (p + 1) b hb
    have hfirst : f start = some a := h 0 a rfl
    rw [List.length_cons, List.range'_succ, List.mapM_cons, hfirst, hrest]
    rfl

theorem mapM_missing {α β : Type} {f : α → Option β} {l : List α} {x : α} (hx : x ∈ l) (h : f x = none) : l.mapM f = none := by
  induction l with
  | nil => cases hx
  | cons y ys ih =>
    rw [List.mapM_cons]
    obtain rfl | hx := List.mem_cons.mp hx
    · rw [h]
      rfl
    · rw [ih hx]
      cases f y with
      | none => rfl
      | some _ => rfl

/-! ## The clock and the bookings (R191, R197, R205) -/

/-- Today by its record. -/
def todayLoaded (st : Store) (k : Clock) : Clock :=
  match liveBody st .lastDay 0 with
  | some (.lastDay d) => { k with today := some d }
  | _ => k

/-- The zone and the wake lead by their record. -/
def zoneLoaded (st : Store) (k : Clock) : Clock :=
  match liveBody st .settings 6 with
  | some (.clock z lead) => { k with zone := z, wakeLead := lead }
  | _ => k

theorem loadClock_eq (c : Core) : loadClock c = setClock { zoneLoaded c.store (todayLoaded c.store c.clock) with
    bookings := sortBy Booking.before (storedBookings c.store), lastId := ((storedBookings c.store).map (·.id)).foldl max 0 } c := rfl

section
variable {st : Store} {k : Clock}

theorem todayLoaded_some {d : Int} (h : liveBody st .lastDay 0 = some (.lastDay d)) : todayLoaded st k = { k with today := some d } := by
  rw [todayLoaded, h]

theorem todayLoaded_unstored (h : ∀ d, liveBody st .lastDay 0 ≠ some (.lastDay d)) : todayLoaded st k = k := by
  unfold todayLoaded
  split
  · next d hd => exact absurd hd (h d)
  · rfl

theorem todayLoaded_only (st : Store) (k : Clock) : ∃ today, todayLoaded st k = { k with today := today } := by
  unfold todayLoaded
  split
  · exact ⟨_, rfl⟩
  · exact ⟨_, rfl⟩

theorem zoneLoaded_some {z : Option Int} {n : Nat} (h : liveBody st .settings 6 = some (.clock z n)) :
    zoneLoaded st k = { k with zone := z, wakeLead := n } := by
  rw [zoneLoaded, h]

theorem zoneLoaded_unstored (h : ∀ z n, liveBody st .settings 6 ≠ some (.clock z n)) : zoneLoaded st k = k := by
  unfold zoneLoaded
  split
  · next z n hz => exact absurd hz (h z n)
  · rfl

theorem zoneLoaded_only (st : Store) (k : Clock) : ∃ zone lead, zoneLoaded st k = { k with zone := zone, wakeLead := lead } := by
  unfold zoneLoaded
  split
  · exact ⟨_, _, rfl⟩
  · exact ⟨_, _, rfl⟩

end

/-- The clock's own records settle today, the zone and the wake lead alone. -/
theorem clockLoaded_only (st : Store) (k : Clock) :
    ∃ today zone lead, zoneLoaded st (todayLoaded st k) = { k with today := today, zone := zone, wakeLead := lead } := by
  obtain ⟨today, ht⟩ := todayLoaded_only st k
  obtain ⟨zone, lead, hz⟩ := zoneLoaded_only st (todayLoaded st k)
  exact ⟨today, zone, lead, by rw [hz, ht]⟩

theorem mem_storedBookings {st : Store} {b : Booking} : b ∈ storedBookings st ↔
    ∃ n x, 1 ≤ n ∧ n ≤ 255 ∧ liveBody st .booking n = some (.booking (some x)) ∧ b = loadedBooking x := by
  rw [storedBookings, List.mem_filterMap]
  constructor
  · rintro ⟨i, hi, hb⟩
    split at hb
    · next x hx =>
      have hlt : i < 255 := List.mem_range.mp hi
      exact ⟨i + 1, x, by omega, by omega, hx, (Option.some.inj hb).symm⟩
    · cases hb
  · rintro ⟨n, x, h1, h2, hx, rfl⟩
    refine ⟨n - 1, List.mem_range.mpr (by omega), ?_⟩
    rw [Nat.sub_add_cancel h1, hx]

/-- The order of the bookings: by start, then by id. -/
theorem sortedBookings_ordered (l : List Booking) :
    (sortBy Booking.before l).Pairwise (fun a b => a.start < b.start ∨ (a.start = b.start ∧ a.id ≤ b.id)) := by
  refine sortBy_ordered (fun a b h => ?_) (fun a b h => ?_) (fun a b c hab hbc => ?_) l
  · simp only [Booking.before, Bool.or_eq_true, Bool.and_eq_true, decide_eq_true_eq, beq_iff_eq] at h
    omega
  · simp only [Booking.before, Bool.or_eq_false_iff, Bool.and_eq_false_iff, decide_eq_false_iff_not, beq_eq_false_iff_ne] at h
    omega
  · omega

theorem lastId_covers (l : List Booking) : (∀ b ∈ sortBy Booking.before l, b.id ≤ (l.map (·.id)).foldl max 0) ∧
    ((l.map (·.id)).foldl max 0 = 0 ∨ ∃ b ∈ sortBy Booking.before l, b.id = (l.map (·.id)).foldl max 0) := by
  refine ⟨fun b hb => (le_foldl_max _ 0).2 _ (List.mem_map_of_mem ((sortBy_perm l).mem_iff.mp hb)), (foldl_max_mem _ 0).imp id fun h => ?_⟩
  obtain ⟨b, hb, heq⟩ := List.mem_map.mp h
  exact ⟨b, (sortBy_perm l).mem_iff.mpr hb, heq⟩

/-! ## The directory (R12) -/

theorem storedPart_eq_some {st : Store} {v : Option Nat} {k : Nat} {es : List ChannelEntry} :
    storedPart st v k = some es ↔ liveBody st .directoryPart k = some (.directoryPart v es) := by
  unfold storedPart
  constructor
  · intro h
    split at h
    · next v' es' hbody =>
      split at h
      · next hv =>
        rw [hbody, hv, Option.some.inj h]
      · cases h
    · cases h
  · intro h
    rw [h]
    exact if_pos rfl

/-- The directory of the snapshot, when it is whole. -/
def snapshotLoaded (st : Store) (d : Directory) : Directory :=
  match liveBody st .directoryPart 0 with
  | some (.directoryHeader v cs g n) =>
    match ((List.range n).map (· + 1)).mapM (storedPart st v) with
    | some parts => { d with map := parts.flatten, carriers := cs, guideCarrier := g, version := v }
    | none => d
  | _ => d

theorem snapshotLoaded_only (st : Store) (d : Directory) : ∃ map carriers guide version,
    snapshotLoaded st d = { d with map := map, carriers := carriers, guideCarrier := guide, version := version } := by
  unfold snapshotLoaded
  split
  · split
    · exact ⟨_, _, _, _, rfl⟩
    · exact ⟨_, _, _, _, rfl⟩
  · exact ⟨_, _, _, _, rfl⟩

/-- The home carrier by its record. -/
def homeLoaded (st : Store) (d : Directory) : Directory :=
  match liveBody st .settings 1 with
  | some (.homeCarrier h) => { d with home := h }
  | _ => d

theorem loadDirectory_eq (c : Core) : loadDirectory c = setDir (homeLoaded c.store (snapshotLoaded c.store c.dir)) c := rfl

theorem homeLoaded_some {st : Store} {d : Directory} {h : Option Carrier} (hlive : liveBody st .settings 1 = some (.homeCarrier h)) :
    homeLoaded st d = { d with home := h } := by
  rw [homeLoaded, hlive]

theorem homeLoaded_unstored {st : Store} {d : Directory} (hlive : ∀ h, liveBody st .settings 1 ≠ some (.homeCarrier h)) :
    homeLoaded st d = d := by
  unfold homeLoaded
  split
  · next h hh => exact absurd hh (hlive h)
  · rfl

theorem homeLoaded_only (st : Store) (d : Directory) : ∃ home, homeLoaded st d = { d with home := home } := by
  unfold homeLoaded
  split
  · exact ⟨_, rfl⟩
  · exact ⟨_, rfl⟩

theorem snapshotLoaded_whole {st : Store} {d : Directory} {v g : Option Nat} {cs : List CarrierEntry} {n : Nat}
    {parts : List (List ChannelEntry)} (h : liveBody st .directoryPart 0 = some (.directoryHeader v cs g n)) (hn : parts.length = n)
    (hparts : ∀ p es, parts[p]? = some es → liveBody st .directoryPart (p + 1) = some (.directoryPart v es)) :
    snapshotLoaded st d = { d with map := parts.flatten, carriers := cs, guideCarrier := g, version := v } := by
  have hrange : (List.range n).map (· + 1) = List.range' 1 parts.length := by
    rw [hn, List.range'_eq_map_range]
    exact List.map_congr_left fun p _ => Nat.add_comm p 1
  have hfound : (List.range' 1 parts.length).mapM (storedPart st v) = some parts := mapM_found fun p es hp => by
    rw [Nat.add_comm]
    exact storedPart_eq_some.mpr (hparts p es hp)
  unfold snapshotLoaded
  rw [h]
  dsimp only
  rw [hrange, hfound]

theorem snapshotLoaded_broken {st : Store} {d : Directory} (h : ∀ v cs g n, liveBody st .directoryPart 0 = some (.directoryHeader v cs g n) →
    ∃ p, 1 ≤ p ∧ p ≤ n ∧ ∀ es, liveBody st .directoryPart p ≠ some (.directoryPart v es)) : snapshotLoaded st d = d := by
  unfold snapshotLoaded
  split
  · next v cs g n hheader =>
    obtain ⟨p, h1, h2, hp⟩ := h v cs g n hheader
    have hmem : p ∈ (List.range n).map (· + 1) := List.mem_map.mpr ⟨p - 1, List.mem_range.mpr (by omega), by omega⟩
    have hnone : storedPart st v p = none := Option.eq_none_iff_forall_ne_some.mpr fun es hes => hp es (storedPart_eq_some.mp hes)
    rw [mapM_missing hmem hnone]
  · rfl

/-! ## The acquisition limit and the sweep interval (R16, R113) -/

section
variable {c : Core}

/-- The acquisition limit of its record. -/
def acqLimitLoaded (c : Core) : Core :=
  match liveBody c.store .settings 2 with
  | some (.acqLimit ms) => setAcqLimit ms c
  | _ => c

theorem acqLimitLoaded_only (c : Core) : ∃ n, acqLimitLoaded c = { c with arb := { c.arb with acqLimit := n } } := by
  unfold acqLimitLoaded
  split
  · exact ⟨_, rfl⟩
  · exact ⟨_, rfl⟩

theorem acqLimitLoaded_some {n : Nat} (h : liveBody c.store .settings 2 = some (.acqLimit n)) :
    (acqLimitLoaded c).arb.acqLimit = n := by
  rw [acqLimitLoaded, h]
  rfl

theorem acqLimitLoaded_unstored (h : ∀ n, liveBody c.store .settings 2 ≠ some (.acqLimit n)) : acqLimitLoaded c = c := by
  unfold acqLimitLoaded
  split
  · next n hn => exact absurd hn (h n)
  · rfl

theorem loadSettings_some {n : Nat} (h : liveBody c.store .settings 3 = some (.sweepInterval n)) :
    loadSettings c = setInterval n (acqLimitLoaded c) := by
  obtain ⟨_, he⟩ := acqLimitLoaded_only c
  have hlive : liveBody (acqLimitLoaded c).store .settings 3 = some (.sweepInterval n) := by
    rw [he]
    exact h
  change (match liveBody (acqLimitLoaded c).store .settings 3 with
    | some (.sweepInterval min) => setInterval min (acqLimitLoaded c)
    | _ => acqLimitLoaded c) = _
  rw [hlive]

theorem loadSettings_unstored (h : ∀ n, liveBody c.store .settings 3 ≠ some (.sweepInterval n)) : loadSettings c = acqLimitLoaded c := by
  obtain ⟨_, he⟩ := acqLimitLoaded_only c
  have hlive : ∀ n, liveBody (acqLimitLoaded c).store .settings 3 ≠ some (.sweepInterval n) := by
    rw [he]
    exact h
  unfold loadSettings
  dsimp only
  split
  · next n hn => exact absurd hn (hlive n)
  · rfl

theorem loadSettings_acqLimit (c : Core) : (loadSettings c).arb = (acqLimitLoaded c).arb ∧
    loadSettings c = { acqLimitLoaded c with guide := (loadSettings c).guide } := by
  by_cases h : ∃ n, liveBody c.store .settings 3 = some (.sweepInterval n)
  · obtain ⟨n, hn⟩ := h
    rw [loadSettings_some hn]
    exact ⟨rfl, rfl⟩
  · rw [loadSettings_unstored fun n hn => h ⟨n, hn⟩]
    exact ⟨rfl, rfl⟩

end

end Sys2Proof.Machine
end

section
/-! The loads of the grants and the purchases (R101, R159). -/

namespace Sys2Proof.Machine

open Sys2Proof

/-! ## The grants (R101) -/

/-- The package grants by their record. -/
def packagesLoaded (st : Store) (c : Core) : Core :=
  match liveBody st .package 0 with
  | some (.packages l) => setPackages l c
  | _ => c

/-- The event grants by their record. -/
def eventsLoaded (st : Store) (c : Core) : Core :=
  match liveBody st .eventGrant 0 with
  | some (.eventGrants l) => setEvents l c
  | _ => c

/-- The cut flag and the last numbers by their record. -/
def numbersLoaded (st : Store) (c : Core) : Core :=
  match liveBody st .bulletinNumbers 0 with
  | some (.bulletinNumbers cut last) => { c with access := { c.access with cut := cut, last := last } }
  | _ => c

theorem loadAccess_locked {c : Core} {f : IssueFields} (h : c.access.issue = .locked f) :
    loadAccess c = numbersLoaded c.store (eventsLoaded c.store (packagesLoaded c.store c)) := if_pos (Issue.isLocked_iff.mpr ⟨f, h⟩)

theorem loadAccess_unlocked {c : Core} (h : ∀ f, c.access.issue ≠ .locked f) : loadAccess c = c :=
  if_neg fun hlocked => by
    obtain ⟨f, hf⟩ := Issue.isLocked_iff.mp hlocked
    exact h f hf

section
variable (st : Store) (c : Core)

theorem packagesLoaded_spec : ∃ l, packagesLoaded st c = setPackages l c ∧ (∀ x, liveBody st .package 0 = some (.packages x) → l = x) ∧
    ((∀ x, liveBody st .package 0 ≠ some (.packages x)) → l = c.access.packages) := by
  unfold packagesLoaded
  split
  · next l hl => exact ⟨l, rfl, fun x hx => by rw [hl] at hx; cases hx; rfl, fun h => absurd hl (h l)⟩
  · next hl => exact ⟨c.access.packages, rfl, fun x hx => absurd hx (hl x), fun _ => rfl⟩

theorem eventsLoaded_spec : ∃ l, eventsLoaded st c = setEvents l c ∧ (∀ x, liveBody st .eventGrant 0 = some (.eventGrants x) → l = x) ∧
    ((∀ x, liveBody st .eventGrant 0 ≠ some (.eventGrants x)) → l = c.access.events) := by
  unfold eventsLoaded
  split
  · next l hl => exact ⟨l, rfl, fun x hx => by rw [hl] at hx; cases hx; rfl, fun h => absurd hl (h l)⟩
  · next hl => exact ⟨c.access.events, rfl, fun x hx => absurd hx (hl x), fun _ => rfl⟩

theorem numbersLoaded_spec : ∃ cut last, numbersLoaded st c = { c with access := { c.access with cut := cut, last := last } } ∧
    (∀ x y, liveBody st .bulletinNumbers 0 = some (.bulletinNumbers x y) → cut = x ∧ last = y) ∧
    ((∀ x y, liveBody st .bulletinNumbers 0 ≠ some (.bulletinNumbers x y)) → cut = c.access.cut ∧ last = c.access.last) := by
  unfold numbersLoaded
  split
  · next cut last hl => exact ⟨cut, last, rfl, fun x y hx => by rw [hl] at hx; cases hx; exact ⟨rfl, rfl⟩, fun h => absurd hl (h cut last)⟩
  · next hl => exact ⟨c.access.cut, c.access.last, rfl, fun x y hx => absurd hx (hl x y), fun _ => ⟨rfl, rfl⟩⟩

end

/-! ## The uplink's settings, CREDIT and LOG_ACK (R159) -/

/-- The uplink's mode and interval by their record. -/
def uplinkLoaded (st : Store) (c : Core) : Core :=
  match liveBody st .settings 5 with
  | some (.uplink m n) => setUplinkState { c.uplink.withInterval n with mode := m } c
  | _ => c

/-- The credit by its record, while the issue record is locked. -/
def creditLoaded (st : Store) (c : Core) : Core :=
  match liveBody st .credit 0 with
  | some (.credit b l x) => if c.access.issue.isLocked then setPurchase { c.purchase with balance := b, limit := l, charged := x } c else c
  | _ => c

/-- The acknowledged-through number and the parity by their record. -/
def ackLoaded (st : Store) (c : Core) : Core :=
  match liveBody st .logAck 0 with
  | some (.logAck a p) => setUplinkState { c.uplink with parity := p } (setPurchase { c.purchase with acked := a } c)
  | _ => c

theorem loadCredit_eq (c : Core) : loadCredit c = ackLoaded c.store (creditLoaded c.store (uplinkLoaded c.store c)) := rfl

section
variable (st : Store) (c : Core)

theorem uplinkLoaded_spec : ∃ u, uplinkLoaded st c = setUplinkState u c ∧ u.parity = c.uplink.parity ∧
    (∀ m n, liveBody st .settings 5 = some (.uplink m n) → u.mode = m ∧ u.interval = n ∧ u.reportTimer.reload = n * 60000) ∧
    ((∀ m n, liveBody st .settings 5 ≠ some (.uplink m n)) → u = c.uplink) := by
  unfold uplinkLoaded
  split
  · next m n hl => exact ⟨_, rfl, rfl, fun x y hx => by rw [hl] at hx; cases hx; exact ⟨rfl, rfl, rfl⟩, fun h => absurd hl (h m n)⟩
  · next hl => exact ⟨c.uplink, rfl, rfl, fun x y hx => absurd hx (hl x y), fun _ => rfl⟩

theorem creditLoaded_spec : ∃ p, creditLoaded st c = setPurchase p c ∧ p.acked = c.purchase.acked ∧
    (∀ b l x, (∃ f, c.access.issue = .locked f) → liveBody st .credit 0 = some (.credit b l x) →
      p.balance = b ∧ p.limit = l ∧ p.charged = x) ∧
    (¬(∃ f, c.access.issue = .locked f) ∨ (∀ b l x, liveBody st .credit 0 ≠ some (.credit b l x)) → p = c.purchase) := by
  unfold creditLoaded
  split
  · next b l x hl =>
    split
    · next hlocked =>
      refine ⟨_, rfl, rfl, fun b' l' x' _ hx => by rw [hl] at hx; cases hx; exact ⟨rfl, rfl, rfl⟩, fun h => ?_⟩
      obtain h | h := h
      · exact absurd (Issue.isLocked_iff.mp hlocked) h
      · exact absurd hl (h b l x)
    · next hlocked => exact ⟨c.purchase, rfl, rfl, fun _ _ _ h => absurd (Issue.isLocked_iff.mpr h) hlocked, fun _ => rfl⟩
  · next hl => exact ⟨c.purchase, rfl, rfl, fun b l x _ hx => absurd hx (hl b l x), fun _ => rfl⟩

theorem ackLoaded_spec : ∃ acked parity,
    ackLoaded st c = setUplinkState { c.uplink with parity := parity } (setPurchase { c.purchase with acked := acked } c) ∧
    (∀ a y, liveBody st .logAck 0 = some (.logAck a y) → acked = a ∧ parity = y) ∧
    ((∀ a y, liveBody st .logAck 0 ≠ some (.logAck a y)) → acked = c.purchase.acked ∧ parity = c.uplink.parity) := by
  unfold ackLoaded
  split
  · next a y hl => exact ⟨a, y, rfl, fun x z hx => by rw [hl] at hx; cases hx; exact ⟨rfl, rfl⟩, fun h => absurd hl (h a y)⟩
  · next hl => exact ⟨c.purchase.acked, c.uplink.parity, rfl, fun a y hx => absurd hx (hl a y), fun _ => ⟨rfl, rfl⟩⟩

end

/-! ## The stored purchases (R159) -/

theorem loadedPurchases_locked {c : Core} (h : ∃ f, c.access.issue = .locked f) : loadedPurchases c = storedPurchases c.store :=
  if_pos (Issue.isLocked_iff.mpr h)

theorem loadedPurchases_unlocked {c : Core} (h : ¬∃ f, c.access.issue = .locked f) : loadedPurchases c = [] :=
  if_neg (mt Issue.isLocked_iff.mp h)

theorem mem_storedPurchases {st : Store} {x : PurchaseRecord × EventGrant} : x ∈ storedPurchases st ↔
    ∃ y ∈ allRecords st, ∃ b l, y.2.body = .purchase x.1 x.2 b l ∧ liveIn st (allRecords st) y.2.key = some y := by
  unfold storedPurchases
  dsimp only
  rw [(sortBy_perm _).mem_iff, List.mem_filterMap]
  refine exists_congr fun y => and_congr_right fun _ => ?_
  constructor
  · intro h
    split at h
    · next r g b l hbody =>
      split at h
      · next hlive =>
        cases h
        exact ⟨b, l, hbody, beq_iff_eq.mp hlive⟩
      · cases h
    · cases h
  · rintro ⟨b, l, hbody, hlive⟩
    rw [hbody]
    exact if_pos (beq_iff_eq.mpr hlive)

/-! ## The replay (R159) -/

section
variable {e : Core} {r : PurchaseRecord} {g : EventGrant}

theorem same_grant_iff {x g : EventGrant} : x.same g = true ↔ x.lcn = g.lcn ∧ x.event = g.event := by
  simp [EventGrant.same]

theorem replayGrant_fits {l : List EventGrant} (h : l.length < 24 ∨ ∃ x ∈ l, x.lcn = g.lcn ∧ x.event = g.event) :
    replayGrant g l = installGrant g l := if_pos (by simpa [same_grant_iff] using h)

theorem replayGrant_evicts {l : List EventGrant} (hl : 24 ≤ l.length) (h : ∀ x ∈ l, x.lcn = g.lcn → x.event ≠ g.event) :
    replayGrant g l = installGrant g l.tail := if_neg (by simpa [same_grant_iff] using ⟨hl, h⟩)

theorem foldl_replay_acked (l : List (PurchaseRecord × EventGrant)) (c : Core) : (l.foldl replay c).purchase.acked = c.purchase.acked := by
  induction l generalizing c with
  | nil => rfl
  | cons x l ih => exact (ih _).trans rfl

end

/-- The box with the purchases replayed and logged, its grant group not yet committed. -/
def purchasesReplayed (d : Core) (loaded stored : List (PurchaseRecord × EventGrant)) : Core :=
  let replayed := (loaded.filter fun x => afterOpt x.1.seq d.purchase.charged).foldl replay d
  { replayed with purchase := { replayed.purchase with
      log := (loaded.filter fun x => afterOpt x.1.seq d.purchase.acked).map fun x => { x.1 with reported := false }
      nextSeq := (((stored.getLast?.map (·.1.seq)) <|> d.purchase.acked).map (· + 1)).getD 1 } }

/-- What the settings, CREDIT and LOG_ACK settle. -/
structure CreditLoaded (c : Core) (p : Purchase) (u : Uplink) : Prop where
  settings : ∀ m n, liveBody c.store .settings 5 = some (.uplink m n) → u.mode = m ∧ u.interval = n ∧ u.reportTimer.reload = n * 60000
  noSettings : (∀ m n, liveBody c.store .settings 5 ≠ some (.uplink m n)) → u = { c.uplink with parity := u.parity }
  credit : ∀ b l x, (∃ f, c.access.issue = .locked f) → liveBody c.store .credit 0 = some (.credit b l x) →
    p.balance = b ∧ p.limit = l ∧ p.charged = x
  noCredit : ¬(∃ f, c.access.issue = .locked f) ∨ (∀ b l x, liveBody c.store .credit 0 ≠ some (.credit b l x)) →
    p = { c.purchase with acked := p.acked }
  ack : ∀ a y, liveBody c.store .logAck 0 = some (.logAck a y) → p.acked = a ∧ u.parity = y
  noAck : (∀ a y, liveBody c.store .logAck 0 ≠ some (.logAck a y)) → p.acked = c.purchase.acked ∧ u.parity = c.uplink.parity

theorem loadCredit_loaded (c : Core) : ∃ p u, loadCredit c = { c with purchase := p, uplink := u } ∧ CreditLoaded c p u := by
  obtain ⟨u, huplink, hparity, hu, hnu⟩ := uplinkLoaded_spec c.store c
  obtain ⟨p, hcredit, hacked, hp, hnp⟩ := creditLoaded_spec c.store (uplinkLoaded c.store c)
  obtain ⟨acked, parity, hack, ha, hna⟩ := ackLoaded_spec c.store (creditLoaded c.store (uplinkLoaded c.store c))
  rw [hcredit, huplink] at hna
  rw [huplink] at hacked hp hnp
  refine ⟨{ p with acked := acked }, { u with parity := parity }, ?_, hu, fun h => ?_, hp, fun h => ?_, ha, fun h => ?_⟩
  · rw [loadCredit_eq, hack, hcredit, huplink]
    rfl
  · rw [hnu h]
  · rw [hnp h]
    rfl
  · obtain ⟨hx, hy⟩ := hna h
    exact ⟨hx.trans hacked, hy.trans hparity⟩

theorem loadPurchases_eq (c : Core) : loadPurchases c =
    let d := loadCredit c
    let again := (loadedPurchases c).filter fun x => afterOpt x.1.seq d.purchase.charged
    let done := purchasesReplayed d (loadedPurchases c) (storedPurchases c.store)
    dueTest (becameUnreported 0 (if again = [] then done else commitGroup true done)) := by
  obtain ⟨p, u, he, -⟩ := loadCredit_loaded c
  have hloaded : loadedPurchases (loadCredit c) = loadedPurchases c := by rw [he]; rfl
  have hstore : (loadCredit c).store = c.store := by rw [he]
  have hacked := foldl_replay_acked ((loadedPurchases c).filter fun x => afterOpt x.1.seq (loadCredit c).purchase.charged) (loadCredit c)
  unfold loadPurchases purchasesReplayed nextSeqOf
  dsimp only
  rw [hloaded, hstore, hacked]
  simp only [List.isEmpty_iff]
  rfl

end Sys2Proof.Machine
end

section
/-! The loads of the limits and the link (R147, R223). -/

namespace Sys2Proof.Machine

open Sys2Proof

/-! ## The profiles (R147) -/

/-- The minutes of USED_TODAY, of its day alone. -/
def usedLoaded (st : Store) (today : Option Int) (n : Fin 6) : Nat :=
  match liveBody st .usedToday 0 with
  | some (.usedToday u d) => if d = today ∧ today ≠ none then u.get n else 0
  | _ => 0

theorem storedUsed_get (st : Store) (today : Option Int) (n : Fin 6) : (storedUsed st today).get n = usedLoaded st today n := by
  have hnone : (Vector.replicate 6 0).get n = 0 := by simp [Vector.get]
  unfold usedLoaded
  split
  · next u d hu =>
    rw [storedUsed, hu]
    dsimp only
    split
    · next h => exact (if_pos ⟨h.1, Option.isSome_iff_ne_none.mp h.2⟩).symm
    · next h => exact hnone.trans (if_neg fun hd => h ⟨hd.1, Option.isSome_iff_ne_none.mpr hd.2⟩).symm
  · next hu =>
    unfold storedUsed
    split
    · next u d hbody => exact absurd hbody (hu u d)
    · exact hnone

theorem storedProfile_some {st : Store} {n : Nat} {p : Profile} (h : liveBody st .profile n = some (.profile (some p))) :
    storedProfile st n = some { p with used := 0 } := by
  rw [storedProfile, h]
  rfl

theorem storedProfile_none {st : Store} {n : Nat} (h : ∀ p, liveBody st .profile n ≠ some (.profile (some p))) :
    storedProfile st n = none := by
  unfold storedProfile
  split
  · next p hp =>
    cases p with
    | none => rfl
    | some p => exact absurd hp (h p)
  · rfl

/-- The profile of a number by its record. -/
def profileLoaded (st : Store) (today : Option Int) (n : Fin 6) : Option Profile :=
  if n = 0 then some .master else withUsed (storedUsed st today) n (storedProfile st n.val)

theorem profileOf_loadProfiles (c : Core) (n : Fin 6) : profileOf (loadProfiles c) n.val = profileLoaded c.store c.clock.today n := by
  fin_cases n
  · rfl
  · rfl
  · rfl
  · rfl
  · rfl
  · rfl

section
variable {st : Store} {today : Option Int} {n : Fin 6}

theorem profileLoaded_some {p : Profile} (hn : n ≠ 0) (h : liveBody st .profile n.val = some (.profile (some p))) :
    profileLoaded st today n = some { p with used := min (usedLoaded st today n) p.allowance } := by
  rw [profileLoaded, if_neg hn, storedProfile_some h, ← storedUsed_get]
  rfl

theorem profileLoaded_none (hn : n ≠ 0) (h : ∀ p, liveBody st .profile n.val ≠ some (.profile (some p))) :
    profileLoaded st today n = none := by
  rw [profileLoaded, if_neg hn, storedProfile_none h]
  rfl

end

theorem loadProfiles_eq (c : Core) : ∃ profiles, loadProfiles c = setLimits { c.limits with profiles := profiles } c := ⟨_, rfl⟩

/-! ## The PIN (R128, R147) -/

/-- The PIN, its count and its lockout, with the notice of a lockout that starts. -/
theorem loadPin_spec (c : Core) : ∃ pin count lockout link,
    loadPin c = { c with limits := { c.limits with pin := pin, count := count, lockout := lockout }, link := link } ∧
    (∀ p n, liveBody c.store .pin 0 = some (.pin p n) → pin = p ∧ count = n ∧
      (n = 3 → lockout = ⟨900000, 900000, true⟩ ∧ link = (post (.pinLockout .reset 15) c).link) ∧
      (n ≠ 3 → lockout = c.limits.lockout ∧ link = c.link)) ∧
    ((∀ p n, liveBody c.store .pin 0 ≠ some (.pin p n)) →
      pin = c.limits.pin ∧ count = c.limits.count ∧ lockout = c.limits.lockout ∧ link = c.link) := by
  unfold loadPin
  split
  · next pin count hl =>
    dsimp only
    split
    · next h3 =>
      refine ⟨pin, count, _, _, rfl, fun p n hx => ?_, fun h => absurd hl (h pin count)⟩
      rw [hl] at hx
      cases hx
      exact ⟨rfl, rfl, fun _ => ⟨rfl, rfl⟩, fun hne => absurd h3 hne⟩
    · next h3 =>
      refine ⟨pin, count, _, _, rfl, fun p n hx => ?_, fun h => absurd hl (h pin count)⟩
      rw [hl] at hx
      cases hx
      exact ⟨rfl, rfl, fun h => absurd h h3, fun _ => ⟨rfl, rfl⟩⟩
  · next hl => exact ⟨_, _, _, _, rfl, fun p n hx => absurd hx (hl p n), fun _ => ⟨rfl, rfl, rfl, rfl⟩⟩

/-! ## The lock list (R147) -/

/-- The lock list by its record. -/
def lockListLoaded (st : Store) (c : Core) : Core :=
  match liveBody st .lockList 0 with
  | some (.lockList l) => setLimits { c.limits with lockList := l } c
  | _ => c

theorem lockListLoaded_spec (st : Store) (c : Core) : ∃ l, lockListLoaded st c = setLimits { c.limits with lockList := l } c ∧
    (∀ x, liveBody st .lockList 0 = some (.lockList x) → l = x) ∧
    ((∀ x, liveBody st .lockList 0 ≠ some (.lockList x)) → l = c.limits.lockList) := by
  unfold lockListLoaded
  split
  · next l hl => exact ⟨l, rfl, fun x hx => by rw [hl] at hx; cases hx; rfl, fun h => absurd hl (h l)⟩
  · next hl => exact ⟨c.limits.lockList, rfl, fun x hx => absurd hx (hl x), fun _ => rfl⟩

/-! ## The defaults of the rooms (R147) -/

/-- The room with this default, its active profile. -/
def defaulted (c : Core) (r : Room) (n : Nat) : RoomContext :=
  { context c r with default := presentDefault c n, active := presentDefault c n }

theorem loadDefaults_spec (c : Core) : ∃ contexts, loadDefaults c = { c with rooms := { c.rooms with contexts := contexts } } ∧
    (∀ a b, liveBody c.store .settings 4 = some (.roomDefaults a b) →
      context (loadDefaults c) .a = defaulted c .a a ∧ context (loadDefaults c) .b = defaulted c .b b) ∧
    ((∀ a b, liveBody c.store .settings 4 ≠ some (.roomDefaults a b)) → loadDefaults c = c) := by
  unfold loadDefaults
  split
  · next a b hl =>
    refine ⟨_, rfl, fun a' b' hx => ?_, fun h => absurd hl (h a b)⟩
    rw [hl] at hx
    cases hx
    dsimp only
    rw [context_setContext_ne _ _ (by decide), context_setContext, context_setContext, context_setContext_ne _ _ (by decide)]
    exact ⟨rfl, rfl⟩
  · next hl => exact ⟨_, rfl, fun a b hx => absurd hx (hl a b), fun _ => rfl⟩

/-! ## The Limit Unit as a whole (R139, R147) -/

theorem loadLimits_eq (c : Core) :
    let d := loadDefaults (lockListLoaded c.store (loadPin (loadProfiles c)))
    loadLimits c = setLimits { d.limits with minute := ⟨60000, 60000, true⟩ } d := by
  obtain ⟨_, _, _, _, hpin, -⟩ := loadPin_spec (loadProfiles c)
  have hstore : (loadPin (loadProfiles c)).store = c.store := by
    rw [hpin]
    rfl
  unfold loadLimits
  generalize loadPin (loadProfiles c) = e at *
  rw [← hstore]
  rfl

/-- What the loads of the limits settle. -/
structure LimitsLoaded (c c' : Core) : Prop where
  profiles : ∀ n : Fin 6, profileOf c' n.val = profileLoaded c.store c.clock.today n
  pin : ∀ p n, liveBody c.store .pin 0 = some (.pin p n) → c'.limits.pin = p ∧ c'.limits.count = n ∧
    (n = 3 → c'.limits.lockout = ⟨900000, 900000, true⟩ ∧ c'.link = (post (.pinLockout .reset 15) c).link) ∧
    (n ≠ 3 → c'.limits.lockout = c.limits.lockout ∧ c'.link = c.link)
  noPin : (∀ p n, liveBody c.store .pin 0 ≠ some (.pin p n)) → c'.limits.pin = c.limits.pin ∧ c'.limits.count = c.limits.count ∧
    c'.limits.lockout = c.limits.lockout ∧ c'.link = c.link
  locks : ∀ x, liveBody c.store .lockList 0 = some (.lockList x) → c'.limits.lockList = x
  noLocks : (∀ x, liveBody c.store .lockList 0 ≠ some (.lockList x)) → c'.limits.lockList = c.limits.lockList
  defaults : ∀ a b, liveBody c.store .settings 4 = some (.roomDefaults a b) →
    context c' .a = { context c .a with default := presentDefault c' a, active := presentDefault c' a } ∧
    context c' .b = { context c .b with default := presentDefault c' b, active := presentDefault c' b }
  noDefaults : (∀ a b, liveBody c.store .settings 4 ≠ some (.roomDefaults a b)) → ∀ r, context c' r = context c r
  minute : c'.limits.minute = ⟨60000, 60000, true⟩
  failFlag : c'.limits.failFlag = c.limits.failFlag
  owed : c'.limits.owed = c.limits.owed

theorem loadLimits_loaded (c : Core) : LimitsLoaded c (loadLimits c) := by
  have hprofiles := profileOf_loadProfiles c
  obtain ⟨profiles, hp⟩ := loadProfiles_eq c
  obtain ⟨pin, count, lockout, link, hpin, hpinSome, hpinNone⟩ := loadPin_spec (loadProfiles c)
  obtain ⟨l, hlocks, hlockSome, hlockNone⟩ := lockListLoaded_spec c.store (loadPin (loadProfiles c))
  obtain ⟨contexts, hdefaults, hdefSome, hdefNone⟩ := loadDefaults_spec (lockListLoaded c.store (loadPin (loadProfiles c)))
  rw [loadLimits_eq]
  dsimp only
  generalize loadDefaults (lockListLoaded c.store (loadPin (loadProfiles c))) = d at *
  generalize lockListLoaded c.store (loadPin (loadProfiles c)) = e at *
  generalize loadPin (loadProfiles c) = f at *
  generalize loadProfiles c = g at *
  subst hp
  subst hpin
  subst hlocks
  subst hdefaults
  exact ⟨hprofiles, hpinSome, hpinNone, hlockSome, hlockNone, hdefSome, fun h r => (congrArg (context · r) (hdefNone h) :), rfl, rfl, rfl⟩

/-! ## The link (R223) -/

theorem loadLink_some {c : Core} {m : AttnMode} {gap : Nat} {key : Byte} (h : liveBody c.store .settings 7 = some (.link m gap key)) :
    loadLink c = { c with link := { c.link.withMode m gap with powerKey := key } } := by
  rw [loadLink, h]
  rfl

theorem loadLink_unstored {c : Core} (h : ∀ m gap key, liveBody c.store .settings 7 ≠ some (.link m gap key)) : loadLink c = c := by
  unfold loadLink
  split
  · next m gap key hl => exact absurd hl (h m gap key)
  · rfl

end Sys2Proof.Machine
end

section
/-! The pages as the start-up scan settles them (R188). -/

namespace Sys2Proof.Machine

open Sys2Proof

/-! ## Every page is settled on its own -/

theorem foldl_setPage (f : PageNo → Page → Page) {l : List PageNo} (hl : l.Nodup) (st : Store) :
    ∃ pages, l.foldl (fun st p => setPage p (f p (page st p)) st) st = { st with pages := pages } ∧
      ∀ p, page { st with pages := pages } p = if p ∈ l then f p (page st p) else page st p := by
  induction l generalizing st with
  | nil => exact ⟨st.pages, rfl, fun p => (if_neg (List.not_mem_nil)).symm⟩
  | cons q l ih =>
    obtain ⟨hq, hl⟩ := List.nodup_cons.mp hl
    obtain ⟨pages, he, hp⟩ := ih hl (setPage q (f q (page st q)) st)
    refine ⟨pages, he, fun p => (hp p).trans ?_⟩
    rw [page_setPage]
    by_cases hpq : p = q
    · subst hpq
      simp [hq]
    · simp [hpq]

/-- The page that stays open, if any. -/
def stillOpen (st : Store) : Option PageNo := highestPage st (·.state == .opened)

theorem settlePages_spec (st : Store) : ∃ pages, settlePages st = { st with pages := pages } ∧
    ∀ p, page { st with pages := pages } p = settlePage (stillOpen st) p (page st p) := by
  obtain ⟨pages, he, hp⟩ := foldl_setPage (settlePage (stillOpen st)) (List.nodup_finRange 128) st
  exact ⟨pages, he, fun p => (hp p).trans (if_pos (List.mem_finRange p))⟩

section
variable {o : Option PageNo} {p : PageNo} {x : Page}

theorem settlePage_entries : (settlePage o p x).entries = x.entries := by
  unfold settlePage
  split
  · rfl
  · rfl

theorem settlePage_notOpened (h : x.state ≠ .opened) : settlePage o p x = x := if_neg (by simp [h])

/-- A page is retiring after it is settled when it was before. -/
theorem settlePage_retiring : (settlePage o p x).state = .retiring ↔ x.state = .retiring := by
  unfold settlePage
  split
  · next h =>
    have hopened : x.state = .opened := by
      rw [Bool.and_eq_true, beq_iff_eq] at h
      exact h.1
    simp [hopened]
  · exact Iff.rfl

end

/-! ## The pages that are erased -/

theorem mem_retiringPages {st : Store} {p : PageNo} : p ∈ retiringPages st ↔ (page st p).state = .retiring := by
  rw [retiringPages, List.mem_filter, beq_iff_eq]
  exact and_iff_right (List.mem_finRange p)

theorem eraseRetiring_spec (notBlank : List PageNo) (st : Store) : ∃ pages, eraseRetiring notBlank st = { st with pages := pages } ∧
    ∀ p, page { st with pages := pages } p = if (page st p).state = .retiring ∧ p ∉ notBlank then .blank else page st p := by
  obtain ⟨pages, he, hp⟩ := foldl_setPage_blank ((retiringPages st).filter fun p => !notBlank.contains p) st
  refine ⟨pages, he, fun p => (hp p).trans ?_⟩
  have hmem : p ∈ (retiringPages st).filter (fun p => !notBlank.contains p) ↔ (page st p).state = .retiring ∧ p ∉ notBlank := by
    rw [List.mem_filter, mem_retiringPages]
    simp
  simp only [hmem]

/-! ## The wipe mark (R187, R188) -/

/-- The serials of the wipe marks that verified. -/
def markSerials (st : Store) : List Nat :=
  allPages.flatMap fun p => (page st p).entries.filterMap fun e => match e with
    | .wipeMark n true => some n
    | _ => none

theorem markFloor_eq (st : Store) : markFloor st = (markSerials st).foldl max 0 := rfl

theorem mem_markSerials {st : Store} {n : Nat} : n ∈ markSerials st ↔ ∃ p, .wipeMark n true ∈ (page st p).entries := by
  unfold markSerials
  rw [List.mem_flatMap]
  constructor
  · rintro ⟨p, -, hn⟩
    obtain ⟨e, he, hmark⟩ := List.mem_filterMap.mp hn
    split at hmark
    · cases hmark
      exact ⟨p, he⟩
    · cases hmark
  · rintro ⟨p, hp⟩
    exact ⟨p, List.mem_finRange p, List.mem_filterMap.mpr ⟨_, hp, rfl⟩⟩

theorem le_markFloor {st : Store} {p : PageNo} {n : Nat} (h : .wipeMark n true ∈ (page st p).entries) : n ≤ markFloor st :=
  (le_foldl_max _ 0).2 n (mem_markSerials.mpr ⟨p, h⟩)

theorem markFloor_eq_zero {st : Store} : markFloor st = 0 ↔ ∀ p n, 0 < n → .wipeMark n true ∉ (page st p).entries := by
  constructor
  · intro h p n hn hmem
    have hle := le_markFloor hmem
    omega
  · intro h
    obtain h0 | hmem := foldl_max_mem (markSerials st) 0
    · exact h0
    · obtain ⟨p, hp⟩ := mem_markSerials.mp hmem
      rw [markFloor_eq]
      by_contra hne
      exact h p _ (Nat.pos_of_ne_zero hne) hp

/-- The mark depends on the entries of the pages alone. -/
theorem markFloor_congr {st st' : Store} (h : ∀ p, (page st' p).entries = (page st p).entries) : markFloor st' = markFloor st := by
  simp only [markFloor, h]

/-! ## The scan as a whole -/

/-- What the scan leaves of the pages, and the mark it finds. -/
structure Scanned (notBlank : List PageNo) (st st' : Store) : Prop where
  floor : st'.floor = markFloor st
  page : ∀ p, page st' p = if (page st p).state = .retiring ∧ p ∉ notBlank then .blank else settlePage (stillOpen st) p (page st p)

theorem page_settleGroups (st : Store) (p : PageNo) : page (settleGroups st) p = page st p := by
  have hpages : (settleGroups st).pages = st.pages := by unfold settleGroups; rfl
  unfold page
  rw [hpages]

theorem page_settleSerials (st : Store) (p : PageNo) : page (settleSerials st) p = page st p := by
  have hpages : (settleSerials st).pages = st.pages := by unfold settleSerials; rfl
  unfold page
  rw [hpages]

theorem scanned_scanned (notBlank : List PageNo) (st : Store) : Scanned notBlank st (scanned notBlank st) := by
  obtain ⟨pages, he, hp⟩ := settlePages_spec st
  have hserials : ∀ p, page (settleSerials (settlePages st)) p = settlePage (stillOpen st) p (page st p) := fun p => by
    rw [page_settleSerials, he]
    exact hp p
  have hsettled : ∀ p, page (settleGroups (settleSerials (settlePages st))) p = settlePage (stillOpen st) p (page st p) := fun p =>
    (page_settleGroups _ p).trans (hserials p)
  have hfloor : (settleGroups (settleSerials (settlePages st))).floor = markFloor st := by
    have hmark : markFloor (settleSerials (settlePages st)) = markFloor st :=
      markFloor_congr fun p => (congrArg Page.entries (hserials p)).trans settlePage_entries
    rw [← hmark, settleGroups]
  rw [scanned]
  generalize settleGroups (settleSerials (settlePages st)) = g at *
  obtain ⟨erased, hs, hr⟩ := eraseRetiring_spec notBlank g
  rw [hs]
  refine ⟨hfloor, fun p => (hr p).trans ?_⟩
  rw [hsettled]
  simp only [settlePage_retiring]

section
variable {notBlank : List PageNo} {st st' : Store} (h : Scanned notBlank st st')
include h

theorem Scanned.erases {p : PageNo} (hr : (Machine.page st p).state = .retiring) (hp : p ∉ notBlank) : Machine.page st' p = .blank :=
  (h.page p).trans (if_pos ⟨hr, hp⟩)

theorem Scanned.keeps {p : PageNo} (hs : (Machine.page st p).state = .erased ∨ (Machine.page st p).state = .full) :
    Machine.page st' p = Machine.page st p := by
  rw [h.page, if_neg, settlePage_notOpened]
  · obtain hs | hs := hs
    · simp [hs]
    · simp [hs]
  · obtain hs | hs := hs
    · simp [hs]
    · simp [hs]

end

/-- The records that the scan leaves live are not below the mark. -/
theorem floor_le_liveRecord {st : Store} {key : StoreKey} {x : PageNo × Record} (h : liveRecord st key = some x) : st.floor ≤ x.2.serial := by
  unfold liveRecord liveIn at h
  have hall : ∀ y ∈ (allRecords st).filter (fun x => x.2.key == key && validIn st x.2 && st.floor ≤ x.2.serial), st.floor ≤ y.2.serial :=
    fun y hy => by
      have hkept := (List.mem_filter.mp hy).2
      simp only [Bool.and_eq_true, decide_eq_true_eq] at hkept
      exact hkept.2
  have hbest : ∀ y, (none : Option (PageNo × Record)) = some y → st.floor ≤ y.2.serial :=
    fun y hy => absurd hy.symm (Option.some_ne_none y)
  generalize (allRecords st).filter (fun x => x.2.key == key && validIn st x.2 && st.floor ≤ x.2.serial) = l at h hall
  generalize (none : Option (PageNo × Record)) = best at h hbest
  induction l generalizing best with
  | nil => exact hbest x h
  | cons z l ih =>
    have hz := hall z List.mem_cons_self
    refine ih (fun y hy => hall y (List.mem_cons_of_mem z hy)) _ h fun y hy => ?_
    dsimp only at hy
    split at hy
    · cases hy
      exact hz
    · split at hy
      · cases hy
        exact hz
      · next w _ => exact hbest y hy

end Sys2Proof.Machine
end

section
/-! The store leaves SCANNING, and works on after the loads (R182, R187 to R189). -/

namespace Sys2Proof.Machine

open Sys2Proof

/-! ## READY (R221) -/

theorem ready_first (n : Notice) (l : Link) : (l.ready n).notices.head? = some n := by
  unfold Link.ready
  dsimp only
  split
  · rfl
  · split
    · rfl
    · rfl

theorem postReady_first (c : Core) : (postReady c).link.notices.head? =
    some ⟨c.clock.time.isSome, c.clock.time.getD c.link.refSeconds, .ready c.link.cause⟩ := by
  rw [← stamped_eq]
  exact ready_first _ _

/-! ## The state after SCANNING (R189) -/

/-- The oldest notice stands. -/
def FirstStands (c c' : Core) : Prop := ∀ n, c.link.notices.head? = some n → c'.link.notices.head? = some n

theorem FirstStands.trans {a b c : Core} (h : FirstStands a b) (h' : FirstStands b c) : FirstStands a c := fun n hn => h' n (h n hn)

theorem FirstStands.of_link {c c' : Core} (h : c'.link = c.link) : FirstStands c c' := fun n hn => by rw [h]; exact hn

theorem post_firstStands (b : NoticeBody) (c : Core) : FirstStands c (post b c) := (post_steady (.refl c)).first

theorem leaveScanning_wipes {failed : Option PageNo} {c : Core} (h : c.store.floor ≠ 0) :
    leaveScanning failed c = setStore { c.store with state := .wiping, wipeFailed := failed.isSome } c := if_pos (Nat.pos_of_ne_zero h)

theorem leaveScanning_idle {c : Core} (h : c.store.floor = 0) : leaveScanning none c = setStore { c.store with state := .idle } c := by
  unfold leaveScanning
  rw [if_neg (by omega)]

theorem leaveScanning_fails {c : Core} (p : PageNo) (h : c.store.floor = 0) : leaveScanning (some p) c =
    post (.storeState .fault (some .erase) (erasedCount c.store) (some p) none)
      (setStore { c.store with state := .fault, faultCause := some .erase, faultPage := some p } c) := by
  unfold leaveScanning
  rw [if_neg (by omega)]

/-- What the store's leave of SCANNING keeps, and the states it enters. -/
structure ScanLeft (failed : Option PageNo) (c c' : Core) : Prop where
  first : FirstStands c c'
  pages : c'.store.pages = c.store.pages
  serial : c'.store.nextSerial = c.store.nextSerial
  state : c'.store.state = if c.store.floor ≠ 0 then .wiping else if failed.isSome = true then .fault else .idle

theorem leaveScanning_scanLeft (failed : Option PageNo) (c : Core) : ScanLeft failed c (leaveScanning failed c) := by
  by_cases h : c.store.floor = 0
  · cases failed with
    | none =>
      rw [leaveScanning_idle h]
      exact ⟨.of_link rfl, rfl, rfl, by rw [if_neg (not_not_intro h)]; rfl⟩
    | some p =>
      rw [leaveScanning_fails p h]
      refine ⟨?_, rfl, rfl, by rw [if_neg (not_not_intro h)]; rfl⟩
      exact FirstStands.trans (.of_link rfl) (post_firstStands _ _)
  · rw [leaveScanning_wipes h]
    exact ⟨.of_link rfl, rfl, rfl, (if_pos h).symm⟩

/-! ## A run of compaction begins (R182, R183, R185) -/

/-- What the start of a run keeps while it settles the store's state. -/
structure RunBegun (c c' : Core) : Prop where
  first : FirstStands c c'
  serial : c'.store.nextSerial = c.store.nextSerial
  state : c'.store.state ≠ .scanning

theorem RunBegun.after {a b c : Core} (h : RunBegun b c) (hlink : b.link = a.link) (hserial : b.store.nextSerial = a.store.nextSerial) :
    RunBegun a c := ⟨FirstStands.trans (.of_link hlink) h.first, h.serial.trans hserial, h.state⟩

theorem waitingFailed_firstStands (keys : List StoreKey) (c : Core) : FirstStands c (waitingFailed keys c) := by
  induction keys generalizing c with
  | nil => exact .of_link rfl
  | cons k ks ih => exact FirstStands.trans (toldFailed_steady (.refl c)).first (ih _)

theorem enterStoreFull_runBegun (c : Core) : RunBegun c (enterStoreFull c) := by
  obtain ⟨d, hstore, hfirst, heq⟩ : ∃ d : Core, d.store = filledUp c.store ∧ FirstStands c d ∧ enterStoreFull c = itemLeft d := by
    refine ⟨_, ?_, ?_, rfl⟩
    · rw [post_store, waitingFailed_store]
      rfl
    · exact FirstStands.trans (FirstStands.trans (.of_link rfl) (waitingFailed_firstStands _ (setStore (filledUp c.store) c))) (post_firstStands _ _)
  have hsteady := itemLeft_steady (.refl d)
  obtain ⟨hstate, -, -, hserial, -⟩ := hsteady.running (by rw [hstore]; simp [filledUp])
  rw [heq]
  refine ⟨hfirst.trans hsteady.first, ?_, ?_⟩
  · rw [hserial, hstore]
    rfl
  · rw [hstate, hstore]
    nofun

theorem runBegun_of_store {st : Store} {c : Core} (hserial : st.nextSerial = c.store.nextSerial) (hstate : st.state ≠ .scanning) :
    RunBegun c (setStore st c) := ⟨.of_link rfl, hserial, hstate⟩

/-- A copy, or the mark of a page without one, is pursued while the store compacts. -/
theorem pursue_runBegun {n : Need} {c : Core} (hn : (∃ r second, n = .copy r second) ∨ n = .retire) (hs : c.store.state = .compactingCopy) :
    RunBegun c (pursue n c) := by
  have hstate : c.store.state ≠ .scanning := by rw [hs]; nofun
  have hstands : RunBegun c c := ⟨.of_link rfl, rfl, hstate⟩
  obtain ⟨r, second, rfl⟩ | rfl := hn
  · unfold pursue
    dsimp only
    split
    · exact runBegun_of_store rfl hstate
    · exact runBegun_of_store rfl hstate
    · rw [if_neg (by rw [hs]; nofun)]
      exact enterStoreFull_runBegun c
  · unfold pursue
    dsimp only
    split
    · exact runBegun_of_store rfl hstate
    · exact hstands

theorem copyNext_runBegun (p : PageNo) (c : Core) : RunBegun c (copyNext p c) := by
  unfold copyNext
  dsimp only
  split
  · exact (pursue_runBegun (.inl ⟨_, _, rfl⟩) rfl).after rfl rfl
  · exact (pursue_runBegun (.inr rfl) rfl).after rfl rfl

theorem continueRun_runBegun {force : Bool} {c : Core} (hs : c.store.state ≠ .scanning) : RunBegun c (continueRun force c) := by
  unfold continueRun
  split
  · exact ⟨.of_link rfl, rfl, hs⟩
  · split
    · exact runBegun_of_store rfl nofun
    · split
      · exact copyNext_runBegun _ c
      · split
        · exact (copyNext_runBegun _ _).after rfl rfl
        · exact enterStoreFull_runBegun c

theorem settleIdle_runBegun (c : Core) : RunBegun c (settleIdle c) := by
  have hidle : StoreState.idle ≠ .scanning := by decide
  unfold settleIdle startRun
  dsimp only
  split
  · refine RunBegun.after (continueRun_runBegun ?_) rfl rfl
    exact hidle
  · exact runBegun_of_store rfl hidle

theorem settleIdle_idle {c : Core} (h : 4 ≤ erasedCount c.store) :
    settleIdle c = setStore { c.store with state := .idle, activity := .none } c :=
  if_neg (not_lt.mpr h)

/-! ## The loads are over (R93, R187, R189) -/

theorem afterLoads_blank {c : Core} (h : c.store.state = .wiping) (hb : (allBanks.filter fun b => !bankBlank c.store b) = []) :
    afterLoads c = completeWipe c := by
  unfold afterLoads
  rw [h]
  dsimp only
  rw [hb]

theorem afterLoads_banks {c : Core} {b : Fin 8} {bs : List (Fin 8)} (h : c.store.state = .wiping)
    (hb : (allBanks.filter fun b => !bankBlank c.store b) = b :: bs) :
    afterLoads c = setStore { c.store with activity := .bankErase b, banks := bs } c := by
  unfold afterLoads
  rw [h]
  dsimp only
  rw [hb]
  rfl

theorem afterLoads_idle {c : Core} (h : c.store.state = .idle) : afterLoads c = settleIdle (retestKept c) := by
  unfold afterLoads
  rw [h]

theorem afterLoads_fault {c : Core} (h : c.store.state = .fault) : afterLoads c = retestKept c := by
  unfold afterLoads
  rw [h]

theorem completeWipe_firstStands (c : Core) : FirstStands c (completeWipe c) := by
  have hblank : FirstStands c (storeBlank c) := FirstStands.trans (.of_link rfl) (post_firstStands _ _)
  exact hblank.trans (completeWipe_steady' c).first

theorem completeWipe_notScanning (c : Core) : (completeWipe c).store.state ≠ .scanning := by
  rw [(completeWipe_store c).1]
  split
  · nofun
  · nofun

/-- The oldest notice stands while the store goes on, and the store does not scan again. -/
theorem afterLoads_stands {c : Core} (h : c.store.state = .wiping ∨ c.store.state = .fault ∨ c.store.state = .idle) :
    FirstStands c (afterLoads c) ∧ (afterLoads c).store.state ≠ .scanning := by
  obtain h | h | h := h
  · cases hb : allBanks.filter fun b => !bankBlank c.store b with
    | nil =>
      rw [afterLoads_blank h hb]
      exact ⟨completeWipe_firstStands c, completeWipe_notScanning c⟩
    | cons b bs =>
      rw [afterLoads_banks h hb]
      exact ⟨.of_link rfl, fun hs => absurd (h.symm.trans hs) (by decide)⟩
  · have hsteady := retestKept_steady (.refl c)
    rw [afterLoads_fault h, (hsteady.running (by rw [h]; nofun)).1, h]
    exact ⟨hsteady.first, nofun⟩
  · have hbegun := settleIdle_runBegun (retestKept c)
    rw [afterLoads_idle h]
    exact ⟨FirstStands.trans (retestKept_steady (.refl c)).first hbegun.first, hbegun.state⟩

/-- Without a wipe the pages and the serial stand, a fault stays, and a store with pages enough is idle. -/
theorem afterLoads_pages {c : Core} (h : c.store.state = .fault ∨ c.store.state = .idle) :
    (afterLoads c).store.pages = c.store.pages ∧ (afterLoads c).store.nextSerial = c.store.nextSerial ∧
      (c.store.state = .fault → (afterLoads c).store.state = .fault) ∧
      (c.store.state = .idle → 4 ≤ erasedCount c.store → (afterLoads c).store.state = .idle) := by
  have hsteady := retestKept_steady (.refl c)
  obtain ⟨hstate, -, -, hserial, -⟩ := hsteady.running (by obtain h | h := h <;> rw [h] <;> nofun)
  obtain h | h := h
  · rw [afterLoads_fault h]
    exact ⟨hsteady.pages, hserial, fun _ => hstate.trans h, fun hidle => by rw [h] at hidle; cases hidle⟩
  · have hcount : erasedCount (retestKept c).store = erasedCount c.store := by
      unfold erasedCount
      rw [hsteady.pages]
    rw [afterLoads_idle h]
    refine ⟨(settleIdle_pages _).trans hsteady.pages, (settleIdle_runBegun _).serial.trans hserial, fun hf => ?_, fun _ h4 => ?_⟩
    · rw [h] at hf
      cases hf
    · rw [settleIdle_idle (by rw [hcount]; exact h4)]
      rfl

/-! ## The loads while the store wipes (R178) -/

theorem watchTest_store (c : Core) : (watchTest c).store = c.store := by
  unfold watchTest
  split
  · rfl
  · split
    · split
      · rfl
      · rfl
      · unfold startHold
        split
        · rfl
        · rfl
    · rfl

theorem loadLink_store (c : Core) : (loadLink c).store = c.store := by
  unfold loadLink
  split
  · rfl
  · rfl

theorem loadLimits_store (c : Core) : (loadLimits c).store = c.store := by
  obtain ⟨profiles, hp⟩ := loadProfiles_eq c
  obtain ⟨_, _, _, _, hpin, -⟩ := loadPin_spec (loadProfiles c)
  obtain ⟨_, hlocks, -⟩ := lockListLoaded_spec c.store (loadPin (loadProfiles c))
  obtain ⟨_, hdefaults, -⟩ := loadDefaults_spec (lockListLoaded c.store (loadPin (loadProfiles c)))
  rw [loadLimits_eq]
  dsimp only
  rw [hdefaults, hlocks, hpin, hp]
  rfl

theorem foldl_replay_store (l : List (PurchaseRecord × EventGrant)) (c : Core) : (l.foldl replay c).store = c.store := by
  induction l generalizing c with
  | nil => rfl
  | cons x l ih => exact (ih _).trans rfl

theorem purchasesReplayed_store (d : Core) (loaded stored : List (PurchaseRecord × EventGrant)) :
    (purchasesReplayed d loaded stored).store = d.store := foldl_replay_store _ d

theorem commitGroup_wiping {asked : Bool} {c : Core} (h : c.store.state = .wiping) : commitGroup asked c = c :=
  commitGroup_wipe (by rw [offer_turnedAway (a := .duringWipe) (by rw [h]; rfl)])

theorem UplinkOnly.store {c c' : Core} (h : UplinkOnly c c') : c'.store = c.store := by
  obtain ⟨u, rfl⟩ := h
  rfl

theorem loadPurchases_wiping {c : Core} (h : c.store.state = .wiping) : (loadPurchases c).store = c.store := by
  obtain ⟨_, _, hcredit, -⟩ := loadCredit_loaded c
  have hreplayed := purchasesReplayed_store (loadCredit c) (loadedPurchases c) (storedPurchases c.store)
  have hstore : (loadCredit c).store = c.store := by rw [hcredit]
  rw [loadPurchases_eq]
  dsimp only
  rw [((becameUnreported_uplinkOnly _ _).trans (dueTest_uplinkOnly _)).store]
  split
  · exact hreplayed.trans hstore
  · rw [commitGroup_wiping (by rw [hreplayed, hstore, h])]
    exact hreplayed.trans hstore

theorem loadAccess_store (c : Core) : (loadAccess c).store = c.store := by
  by_cases h : ∃ f, c.access.issue = .locked f
  · obtain ⟨f, hf⟩ := h
    obtain ⟨_, hpackages, -⟩ := packagesLoaded_spec c.store c
    obtain ⟨_, hevents, -⟩ := eventsLoaded_spec c.store (packagesLoaded c.store c)
    obtain ⟨_, _, hnumbers, -⟩ := numbersLoaded_spec c.store (eventsLoaded c.store (packagesLoaded c.store c))
    rw [loadAccess_locked hf, hnumbers, hevents, hpackages]
    rfl
  · rw [loadAccess_unlocked fun f hf => h ⟨f, hf⟩]

theorem loadSettings_store (c : Core) : (loadSettings c).store = c.store := by
  obtain ⟨_, he⟩ := acqLimitLoaded_only c
  rw [(loadSettings_acqLimit c).2, he]

/-- While the store wipes no load changes it. -/
theorem loadAll_wiping {c : Core} (h : c.store.state = .wiping) : (loadAll c).store = c.store := by
  have haccess : (loadAccess (loadSettings (loadDirectory (loadClock c)))).store = c.store := by
    rw [loadAccess_store, loadSettings_store]
    rfl
  unfold loadAll
  rw [loadLink_store, loadLimits_store, loadPurchases_wiping (by rw [haccess, h]), haccess]

/-! ## The banks of a wipe that resumes (R187) -/

theorem bankBlank_eq_false {st : Store} {b : Fin 8} : bankBlank st b = false ↔ ∃ p : Fin 128, p.val / 16 = b.val ∧ page st p ≠ .blank := by
  unfold bankBlank
  rw [List.all_eq_false]
  refine exists_congr fun p => ?_
  rw [mem_bank, beq_iff_eq]

theorem banksLeft_eq (st : Store) : allBanks.filter (fun b => !bankBlank st b) =
    ([0, 1, 2, 3, 4, 5, 6, 7] : List (Fin 8)).filter (fun n => decide (∃ p : Fin 128, p.val / 16 = n.val ∧ page st p ≠ .blank)) := by
  refine List.filter_congr fun b _ => ?_
  rw [Bool.eq_iff_iff, Bool.not_eq_true', decide_eq_true_iff]
  exact bankBlank_eq_false

end Sys2Proof.Machine
end

section
/-! The end of the start-up scan (R188, R189). -/

namespace Sys2Proof.Machine

open Sys2Proof

theorem exec_startUpScanDone (notBlank : List PageNo) (s : State) :
    exec (.startUpScanDone notBlank) s = .next (onCore (startUpScanDone notBlank) s) := rfl

/-! ## The box after the scan -/

/-- The box whose store has left SCANNING with these pages. -/
def scanLeft (failed : Option PageNo) (st : Store) (c : Core) : Core := leaveScanning failed (postReady { c with store := st })

/-- The box after the loads and standby watch. -/
def scanEnded (failed : Option PageNo) (st : Store) (c : Core) : Core := watchTest (afterLoads (loadAll (scanLeft failed st c)))

section
variable {failed : Option PageNo} {st : Store} {c : Core}

theorem scanLeft_scanLeft : ScanLeft failed (postReady { c with store := st }) (scanLeft failed st c) := leaveScanning_scanLeft failed _

theorem scanLeft_state : (scanLeft failed st c).store.state = if st.floor ≠ 0 then .wiping else if failed.isSome = true then .fault else .idle :=
  scanLeft_scanLeft.state

theorem scanLeft_notErasing : (scanLeft failed st c).store.state ≠ .erasing := by
  rw [scanLeft_state]
  split
  · decide
  · split
    · decide
    · decide

theorem loadAll_scanLeft_state : (loadAll (scanLeft failed st c)).store.state =
    if st.floor ≠ 0 then .wiping else if failed.isSome = true then .fault else .idle :=
  ((loadAll_steady (.refl _)).running scanLeft_notErasing).1.trans scanLeft_state

theorem loadAll_scanLeft_states : (loadAll (scanLeft failed st c)).store.state = .wiping ∨
    (loadAll (scanLeft failed st c)).store.state = .fault ∨ (loadAll (scanLeft failed st c)).store.state = .idle := by
  rw [loadAll_scanLeft_state]
  split
  · exact .inl rfl
  · split
    · exact .inr (.inl rfl)
    · exact .inr (.inr rfl)

theorem scanEnded_notScanning : (scanEnded failed st c).store.state ≠ .scanning := by
  rw [scanEnded, watchTest_store]
  exact (afterLoads_stands loadAll_scanLeft_states).2

/-- READY is the oldest notice. -/
theorem scanEnded_first : (scanEnded failed st c).link.notices.head? =
    some ⟨c.clock.time.isSome, c.clock.time.getD c.link.refSeconds, .ready c.link.cause⟩ := by
  have hready := postReady_first { c with store := st }
  have hleft := (scanLeft_scanLeft (failed := failed) (st := st) (c := c)).first
  have hafter := (afterLoads_stands (loadAll_scanLeft_states (failed := failed) (st := st) (c := c))).1
  rw [scanEnded]
  generalize scanLeft failed st c = l at *
  have hloads : FirstStands l (loadAll l) := (loadAll_steady (.refl l)).first
  generalize loadAll l = a at *
  generalize afterLoads a = e at *
  have hwatch : FirstStands e (watchTest e) := (watchTest_steady (.refl e)).first
  exact hwatch _ (hafter _ (hloads _ (hleft _ hready)))

/-- Without a wipe mark the pages and the serial stand, and the store is in FAULT or goes on. -/
theorem scanEnded_unmarked (h : st.floor = 0) : (scanEnded failed st c).store.pages = st.pages ∧
    (scanEnded failed st c).store.nextSerial = st.nextSerial ∧ (failed.isSome = true → (scanEnded failed st c).store.state = .fault) ∧
    (failed = none → 4 ≤ erasedCount st → (scanEnded failed st c).store.state = .idle) := by
  have hleft := scanLeft_scanLeft (failed := failed) (st := st) (c := c)
  have hloads := loadAll_steady (.refl (scanLeft failed st c))
  obtain ⟨-, -, -, hserial, -⟩ := hloads.running scanLeft_notErasing
  have hstate : (loadAll (scanLeft failed st c)).store.state = if failed.isSome = true then .fault else .idle :=
    loadAll_scanLeft_state.trans (if_neg (not_not_intro h))
  have hpages : (loadAll (scanLeft failed st c)).store.pages = st.pages := hloads.pages.trans hleft.pages
  have hcount : erasedCount (loadAll (scanLeft failed st c)).store = erasedCount st := by
    unfold erasedCount
    rw [hpages]
  have hbranch : (loadAll (scanLeft failed st c)).store.state = .fault ∨ (loadAll (scanLeft failed st c)).store.state = .idle :=
    loadAll_scanLeft_states.resolve_left fun hw => by
      rw [hw] at hstate
      split at hstate
      · cases hstate
      · cases hstate
  obtain ⟨hp, hn, hfault, hidle⟩ := afterLoads_pages hbranch
  rw [scanEnded, watchTest_store]
  refine ⟨hp.trans hpages, hn.trans (hserial.trans hleft.serial), fun hf => hfault (hstate.trans (if_pos hf)), fun hf h4 => ?_⟩
  refine hidle (hstate.trans (if_neg ?_)) (by rw [hcount]; exact h4)
  rw [hf]
  simp

/-- After a wipe mark the wipe goes on with the first bank that is not blank. -/
theorem scanEnded_marked {b : Fin 8} {bs : List (Fin 8)} (h : st.floor ≠ 0)
    (hb : (allBanks.filter fun b => !bankBlank st b) = b :: bs) : (scanEnded failed st c).store =
      { st with state := .wiping, activity := .bankErase b, banks := bs, wipeFailed := failed.isSome } := by
  have hleft : (scanLeft failed st c).store = { st with state := .wiping, wipeFailed := failed.isSome } := by
    rw [scanLeft, leaveScanning_wipes (c := postReady { c with store := st }) h]
    rfl
  have hloads : (loadAll (scanLeft failed st c)).store = { st with state := .wiping, wipeFailed := failed.isSome } :=
    (loadAll_wiping (by rw [hleft])).trans hleft
  have hbanks : ∀ b, bankBlank (loadAll (scanLeft failed st c)).store b = bankBlank st b := fun b => by
    rw [hloads]
    rfl
  rw [scanEnded, watchTest_store, afterLoads_banks (b := b) (bs := bs) (by rw [hloads]) (by simp only [hbanks]; exact hb), setStore_store, hloads]

end

/-! ## The retiring pages that are not blank -/

/-- The first of the retiring pages that are not blank. -/
def eraseFailed (notBlank : List PageNo) (st : Store) : Option PageNo := (retiringPages st).find? fun p => notBlank.contains p

theorem eraseFailed_isSome {notBlank : List PageNo} {st : Store} :
    (eraseFailed notBlank st).isSome = true ↔ ∃ p : Fin 128, (page st p).state = .retiring ∧ p ∈ notBlank := by
  rw [eraseFailed, List.find?_isSome]
  refine exists_congr fun p => ?_
  rw [mem_retiringPages, List.contains_iff_mem]

theorem startUpScanDone_scanning {notBlank : List PageNo} {c : Core} (h : c.store.state = .scanning) :
    startUpScanDone notBlank c = scanEnded (eraseFailed notBlank c.store) (scanned notBlank c.store) c := if_pos h

theorem startUpScanDone_other {notBlank : List PageNo} {c : Core} (h : c.store.state ≠ .scanning) : startUpScanDone notBlank c = c := if_neg h

end Sys2Proof.Machine
end

section
/-! The loads of every block and the end of the scan, as a whole. -/

namespace Sys2Proof.Machine

open Sys2Proof

/-- Settles O56: each load by its live records or at its defaults, and the scan's end with READY first, its pages, its wipe mark and the
state it leaves. -/
theorem scanEnds : Obligations.ScanEnds := by
  unfold Obligations.ScanEnds
  refine ⟨fun c => ?clock, fun c => ?directory, fun c => ?settings, fun c => ?access, fun c => ?purchases, fun c => ?limits, fun c => ?link,
    fun notBlank s => ?scan⟩
  case clock =>
    obtain ⟨_, _, _, honly⟩ := clockLoaded_only c.store c.clock
    obtain ⟨_, htoday⟩ := todayLoaded_only c.store c.clock
    obtain ⟨_, _, hzone⟩ := zoneLoaded_only c.store (todayLoaded c.store c.clock)
    have hids := lastId_covers (storedBookings c.store)
    rw [loadClock_eq]
    refine ⟨?_, fun d hd => ?_, fun hd => ?_, fun z n hz => ?_, fun hz => ?_, fun b => (sortBy_perm _).mem_iff.trans mem_storedBookings,
      sortedBookings_ordered _, hids.1, hids.2⟩
    · rw [honly]
      rfl
    · rw [hzone, todayLoaded_some hd]
      rfl
    · rw [hzone, todayLoaded_unstored hd]
      rfl
    · rw [zoneLoaded_some hz]
      exact ⟨rfl, rfl⟩
    · rw [zoneLoaded_unstored hz, htoday]
      exact ⟨rfl, rfl⟩
  case directory =>
    obtain ⟨_, _, _, _, hsnap⟩ := snapshotLoaded_only c.store c.dir
    obtain ⟨_, hhome⟩ := homeLoaded_only c.store (snapshotLoaded c.store c.dir)
    rw [loadDirectory_eq]
    refine ⟨?_, fun v cs g n parts hheader hn hparts => ?_, fun hbroken => ?_, fun h hh => ?_, fun hh => ?_⟩
    · rw [hhome, hsnap]
      rfl
    · rw [hhome, snapshotLoaded_whole hheader hn hparts]
      exact ⟨rfl, rfl, rfl, rfl⟩
    · rw [hhome, snapshotLoaded_broken hbroken]
      exact ⟨rfl, rfl, rfl, rfl⟩
    · rw [homeLoaded_some hh]
      rfl
    · rw [homeLoaded_unstored hh, hsnap]
      rfl
  case settings =>
    obtain ⟨_, honly⟩ := acqLimitLoaded_only c
    obtain ⟨harb, hwhole⟩ := loadSettings_acqLimit c
    refine ⟨?_, fun n hn => ?_, fun hn => ?_, fun n hn => ?_, fun hn => ?_⟩
    · rw [harb]
      exact hwhole.trans (by rw [honly])
    · rw [harb, acqLimitLoaded_some hn]
    · rw [harb, acqLimitLoaded_unstored hn]
    · rw [loadSettings_some hn, honly]
      rfl
    · rw [loadSettings_unstored hn, honly]
  case access =>
    refine ⟨loadAccess_unlocked, fun f hf => ?_⟩
    obtain ⟨packages, hpackages, hp, hnp⟩ := packagesLoaded_spec c.store c
    obtain ⟨events, hevents, he, hne⟩ := eventsLoaded_spec c.store (packagesLoaded c.store c)
    obtain ⟨cut, last, hnumbers, hl, hnl⟩ := numbersLoaded_spec c.store (eventsLoaded c.store (packagesLoaded c.store c))
    rw [hpackages] at hevents hnumbers hne hnl
    rw [hevents] at hnumbers hnl
    rw [loadAccess_locked hf, hpackages, hevents, hnumbers]
    exact ⟨rfl, hp, hnp, he, hne, hl, hnl⟩
  case purchases =>
    obtain ⟨p, u, hload, h⟩ := loadCredit_loaded c
    have hwhole := loadPurchases_eq c
    rw [hload] at hwhole ⊢
    exact ⟨h.settings, h.noSettings, h.credit, h.noCredit, h.ack, h.noAck, rfl, loadedPurchases_locked, loadedPurchases_unlocked,
      fun y hy r g b l hbody hlive => mem_storedPurchases.mpr ⟨y, hy, b, l, hbody, hlive⟩, fun x hx => mem_storedPurchases.mp hx,
      fun r g e => ⟨rfl, rfl, replayGrant_fits, replayGrant_evicts⟩, hwhole⟩
  case limits =>
    have h := loadLimits_loaded c
    exact ⟨h.profiles 0, fun n hn => ⟨fun p hp => (h.profiles n).trans (profileLoaded_some hn hp),
        fun hp => (h.profiles n).trans (profileLoaded_none hn hp)⟩,
      h.pin, h.noPin, h.locks, h.noLocks, h.defaults, h.noDefaults, h.minute, h.failFlag, h.owed⟩
  case link => exact ⟨fun m gap key => loadLink_some, loadLink_unstored⟩
  case scan =>
    have hscanned := scanned_scanned notBlank s.core.store
    have hlive : ∀ key x, liveRecord (scanned notBlank s.core.store) key = some x → (scanned notBlank s.core.store).floor ≤ x.2.serial :=
      fun key x => floor_le_liveRecord
    refine ⟨fun h => (exec_startUpScanDone notBlank s).trans (next_onCore (startUpScanDone_other h)),
      fun h => (exec_startUpScanDone notBlank s).trans (next_onCore (startUpScanDone_scanning h)),
      fun h => ⟨_, (exec_startUpScanDone notBlank s).trans (next_onCore (startUpScanDone_scanning h)), scanEnded_notScanning,
        scanEnded_first, ?_⟩⟩
    generalize scanned notBlank s.core.store = st at *
    refine ⟨fun hfloor => ?_, hscanned.floor ▸ markFloor_eq_zero, fun p n hp => hscanned.floor ▸ le_markFloor hp, hlive,
      fun b bs hfloor hbanks => ?_⟩
    · obtain ⟨hpages, hserial, hfault, hidle⟩ := scanEnded_unmarked (failed := eraseFailed notBlank s.core.store) (c := s.core) hfloor
      refine ⟨fun p => ⟨?_, hscanned.erases, hscanned.keeps⟩, hserial, fun p hr hp => hfault (eraseFailed_isSome.mpr ⟨p, hr, hp⟩),
        fun hall h4 => ?_⟩
      · unfold page
        rw [hpages]
      · refine hidle (Option.not_isSome_iff_eq_none.mp fun hsome => ?_) h4
        obtain ⟨p, hr, hp⟩ := eraseFailed_isSome.mp hsome
        exact hall p hr hp
    · have hfailed : (eraseFailed notBlank s.core.store).isSome =
          decide (∃ p : Fin 128, (page s.core.store p).state = .retiring ∧ p ∈ notBlank) :=
        Bool.eq_iff_iff.mpr (eraseFailed_isSome.trans decide_eq_true_iff.symm)
      rw [scanEnded_marked hfloor ((banksLeft_eq st).trans hbanks), hfailed]

end Sys2Proof.Machine
end
